-- ==== Sys2Proof/Word.lean ====
section
/-!
DEFINITION. Sys2Proof/Word.lean: the word and byte types of the machine (R5: 32-bit registers, bytes of memory).
-/
namespace Sys2Proof

/-- A 32-bit word: a register, a general register of a core, an aligned word of memory (R5, R14). -/
abbrev Word := BitVec 32

/-- A byte of memory. -/
abbrev Byte := BitVec 8

end Sys2Proof
end

