-- ==== Sys2Proof/Syntax.lean ====
section
/-!
DEFINITION. Sys2Proof/Syntax.lean: the commands of the device, one constructor for each row of spec/opcode_table.json, and
the types of their operands. The instructions of a core carry decoded operands (R134); an event carries what the
outside world decides about it: its instant, its unit, the measured quantities, the bytes of a frame.
-/
namespace Sys2Proof

/-- The gate lines of R23. -/
inductive Gate where
  | ign | immo | apply | safe
deriving DecidableEq, Repr

/-- What a switch die finds for its health source (R230): temperature of its hottest sensor in °C, mean group current
over 1 s in mA, group voltage in mV, a failed sequencer self-check, a failed `SENSE` reference. -/
inductive DieCond where
  | hot (c : Int) | current (mA : Nat) | over (mV : Nat) | selfCheck | senseRef
deriving DecidableEq, Repr

/-- What FLD finds for its health source (R417): its temperature in °C, a failed self-check, a failed Touchline bank. -/
inductive FldCond where
  | hot (c : Int) | selfCheck | tlBank
deriving DecidableEq, Repr

/-- What a transceiver detects that wakes a sleeping network (R468): the wake-up pattern, a wake-up frame, the frame error
counter. -/
inductive WakeKind where
  | pattern | frame | errors
deriving DecidableEq, Repr

/-- A link whose transceiver or PHY is named. -/
inductive Link where
  | can (n : Fin 13) | lin (m : Fin 6) | eth (e : Fin 2)
deriving DecidableEq, Repr

/-- A frame on a CAN bus as a receiver decodes it: format bits, the res bit of an FD frame found recessive (R437), identifier,
DLC, data bytes, and the time base at the sample point of its SOF. -/
structure BusFrame where
  ide : Bool := false
  fdf : Bool := false
  brs : Bool := false
  esi : Bool := false
  rtr : Bool := false
  resBad : Bool := false
  id : BitVec 29 := 0
  dlc : BitVec 4 := 0
  data : List Byte := []
  sof : Nat := 0
deriving DecidableEq, Repr

/-- A SENT serial message assembled from status nibbles (R487): format as `SENT_SER` codes it, identifier, data, and whether
its CRC holds. -/
structure SentSerial where
  fmt : Fin 4
  id : BitVec 8
  data : BitVec 16
  crc : Bool
deriving DecidableEq, Repr

/-- A mailbox command (R553): the enrolment record carries index, zone, token ID, epoch, counter value and whether its
signature holds; the revocation record index, token ID, epoch and signature. `bad` is an unknown `OP` (1) or a wrong
length (2), by its result. -/
inductive KmbReq where
  | identity
  | random (count : Nat)
  | enrol (idx zone : Nat) (token epoch count : Nat) (sig : Bool)
  | revoke (idx : Nat) (token epoch : Nat) (sig : Bool)
  | confirm
  | abandon
  | bad (result : Nat)
deriving DecidableEq, Repr

/-- A debug token (R584). -/
structure DebugToken where
  format : Nat := 1
  machine : Nat
  nonce : Nat
  epoch : Nat
  perms : Nat
  life : Nat
  sig : Bool
deriving DecidableEq, Repr

/-- What one start meets (R42, R46, R669): the PLL qualifies by the end of step 2; which verifications, transfers and self-tests
succeed; whether every MRAM record has a good copy (R564); the S-mode writes
(address, value) of the start before the dies are armed. -/
structure BootPlan where
  pll : Bool := true
  lxtal : Bool := false
  patch : Bool := true
  touchline : Bool := true
  segments : Bool := true
  dies : BitVec 4 := 0xF
  fld : Bool := true
  acc : Bool := true
  comparator : Bool := true
  umpire : Bool := true
  direct : Bool := true
  records : Bool := true
  /-- How many sectors an activation swaps before a loss of supply ends this start (R578, R581); none where it ends well. -/
  cutAt : Option Nat := none
  /-- SM3 of the SEQ, FLD and ACC images as sent (R583). -/
  measures : List (BitVec 256) := []
  setup : List (Nat × BitVec 32) := []
deriving DecidableEq, Repr

/-- A clock monitor (R630). The domain is named by number. -/
inductive ClockMon where
  | xin | pll | domain (d : Nat) | hfrc | lxtal | lfrc | switching
deriving DecidableEq, Repr

/-- A clock source (R620). -/
inductive ClockSrc where
  | xin | pll | hfrc | lxtal | lfrc
deriving DecidableEq, Repr

/-- A wake source of R658 as the power controller meets it; `n` names its unit. -/
inductive WakeSrc where
  | wake | kl15 | can (n : Fin 13) | lin (m : Fin 6) | touch (e : Fin 4) | alarm | umpire | reception
deriving DecidableEq, Repr

/-- A unit whose state carries parity or ECC (R161): where the error arises. -/
inductive ParityUnit where
  | core (n : Fin 4) | comparator | pulse | scheduler | coverage | timer (u : Fin 8) | can (n : Fin 13) | keeper | journal
  | crossing | timeBase
deriving DecidableEq, Repr

/-- A step of a maintenance activity (R601): it starts, or it ends well or failed. -/
inductive ActStep where
  | start | finish (ok : Bool)
deriving DecidableEq, Repr

/-- What ACC finds in a reply slot (R503): silence, a collision, or a reply that passes its CRC: its token ID, the RSSI codes of
`LF5` to `LF0`, and whether its response matches under the secret of the slot's index. -/
inductive SlotClass where
  | silent | collision | reply (token : BitVec 32) (codes : BitVec 48) (mac : Bool)
deriving DecidableEq, Repr

/-- What is measured at a T0 and shown in status registers: `VBAT_L` and `KL15` in 10 mV (R674); per channel 0–151 the mean and the
peak current of the last frame in mA and the junction temperature in 1/16 °C (R176); per supply group its voltage in 10 mV and its
mean current in 0.5 A (R231); the temperatures of the switch dies in °C. -/
structure Measures where
  vbat : Nat := 0
  kl15 : Nat := 0
  chans : List (Nat × Nat × Nat × Int) := []
  groups : List (Nat × Nat × Nat) := []
  dies : List (Nat × Int) := []
deriving DecidableEq, Repr

/-- What a debugger writes (R111, R112): a general register of the running bank, or the word at an address. -/
inductive DbgTarget where
  | reg (r : Fin 32)
  | mem (a : Nat)
deriving DecidableEq, Repr

/-- The commands of the device: one constructor for each row of spec/opcode_table.json, in the table's order. A
number `t` is the time-base instant at which an event happens, in units of 5 ns. -/
inductive Instr where
  /-- `POWER_UP` (R648): Supplies rise in any order; switch dies hold their hard-wired default Backstop, and FLD_CTL.EN and the time base start at 0. -/
  | powerUp
  /-- `RESET_N_RELEASE` (R42): Release of RESET_N starts the boot sequence of steps 0 to 8. -/
  | resetNRelease (plan : BootPlan)
  /-- `RESET_N_ASSERT` (R45): RESET_N low holds the logic die in reset and stops the chain; the sequence later restarts at step 0. -/
  | resetNAssert (t : Nat)
  /-- `FIRST_FRAME_TIMEOUT` (R46): No first frame within 150 ms of the release: the keeper holds SAFE_N low and the loader enters service mode. -/
  | firstFrameTimeout (t : Nat)
  /-- `BROWNOUT` (R652): VBAT_L below 3.0 V for 10 µs resets and depowers the logic die, which restarts once VBAT_L rises above 3.3 V. The operand `plan` is the start that follows the rise above 3.3 V. -/
  | brownout (mV t : Nat) (plan : BootPlan)
  /-- `VBAT_UV` (R673): VBAT_L below 6.0 V for 1 ms reports source 16. The operand `mV` is `VBAT_L` in mV. -/
  | vbatUv (mV t : Nat)
  /-- `VBAT_OV` (R673): VBAT_L above 36 V for 1 ms reports source 17. -/
  | vbatOv (mV t : Nat)
  /-- `FLASH_SUSPEND_UV` (R651): VBAT_L below 5.0 V stops a flash program or erase under way. -/
  | flashSuspendUv (mV t : Nat)
  /-- `FLASH_RESUME_UV` (R651): VBAT_L above 5.5 V for 10 ms repeats the interrupted flash program or erase from its start. -/
  | flashResumeUv (mV t : Nat)
  /-- `GROUP_WIRE` (R673): A group differs from VBAT_L by more than 4 V for 100 ms at low current and reports source 20. The operands are the voltages of the group and of `VBAT_L` in mV and the group's current in mA. -/
  | groupWire (g : Fin 8) (mVg mVl mA t : Nat)
  /-- `IGN_OK_RISE` (R654): KL15 above 5.0 V for 1 ms raises IGN_OK. -/
  | ignOkRise (t : Nat)
  /-- `IGN_OK_FALL` (R654): KL15 below 3.5 V for 1 ms lowers IGN_OK; a RUNNING machine state becomes PARKED. -/
  | ignOkFall (t : Nat)
  /-- `GATE_LINE_FALL` (R26): A gate line falls and each receiving die places the affected channels in their blocked state within 10 µs. -/
  | gateLineFall (g : Gate) (t : Nat)
  /-- `GATE_LINE_RISE` (R27): A gate line rises and each unblocked channel follows its command from the next latch, with a new inrush window. -/
  | gateLineRise (g : Gate) (t : Nat)
  /-- `REGISTER_WRITE` (R8): A write to a register field that has no behaviour of its own stores, clears or sets according to its access type. -/
  | registerWrite (a : Nat) (v : Word) (t : Nat)
  /-- `FRAME_TICK` (R52): T0 of a frame: snapshot, adoption of posted entries, dispatch of primary passes and the per-frame state changes. -/
  | frameTick (t : Nat) (m : Measures)
  /-- `CUT` (R98): At the cut C, the sequencer stops every running pass; unfinished tasks take outcome ABORTED. -/
  | cut (t : Nat)
  /-- `COMMIT` (R83): At the end of compare, entries of COMMITTED tasks are applied atomically in ORDER through the Touchline. -/
  | commit (t : Nat)
  /-- `COMMIT_DEADLINE` (R100): At D, the commit stops; tasks not yet applied take outcome LATE and source 47 reports. -/
  | commitDeadline (t : Nat)
  /-- `MAINTENANCE_SLICE_END` (R61): The slice ends after S or at T0 + F − 2 µs, and running maintenance work is suspended. -/
  | maintenanceSliceEnd (t : Nat)
  /-- `RUN` (R53): A write of 1 to FRAME_CTL.RUN sets RUN and locks the RWL fields that depend on it. -/
  | run
  /-- `FRAME_LEN_WRITE` (R62): A write of LEN is checked against the timing conditions and R63, and takes effect at the next T0 or is refused. -/
  | frameLenWrite (v : BitVec 7)
  /-- `FRAME_MARGIN_WRITE` (R62): A write of MARGIN_US is checked and takes effect at the next T0 or is refused with source 34. -/
  | frameMarginWrite (v : BitVec 12)
  /-- `FRAME_CUTRES_WRITE` (R62): A write of RES_US is checked and takes effect at the next T0 or is refused with source 34. -/
  | frameCutresWrite (v : BitVec 12)
  /-- `FRAME_LOCK_WRITE` (R55): A write of FRAME_LOCK selects the tick source and enters ACQUIRING, or FREE when R55 fails. -/
  | frameLockWrite (v : Word)
  /-- `LOCK_REFERENCE` (R56): A CAN reference or PPS edge gives a phase error, which is spread over the following frames and drives the lock state. The operand `edge` is the time base of a PPS edge; none takes the reference message that the CAN controller has passed on. -/
  | lockReference (t : Nat) (edge : Option Nat)
  /-- `REFERENCE_MISSING` (R57): No reference within 1.5 periods counts as missing; MISS consecutive misses lead to HOLDOVER. -/
  | referenceMissing (t : Nat)
  /-- `LOCK_FAIL` (R58): Not LOCKED within 32 reference periods reports source 33. -/
  | lockFail (t : Nat)
  /-- `TT_POST` (R65): A write to FRAME_TT_POST marks a frame table entry for checking and adoption at the next T0. -/
  | ttPost (i : Fin 64)
  /-- `MODE_REQ` (R106): A write of DBG_CTL.MODE_REQ selects OFF, JOINT or REPLAY from the next T0 when a token permits it. -/
  | modeReq (v : BitVec 2)
  /-- `HALT` (R107): DBG_CTL.HALT halts the cores according to the mode and suspends the frame timer. -/
  | halt (t : Nat)
  /-- `DEBUG_RESUME` (R107): DBG_CTL.RESUME resumes the halted cores; the next T0 comes later by the halted time. -/
  | debugResume (t : Nat)
  /-- `BREAKPOINT` (R110): An armed breakpoint address is reached and the cores halt as the debug mode states. -/
  | breakpoint (b : Fin 4) (core : Fin 4) (t : Nat)
  /-- `DEBUGGER_WRITE` (R112): A debugger write to memory or a register is applied, logged for replay or refused. -/
  | debuggerWrite (core : Fin 4) (target : DbgTarget) (v : Word) (t : Nat)
  /-- `INTERRUPT` (R131): An enabled pending interrupt in S mode saves EPC and EPSR and vectors to SVEC + 0x40. -/
  | interrupt (core : Fin 4)
  /-- `ADD` (R154): Register addition, with A + B + 1 in the mirror pass. -/
  | add (core : Fin 4) (gd ga gb : Fin 32)
  /-- `SUB` (R154): Register subtraction. -/
  | sub (core : Fin 4) (gd ga gb : Fin 32)
  /-- `ADC` (R154): Addition with carry. -/
  | adc (core : Fin 4) (gd ga gb : Fin 32)
  /-- `SBC` (R154): Subtraction with borrow. -/
  | sbc (core : Fin 4) (gd ga gb : Fin 32)
  /-- `AND` (R154): Bitwise AND, which is OR in the mirror pass. -/
  | andR (core : Fin 4) (gd ga gb : Fin 32)
  /-- `OR` (R154): Bitwise OR, which is AND in the mirror pass. -/
  | orR (core : Fin 4) (gd ga gb : Fin 32)
  /-- `XOR` (R154): Bitwise XOR, which is XNOR in the mirror pass. -/
  | xorR (core : Fin 4) (gd ga gb : Fin 32)
  /-- `ANDN` (R154): AND with the complement of gb. -/
  | andn (core : Fin 4) (gd ga gb : Fin 32)
  /-- `ORN` (R154): OR with the complement of gb. -/
  | orn (core : Fin 4) (gd ga gb : Fin 32)
  /-- `XNOR` (R154): Complemented XOR. -/
  | xnor (core : Fin 4) (gd ga gb : Fin 32)
  /-- `CMP` (R145): Sets the flags of ga − gb. -/
  | cmp (core : Fin 4) (ga gb : Fin 32)
  /-- `TST` (R145): Sets the flags of ga AND gb. -/
  | tst (core : Fin 4) (ga gb : Fin 32)
  /-- `SEL` (R144): Selects ga or gb by a condition code. -/
  | sel (core : Fin 4) (gd ga gb : Fin 32) (cond : Fin 16)
  /-- `LSL` (R136): Logical shift left by register. -/
  | lsl (core : Fin 4) (gd ga gb : Fin 32)
  /-- `LSR` (R136): Logical shift right by register. -/
  | lsr (core : Fin 4) (gd ga gb : Fin 32)
  /-- `ASR` (R136): Arithmetic shift right by register. -/
  | asr (core : Fin 4) (gd ga gb : Fin 32)
  /-- `ROR` (R136): Rotate right by register. -/
  | ror (core : Fin 4) (gd ga gb : Fin 32)
  /-- `LSLI` (R136): Logical shift left by immediate. -/
  | lsli (core : Fin 4) (gd ga : Fin 32) (sh : Fin 32)
  /-- `LSRI` (R136): Logical shift right by immediate. -/
  | lsri (core : Fin 4) (gd ga : Fin 32) (sh : Fin 32)
  /-- `ASRI` (R136): Arithmetic shift right by immediate. -/
  | asri (core : Fin 4) (gd ga : Fin 32) (sh : Fin 32)
  /-- `RORI` (R136): Rotate right by immediate. -/
  | rori (core : Fin 4) (gd ga : Fin 32) (sh : Fin 32)
  /-- `MUL` (R154): Low 32 bits of the product. -/
  | mul (core : Fin 4) (gd ga gb : Fin 32)
  /-- `MULHS` (R154): High 32 bits of the signed product. -/
  | mulhs (core : Fin 4) (gd ga gb : Fin 32)
  /-- `MULHU` (R154): High 32 bits of the unsigned product. -/
  | mulhu (core : Fin 4) (gd ga gb : Fin 32)
  /-- `DIVS` (R137): Signed division with the residue check of R157. The operand `chk` is true when the residue check of R157 passes. -/
  | divs (core : Fin 4) (gd ga gb : Fin 32) (chk : Bool)
  /-- `DIVU` (R137): Unsigned division with the residue check. -/
  | divu (core : Fin 4) (gd ga gb : Fin 32) (chk : Bool)
  /-- `REMS` (R137): Signed remainder with the residue check. -/
  | rems (core : Fin 4) (gd ga gb : Fin 32) (chk : Bool)
  /-- `REMU` (R137): Unsigned remainder with the residue check. -/
  | remu (core : Fin 4) (gd ga gb : Fin 32) (chk : Bool)
  /-- `CLZ` (R154): Counts the leading zeros of ga. -/
  | clz (core : Fin 4) (gd ga : Fin 32)
  /-- `BFX` (R138): Extracts a zero-extended bit field. The operand `w1` is the encoded w − 1. -/
  | bfx (core : Fin 4) (gd ga : Fin 32) (pos : Fin 32) (w1 : Fin 32)
  /-- `BFXS` (R138): Extracts a sign-extended bit field. -/
  | bfxs (core : Fin 4) (gd ga : Fin 32) (pos : Fin 32) (w1 : Fin 32)
  /-- `BFI` (R138): Inserts a bit field into gd. -/
  | bfi (core : Fin 4) (gd ga : Fin 32) (pos : Fin 32) (w1 : Fin 32)
  /-- `PERM` (R139): Permutes bytes under selector nibbles. -/
  | perm (core : Fin 4) (gd ga : Fin 32) (sl : BitVec 16)
  /-- `ADDI` (R153): Addition of a sign-extended immediate. -/
  | addi (core : Fin 4) (gd ga : Fin 32) (imm : BitVec 16)
  /-- `ANDI` (R153): AND with a zero-extended immediate. -/
  | andi (core : Fin 4) (gd ga : Fin 32) (imm : BitVec 16)
  /-- `ORI` (R153): OR with a zero-extended immediate. -/
  | ori (core : Fin 4) (gd ga : Fin 32) (imm : BitVec 16)
  /-- `XORI` (R153): XOR with a zero-extended immediate. -/
  | xori (core : Fin 4) (gd ga : Fin 32) (imm : BitVec 16)
  /-- `CMPI` (R153): Sets the flags of ga − imm. -/
  | cmpi (core : Fin 4) (ga : Fin 32) (imm : BitVec 16)
  /-- `TSTI` (R153): Sets the flags of ga AND imm. -/
  | tsti (core : Fin 4) (ga : Fin 32) (imm : BitVec 16)
  /-- `MOVHI` (R153): Loads imm × 65536 into gd. -/
  | movhi (core : Fin 4) (gd : Fin 32) (imm : BitVec 16)
  /-- `LW` (R140): Loads a word, relocated by R77 in a pass. -/
  | lw (core : Fin 4) (gd ga : Fin 32) (imm : BitVec 16)
  /-- `LH` (R140): Loads a sign-extended halfword. -/
  | lh (core : Fin 4) (gd ga : Fin 32) (imm : BitVec 16)
  /-- `LHU` (R140): Loads a zero-extended halfword. -/
  | lhu (core : Fin 4) (gd ga : Fin 32) (imm : BitVec 16)
  /-- `LB` (R140): Loads a sign-extended byte. -/
  | lb (core : Fin 4) (gd ga : Fin 32) (imm : BitVec 16)
  /-- `LBU` (R140): Loads a zero-extended byte. -/
  | lbu (core : Fin 4) (gd ga : Fin 32) (imm : BitVec 16)
  /-- `SW` (R141): Stores a word; in a pass, a captured store becomes a commit entry. -/
  | sw (core : Fin 4) (gd ga : Fin 32) (imm : BitVec 16)
  /-- `SH` (R141): Stores a halfword; not permitted to a captured target. -/
  | sh (core : Fin 4) (gd ga : Fin 32) (imm : BitVec 16)
  /-- `SB` (R141): Stores a byte; not permitted to a captured target. -/
  | sb (core : Fin 4) (gd ga : Fin 32) (imm : BitVec 16)
  /-- `AGREE` (R94): Performs a non-repeatable read once and logs it; the mirror pass replays the complement. -/
  | agree (core : Fin 4) (gd ga : Fin 32) (imm : BitVec 16)
  /-- `B` (R144): Conditional relative branch. -/
  | br (core : Fin 4) (cond : Fin 16) (disp : BitVec 22)
  /-- `BL` (R134): Relative branch that writes the link register. -/
  | bl (core : Fin 4) (disp : BitVec 26)
  /-- `JR` (R143): Register-indirect jump; a jump to the pass-end gate ends the pass. -/
  | jr (core : Fin 4) (ga : Fin 32)
  /-- `JALR` (R143): Register-indirect jump with link. -/
  | jalr (core : Fin 4) (gd ga : Fin 32)
  /-- `LOOP` (R147): Sets up a hardware loop whose count comes from a register. -/
  | loopR (core : Fin 4) (lvl : Fin 4) (ga : Fin 32) (off : BitVec 19)
  /-- `LOOPI` (R148): Sets up a hardware loop whose count is immediate. -/
  | loopi (core : Fin 4) (lvl : Fin 4) (cnt : BitVec 12) (off : BitVec 12)
  /-- `NOP` (R135): No operation. -/
  | nop (core : Fin 4)
  /-- `MFC` (R123): Reads a control register, with access checked by mode. -/
  | mfc (core : Fin 4) (gd : Fin 32) (cr : Fin 1024)
  /-- `MTC` (R123): Writes a control register, with access checked by mode. -/
  | mtc (core : Fin 4) (cr : Fin 1024) (ga : Fin 32)
  /-- `TRAP` (R128): Raises a TRAP exception with its number in INFO. -/
  | trap (core : Fin 4) (num : BitVec 10)
  /-- `SYNC` (R135): Waits until every earlier store has reached its target. -/
  | sync (core : Fin 4)
  /-- `ERET` (R131): Restores PSR from EPSR and continues at EPC. -/
  | eret (core : Fin 4)
  /-- `WFI` (R131): Stops the core clock until an interrupt input sets a bit in IPEND. -/
  | wfi (core : Fin 4)
  /-- `CHT_POST` (R164): A write of an index marks a channel table entry for adoption at the commit point. -/
  | chtPost (i : BitVec 9)
  /-- `THERM` (R192): CHT_CLR.THERM releases a channel's thermal latch when T_J is below 150 °C. -/
  | therm (i : BitVec 9)
  /-- `LATCH` (R195): CHT_CLR.LATCH takes a channel out of LATCHED and clears RETRY_CNT. -/
  | latchClr (i : BitVec 9)
  /-- `FLT` (R207): CHT_CLR.FLT clears a channel's sticky FLT bits and CNT. -/
  | fltClr (i : BitVec 9)
  /-- `BSTOP` (R219): A committed CHT_DIE_CTLk.BSTOP puts die k in BACKSTOP at the next T0. -/
  | bstop (k : Fin 4)
  /-- `RESUME` (R220): A committed CHT_DIE_CTLk.RESUME returns die k from BACKSTOP to ARMED when its conditions hold. -/
  | resume (k : Fin 4)
  /-- `CHAIN_LATCH` (R21): At each 2 µs latch, the dies apply the channel bits formed by the pulse engine and return their applied bits for verification. The operands say which dies find a CRC error in their segment, which return segments fail their CRC, and whether the header returns intact. -/
  | chainLatch (t : Nat) (bad retBad : BitVec 4) (hdrOk : Bool)
  /-- `CONFIGURATION_FRAME` (R239): A die in BOOT or being reloaded takes a block of sequencer, Touchline or Backstop data. The operand `ok` says whether the frame's CRC-16 passes and, for an end of load, whether the die's own CRC-32 equals the image's. -/
  | configurationFrame (t : Nat) (k : Fin 4) (target : Fin 4) (block : Nat) (data : List (BitVec 8)) (ok : Bool)
  /-- `LIVE_ADVANCE` (R216): The chain master advances the liveness count every 32 µs while operate frames are sent. -/
  | liveAdvance (t : Nat)
  /-- `LIVE_STALL` (R260): LIVE not advanced for 64 µs reports source 242, and again after each further 64 µs. -/
  | liveStall (t : Nat)
  /-- `SERIAL_WATCHDOG_EXPIRY` (R217): A die's serial watchdog expires and the die enters BACKSTOP, sets WD_TRIP and reports 232 + 2k. -/
  | serialWatchdogExpiry (k : Fin 4) (t : Nat)
  /-- `DIE_LOGIC_RESET` (R203): Die logic supply below 2.5 V for 10 µs resets the die to BOOT with the hard-wired default Backstop. -/
  | dieLogicReset (k : Fin 4) (t : Nat)
  /-- `SHORT` (R184): A channel's current reaches I_FAST, and the die cuts it within 8 µs and applies the retry rule. -/
  | short (i : Fin 152) (t : Nat)
  /-- `OVERCUR` (R186): Three consecutive samples above the active limit cut the channel and apply the retry rule. The operands are three consecutive samples in mA. -/
  | overcur (i : Fin 152) (t : Nat) (a b c : Nat)
  /-- `INRUSH_WINDOW_END` (R188): The inrush window ends after INRUSH_MS, extended by droop, and ILIM applies. -/
  | inrushWindowEnd (i : Fin 152) (t : Nat)
  /-- `GROUP_DROOP` (R189): Two consecutive comparisons below the threshold droop a group, which stops inrush clocks and suspends diagnostics. -/
  | groupDroop (g : Fin 8) (t : Nat)
  /-- `DROOP_RELEASE` (R189): The group rises above the threshold plus 1/32 and leaves the drooped state. -/
  | droopRelease (g : Fin 8) (t : Nat)
  /-- `THERMAL` (R192): T_J reaches 170 °C, and the channel is cut and enters THERMAL. The operand `tj` is the junction temperature in 1/16 °C. -/
  | thermal (i : Fin 152) (t : Nat) (tj : Int)
  /-- `THERMAL_RELEASE` (R192): With TL_AUTO 1, T_J falls below 150 °C and the thermal latch releases. -/
  | thermalRelease (i : Fin 152) (t : Nat) (tj : Int)
  /-- `RETRY_WAIT_END` (R194): The retry wait ends and a channel still commanded on turns on at the next latch. -/
  | retryWaitEnd (i : Fin 152) (t : Nat)
  /-- `RETRY_CNT_RESET` (R195): After 1 s of continuous commanded operation without a cut, RETRY_CNT returns to 0. -/
  | retryCntReset (i : Fin 152) (t : Nat)
  /-- `REVERSAL_BRAKE_END` (R181): After REV_GAP_MS in BR_BRAKE, a bridge that reverses drives the new direction. -/
  | reversalBrakeEnd (b : Fin 4) (t : Nat)
  /-- `UV_HOLD` (R201): A group below 3.0 V switches its channels off into UV_HOLD. -/
  | uvHold (g : Fin 8) (t : Nat)
  /-- `UV_RELEASE` (R202): A group above 3.3 V releases UV_HOLD, with a new inrush window. -/
  | uvRelease (g : Fin 8) (t : Nat)
  /-- `OPEN_ON` (R204): Current below OL_TH for 5 ms of accumulated on-time sets OPEN_ON. -/
  | openOn (i : Fin 152) (t : Nat) (mA : Nat)
  /-- `STUCK_OFF` (R204): A low output and low current for 100 µs while on sets STUCK_OFF. -/
  | stuckOff (i : Fin 152) (t : Nat) (mA : Nat)
  /-- `STUCK_ON` (R204): Current above OL_TH for 1 ms while off sets STUCK_ON. -/
  | stuckOn (i : Fin 152) (t : Nat) (mA : Nat)
  /-- `BRIDGE_STALL` (R204): No ripple for STALL × 100 µs puts the bridge in BR_BRAKE and sets STALL. -/
  | bridgeStall (b : Fin 4) (t : Nat)
  /-- `DEMAG_END` (R205): Demagnetisation of a turn-off ends, which starts the off windows and gives the closing signature. The operand is the energy of the clamp plateau in mJ when its end was found. -/
  | demagEnd (i : Fin 152) (t : Nat) (plateau : Option Nat)
  /-- `OFF_WINDOW` (R205): Each 200 µs off window applies the pull-down and the pull-up and checks OPEN_OFF and SHORT_BAT. The operands say whether the output stood above 3.5 V under the pull-down and under the pull-up. -/
  | offWindow (i : Fin 152) (t : Nat) (down up : Bool)
  /-- `RIPPLE` (R209): A commutation ripple on the even bridge member updates RIPPLE_POS and RIPPLE_PER. -/
  | ripple (b : Fin 4) (t : Nat)
  /-- `PULL_IN_DIP` (R210): The die finds the pull-in dip after an on latch and passes the opening signature to the scheduler. -/
  | pullInDip (i : Fin 136) (t : Nat)
  /-- `SIGNATURE_TIMEOUT` (R210): No signature found within 65,534 µs is reported as 0xFFFF. -/
  | signatureTimeout (i : Fin 136) (opening : Bool) (t : Nat)
  /-- `TL_HOLD` (R211): After TL_ON_MAX of continuous operation, or energy above TL_E_MAX, the channel enters TL_HOLD. The operand `energy` is the load energy of the trailing second in 0.01 J. -/
  | tlHold (i : Fin 152) (t : Nat) (energy : Nat)
  /-- `TL_HOLD_END` (R211): The hold ends after TL_OFF_MIN, or when energy falls below 7/8 of the cap, and the channel returns with a new window. -/
  | tlHoldEnd (i : Fin 152) (t : Nat) (energy : Nat)
  /-- `PAIR_GAP_END` (R212): A withheld member of an interlocked pair turns on once its partner has been off for TL_PAIR_GAP. -/
  | pairGapEnd (i : Fin 152) (t : Nat)
  /-- `LIMP_INPUT_CHANGE` (R252): A LIMPn level stable for 50 µs is accepted, and the channels that follow it switch. -/
  | limpInputChange (k : Fin 4) (n : Fin 8) (lvl : Bool) (t : Nat)
  /-- `LIMP_DIFF` (R260): Two dies disagree on a filtered LIMPn level for 1 ms and report source 243. -/
  | limpDiff (n : Fin 8) (t : Nat)
  /-- `CHAIN_EN` (R261): PCHN_CTL.CHAIN_EN set starts the channel chain. -/
  | chainEn
  /-- `LED_LATCH` (R255): An LED port sends its frame and latches every 32 µs, with the loop check of the returned stream. The operands are what returns at `LCPp_DI`: whether the header is intact, the return segments and their status codes. -/
  | ledLatch (p : Fin 2) (t : Nat) (hdrOk : Bool) (nret : Fin 17) (codes : List (Fin 4))
  /-- `LCP_EN` (R257): LCP_CTLp.EN with NDRV 1–16 starts the port in STARTING. -/
  | lcpEn (p : Fin 2)
  /-- `LCP_SUB_REQ` (R257): A committed LCP_SUBp.REQ starts the replacement of driver DRV. -/
  | lcpSubReq (p : Fin 2) (drv : Fin 16) (tmo : BitVec 8) (t : Nat)
  /-- `LCP_SUB_TIMEOUT` (R257): TMO_S elapsed without the return count recovering reports source 252 + p. -/
  | lcpSubTimeout (p : Fin 2) (t : Nat)
  /-- `PSCH_TICK` (R264): Every 100 µs, the scheduler samples inputs, advances the reference, the points and the events, and places events due. -/
  | pschTick (t : Nat)
  /-- `EVENT_FIRE` (R295): A placed event fires at its latch, changes the point's logical state, frees its slot and writes a fired record. -/
  | eventFire (t : Nat)
  /-- `WHEEL_EXCLUDE` (R269): A wheel is excluded for silence or slip, and an exclusion lasting 1 s reports source 257. -/
  | wheelExclude (w : Fin 4) (t : Nat)
  /-- `WHEEL_READMIT` (R269): An excluded wheel is readmitted after 1 s without either condition. -/
  | wheelReadmit (w : Fin 4) (t : Nat)
  /-- `WHEEL_STOP` (R267): A wheel's speed becomes 0 when STOP_MS passes after its last capture. -/
  | wheelStop (w : Fin 4) (t : Nat)
  /-- `YAW_LOST` (R275): No valid yaw frame within TMO_MS leaves SENSOR and reports source 259. -/
  | yawLost (t : Nat)
  /-- `ZERO_RATE_UPDATE` (R274): After ZRU × 100 ms of standstill, each yaw frame moves BIAS toward the unbiased rate. The operand `code` is the raw code of the yaw frame. -/
  | zeroRateUpdate (t : Nat) (code : Nat)
  /-- `LOC_DR` (R280): The age of the last correction reaches GNSS_TMO_MS; the state becomes DR and source 262 reports. -/
  | locDr (t : Nat)
  /-- `DELTA` (R277): A committed DELTA correction is checked and spread over SPREAD ticks. -/
  | delta (e n : Int) (h : Int) (u : Nat) (spread : BitVec 8) (force : Bool)
  /-- `SET` (R277): A committed SET correction replaces the position and heading, clears the history and sets U. -/
  | setCorr (e n : Int) (h : BitVec 16) (u : Nat)
  /-- `AP_POST` (R283): A write of PSCH_AP_POST marks an actuation point entry for checking and adoption at the next T0. -/
  | apPost (i : Fin 256)
  /-- `AP_CLR` (R283): PSCH_AP_CLR.FLT clears a point's sticky FLT word. -/
  | apClr (i : Fin 256)
  /-- `EVENT_POST` (R288): POST checks an event descriptor and writes it into a firmware slot. -/
  | eventPost (slot : Fin 4096) (w0 w1 w2 w3 : Word)
  /-- `EVENT_CANCEL` (R287): CANCEL frees a firmware event slot. -/
  | eventCancel (slot : Fin 4096)
  /-- `CANCEL_AP` (R287): CANCEL_AP frees every firmware slot of one point. -/
  | cancelAp (i : Fin 256)
  /-- `APPLY_WINDOW_ENTRY` (R302): Speed inside the window for DWELL × 10 ms raises APPLY_OK at the next latch. -/
  | applyWindowEntry (t : Nat)
  /-- `PSCH_EN` (R309): PSCH_CTL.EN set starts the ticks. -/
  | pschEn
  /-- `COVERAGE_CYCLE` (R314): Each ms, the engine runs edits, painting, loupe queries and automatic posts. The operand `us` is how long the cycle takes in µs. -/
  | coverageCycle (t : Nat) (us : Nat)
  /-- `CYCLE_OVR` (R315): A cycle not complete by t_m + 900 µs runs on and reports source 273. -/
  | cycleOvr (t : Nat)
  /-- `COV_EN` (R356): COV_CTL.EN set takes the engine from OFF to IDLE. -/
  | covEn
  /-- `FIELD_OPEN` (R353): OPEN opens or creates a field and enters OPENING. -/
  | fieldOpen (id : BitVec 16)
  /-- `DIRECTORY_READ` (R356): The directory scan completes, and the engine becomes ACTIVE or SUSPENDED. -/
  | directoryRead (t : Nat)
  /-- `FIELD_CLOSE` (R353): CLOSE writes every dirty tile and enters FLUSHING. -/
  | fieldClose (t : Nat)
  /-- `FIELD_FLUSH` (R353): FLUSH writes every dirty tile without a state change. -/
  | fieldFlush (t : Nat)
  /-- `FIELD_ERASE` (R353): ERASE marks every tile of a field and its field record deleted. -/
  | fieldErase (id : BitVec 16)
  /-- `FLUSH_COMPLETE` (R354): A flush completes, and FLUSHING becomes IDLE. -/
  | flushComplete (t : Nat)
  /-- `FLUSH_LATE` (R354): A flush running past its bound reports source 281. -/
  | flushLate (t : Nat)
  /-- `FILL` (R339): FILL sets a rectangle of one layer, up to 65,536 cells per cycle. -/
  | fill (layer : BitVec 2) (value : BitVec 8)
  /-- `INSTALL` (R340): INSTALL copies a tile image from shared SRAM into one tile. -/
  | install (layer : BitVec 2)
  /-- `WRITE_BACK` (R351): A dirty tile is copied out, written to free blocks and recorded in the directory. The operand `fail` says whether programming the flash fails. -/
  | writeBackTile (e : Fin 1024) (t : Nat) (fail : Bool)
  /-- `TMR_POST` (R363): A write of TMR_POST marks a timer channel entry for checking and adoption at the next T0. -/
  | tmrPost (c : Fin 32)
  /-- `TMR_CLR_CNT` (R378): TMR_CLR.CNT sets the counter to 0 in place of its next increment. -/
  | tmrClrCnt (c : Fin 32) (t : Nat)
  /-- `TMR_CLR_FLAGS` (R386): TMR_CLR.FLAGS clears FLAGS [4:1] and both counts. -/
  | tmrClrFlags (c : Fin 32)
  /-- `TIMER_TICK` (R365): A channel's tick advances its counter, with rollover and compare match. -/
  | timerTick (c : Fin 32) (t : Nat)
  /-- `FILTERED_EDGE` (R367): The FILT_N-th sample at the opposite level changes the filtered level; a prescaled edge captures or counts. The operands are the new filtered level and the synchronised levels of `CAPT11`–`CAPT0`. -/
  | filteredEdge (c : Fin 32) (t : Nat) (lvl : Bool) (pins : BitVec 12)
  /-- `CAP_LO_READ` (R371): A read of TMR_CAP_LO freezes V. -/
  | capLoRead (c : Fin 32) (t : Nat)
  /-- `CAP_HI_READ` (R371): A read of TMR_CAP_HI ends the freeze, clears NEW and moves B to V. -/
  | capHiRead (c : Fin 32) (t : Nat)
  /-- `SWIN_SCAN` (R381): Every PER_MS, the scanner wets, samples and debounces each enabled switch input. The operands say which switches are closed at 80 µs and which inputs oppose their pull by more than the threshold. -/
  | swinScan (t : Nat) (closed oppose : BitVec 32)
  /-- `ADC_TRIGGER` (R383): A PERIODIC, TIMER or T0 trigger starts a scan, or is skipped during a scan. -/
  | adcTrigger (t : Nat)
  /-- `ADC_SCAN_COMPLETE` (R383): A scan and its reference conversion complete and the reference is checked. The operands are the codes of `AIN0`, `AIN1`, … and whether the reference reads within 2 %. -/
  | adcScanComplete (t : Nat) (codes : List (BitVec 12)) (refOk : Bool)
  /-- `FLD_EN` (R389): FLD_CTL.EN powers the barrier and runs the field link. -/
  | fldEn
  /-- `BARRIER_POWER_UP` (R410): Barrier power rises and FLD starts in STARTUP with its outputs off. -/
  | barrierPowerUp (t : Nat)
  /-- `DOWNLINK_FRAME` (R391): FLD takes a valid downlink frame: time, output bits, parameter or image block, and a timeout restart. The operands say whether it is a configuration frame and whether FLD finds it valid. -/
  | downlinkFrame (t : Nat) (cfg ok : Bool)
  /-- `UPLINK_FRAME` (R390): The logic die takes an uplink frame with input levels, applied bits, stamps and measurements. The operands are whether its CRC holds, whether the header returns, and the rotating measurement: output, mA, junction temperature in 1/16 °C, `VFIELD` in 10 mV. -/
  | uplinkFrame (t : Nat) (ok hdrOk : Bool) (n : Fin 16) (mA : Nat) (tj : Int) (v : Nat)
  /-- `FIELD_LATCH` (R390): Every 20 µs, FLD applies the governed output bits and any parameter block that names this latch. The operand names the outputs whose parameter blocks take effect at this latch. -/
  | fieldLatch (t : Nat) (take : BitVec 16)
  /-- `FLD_ARMING` (R410): Image, Touchline and safe-state table are received with valid CRCs, and FLD enters NORMAL. The operand says whether image and tables came with valid CRCs. -/
  | fldArming (t : Nat) (ok : Bool)
  /-- `FLD_TMO` (R411): Link silence above TIMEOUT_MS in NORMAL puts the outputs in their safe state. -/
  | fldTmo (t : Nat)
  /-- `MODE_MAX` (R410): MODE_MAX_MS elapses in RECOVERY or TEST, with safe state or a return to NORMAL. -/
  | modeMax (t : Nat)
  /-- `FLD_RESUME` (R413): FLD_CTL.RESUME returns the outputs from their safe state when 64 valid frames have been received. -/
  | fldResume
  /-- `TEST_REQ` (R410): FLD_CTL.TEST_REQ in NORMAL enters TEST. -/
  | testReq (sel : BitVec 2) (t : Nat)
  /-- `TEST_COMPLETE` (R414): The input or output test completes and FLD returns to NORMAL. The operands are the results: inputs that did not read their opposite level, outputs that did not fall below 3 V, off outputs found open or shorted. -/
  | testComplete (t : Nat) (inFail notOff openOff shortBat : BitVec 16)
  /-- `FIELD_INPUT_SAMPLE` (R404): FLD samples every enabled input, filters it and stamps its changes. The operand is the raw levels. -/
  | fieldInputSample (t : Nat) (raw : BitVec 16)
  /-- `VFIELD_UNDERVOLTAGE` (R398): VFIELD below 15 V puts the field outputs in UV_HOLD. -/
  | vfieldUndervoltage (t : Nat)
  /-- `VFIELD_RELEASE` (R398): VFIELD above 16 V releases UV_HOLD with new inrush windows. -/
  | vfieldRelease (t : Nat)
  /-- `INIT_CLEAR` (R421): Clearing CAN_CTL.INIT checks the timing and enters INTEGRATING, or sets CFG_ERR. -/
  | initClear (n : Fin 13)
  /-- `INIT_SET` (R423): Setting INIT takes the controller to INIT at the next bus idle. -/
  | initSet (n : Fin 13)
  /-- `ROM_SET` (R427): Setting ROM enters restricted operation from the next bus idle. -/
  | romSet (n : Fin 13)
  /-- `ROM_CLEAR` (R423): Clearing ROM returns the controller to INTEGRATING. -/
  | romClear (n : Fin 13)
  /-- `RECOVER` (R424): RECOVER in BUS_OFF starts the bus-off recovery. -/
  | recover (n : Fin 13)
  /-- `INTEGRATION_COMPLETE` (R423): 11 consecutive recessive bits take the controller to ACTIVE. -/
  | integrationComplete (n : Fin 13) (t : Nat)
  /-- `RECOVERY_COMPLETE` (R423): 128 sequences of 11 recessive bits return the controller to ACTIVE with TEC and REC 0. -/
  | recoveryComplete (n : Fin 13) (t : Nat)
  /-- `FRAME_RECEIVE` (R429): A valid frame is filtered and stored in a receive buffer ring, with the reference, rally and keeper checks. -/
  | frameReceive (n : Fin 13) (t : Nat) (f : BusFrame)
  /-- `TRANSMIT_START` (R442): At an opportunity, the controller offers one frame by priority, subject to the Touchline and SAFE holds. -/
  | transmitStart (n : Fin 13) (t : Nat)
  /-- `FRAME_SENT` (R445): A frame leaves its queue and writes a transmit event record. -/
  | frameSent (n : Fin 13) (t : Nat) (tdcv : BitVec 7)
  /-- `ARBITRATION_LOST` (R442): A frame that loses arbitration returns to its place, or a ONESHOT frame is dropped. -/
  | arbitrationLost (n : Fin 13) (t : Nat) (toRef : Bool)
  /-- `BUS_ERROR` (R423): A detected bus error updates TEC and REC, with transitions to PASSIVE or BUS_OFF. The operands say whether this controller transmits, the code as in `LEC`, and what ISO 11898-1 counts: 0 nothing, 1 one, 2 eight (a transmitter: eight). -/
  | busError (n : Fin 13) (t : Nat) (tx : Bool) (code : Fin 7) (dataPhase : Bool) (weight : Fin 3)
  /-- `PUSH` (R440): PUSH checks the staged frame and appends it to the FIFO. -/
  | push (n : Fin 13)
  /-- `URGENT` (R441): URGENT places the staged frame in the urgent slot, replacing one not yet started. -/
  | urgent (n : Fin 13)
  /-- `FIFO_FLUSH` (R444): FLUSH discards every FIFO entry not in transmission. -/
  | fifoFlush (n : Fin 13)
  /-- `URG_ABORT` (R444): URG_ABORT discards the urgent slot if it is not in transmission. -/
  | urgAbort (n : Fin 13)
  /-- `MB_POST` (R432): A write of CAN_MB_POST marks a receive buffer entry for checking and adoption at the next T0. -/
  | mbPost (n : Fin 13) (b : Fin 128)
  /-- `RX_ACK` (R434): A write of CAN_RX_ACK frees a buffer and clears NEW. -/
  | rxAck (n : Fin 13) (b : Fin 128)
  /-- `REFERENCE_SLOT` (R450): A time master places its reference message at each multiple of P. -/
  | referenceSlot (n : Fin 13) (t : Nat)
  /-- `REF_MISS` (R450): No reference for 1.5 P sets REF_MISS, and a potential master becomes MASTER. -/
  | refMiss (n : Fin 13) (t : Nat)
  /-- `TXD_DOMINANT_TIMEOUT` (R456): A transceiver TXD dominant for 2.5 ms reports the controller's hardware source. -/
  | txdDominantTimeout (n : Fin 13) (t : Nat)
  /-- `NM_EN` (R461): NM_CTL.EN set or cleared moves the network between OFF and BUS_SLEEP. -/
  | nmEn (n : Fin 13) (en : Bool) (t : Nat)
  /-- `NM_REQ` (R461): A write of the local request REQ drives the network toward NETWORK or release. -/
  | nmReq (n : Fin 13) (req : Bool) (t : Nat)
  /-- `RALLY_TIMER` (R462): In NETWORK, a rally is appended to the FIFO every RALLY_MS. -/
  | rallyTimer (n : Fin 13) (t : Nat)
  /-- `NETWORK_TIMER_EXPIRY` (R461): The network timer expires in READY_SLEEP and the network enters PREPARE_SLEEP. -/
  | networkTimerExpiry (n : Fin 13) (t : Nat)
  /-- `PREPARE_SLEEP_EXPIRY` (R465): WAIT_MS in PREPARE_SLEEP elapses; the transceiver arms bus-wake detection. -/
  | prepareSleepExpiry (n : Fin 13) (t : Nat)
  /-- `BUS_LEAVE` (R465): At the next bus idle the controller leaves the bus, discards its queues and enters BUS_SLEEP. -/
  | busLeave (n : Fin 13) (t : Nat)
  /-- `BUS_WAKE` (R468): A wake-up pattern, a wake-up frame or the frame error counter wakes a sleeping network. -/
  | busWake (n : Fin 13) (k : WakeKind) (t : Nat)
  /-- `WAKE_UP_FRAME` (R469): The selective-wake decoder decodes a frame and matches it as a wake-up frame. The operands say whether the frame was decoded without error, and the frame. -/
  | wakeUpFrame (n : Fin 6) (t : Nat) (ok : Bool) (f : BusFrame)
  /-- `FALSE_WAKE` (R470): FW_TMO_MS after a bus wake without a rally or request, the wake counts as false. -/
  | falseWake (n : Fin 13) (t : Nat)
  /-- `LIN_SLOT` (R475): A commander starts each schedule slot, with a break and frame, sleep or restart. -/
  | linSlot (m : Fin 6) (t : Nat)
  /-- `LIN_FRAME` (R476): A LIN frame completes and the device writes its descriptor data and result. -/
  | linFrame (m : Fin 6) (t : Nat) (result : Fin 8) (data : List Byte)
  /-- `LIN_BREAK` (R477): A responder accepts a break, measures the sync field and serves the frame. -/
  | linBreak (m : Fin 6) (t : Nat) (dominant rate : Nat) (id : BitVec 6) (parity : Bool)
  /-- `LIN_INACTIVITY` (R478): 4 s of bus inactivity puts the LIN controller in SLEEP. -/
  | linInactivity (m : Fin 6) (t : Nat)
  /-- `LIN_WAKE` (R478): LIN_CTL.WAKE sends a 250 µs dominant wake pulse. -/
  | linWake (m : Fin 6) (t : Nat)
  /-- `WAKE_RX` (R478): A dominant level of at least 150 µs on a sleeping bus sets WAKE_RX. -/
  | wakeRx (m : Fin 6) (t dur : Nat)
  /-- `ETH_TX_PUSH` (R480): A write starts transmission of the descriptors the device holds. -/
  | ethTxPush (e : Fin 2)
  /-- `ETH_FRAME_RECEIVE` (R480): A received frame is filtered, timestamped and written to the next receive descriptor. -/
  | ethFrameReceive (e : Fin 2) (t ts : Nat) (bytes : List Byte)
  /-- `ETH_FRAME_SENT` (R482): A frame is sent and its descriptor written with its timestamp. -/
  | ethFrameSent (e : Fin 2) (t ts : Nat)
  /-- `ETH_LINK_LOST` (R493): The link is lost in RUN and reports the port's source. -/
  | ethLinkLost (e : Fin 2) (t : Nat)
  /-- `SENT_FRAME` (R485): A SENT frame is checked and its fast data and timestamp replaced. The operands are the calibration pulse in 10 ns, the status and data nibbles in measured ticks, whether the CRC holds, and a serial message that this frame completes. -/
  | sentFrame (r : Fin 10) (t edge cal : Nat) (nibs : List Nat) (crc : Bool) (ser : Option SentSerial)
  /-- `SENT_SILENCE` (R493): No valid frame for 100 ms while enabled reports the receiver's source. -/
  | sentSilence (r : Fin 10) (t : Nat)
  /-- `UART_RX_BYTE` (R489): A received byte enters the receive FIFO or sets RX_OVF. -/
  | uartRxByte (u : Fin 4) (t : Nat) (b : Byte) (pe fe : Bool)
  /-- `UART_RXD` (R489): A read of UART_RXD consumes one byte. -/
  | uartRxd (u : Fin 4)
  /-- `UART_TXD` (R489): A write of UART_TXD queues 1 to 3 bytes or sets TX_OVF. -/
  | uartTxd (u : Fin 4) (n : Fin 4) (b : BitVec 24) (t : Nat)
  /-- `UART_IDLE` (R490): IDLE_BITS bit times without a start bit latch UART_IDLE_TS. -/
  | uartIdle (u : Fin 4) (t : Nat)
  /-- `UART_PPS` (R490): A rising edge of the named CAPTn latches UART_PPS_TS. -/
  | uartPps (u : Fin 4) (t : Nat)
  /-- `TOUCH` (R509): A confirmation burst confirms a touch on an electrode, which triggers an exchange or a wake. The operand is the four samples of the confirmation burst above the baseline, in 0.1 pF. -/
  | touch (e : Fin 4) (t : Nat) (over' : List Nat)
  /-- `GO` (R510): A committed ACC_REQ.GO requests an exchange for a zone. -/
  | go (zone : Fin 4) (t : Nat)
  /-- `REPLY_SLOT_END` (R503): A reply slot ends and ACC classes it SILENT, CRC-valid or COLLISION. -/
  | replySlotEnd (t : Nat) (c : SlotClass)
  /-- `KEEPER_VERDICT` (R505): The keeper returns VALID or WRONG, and the exchange settles its outcome and IMMO_OK. -/
  | keeperVerdict (t : Nat)
  /-- `KEEPER_TMO` (R503): A verdict later than 2 ms ends the exchange with KEEPER_TMO. -/
  | keeperTmo (t : Nat)
  /-- `LOCKOUT_END` (R514): The lockout time elapses and the access state returns to IDLE. -/
  | lockoutEnd (t : Nat)
  /-- `LOCKOUT_SAVE` (R515): The keeper writes the remaining lockout time to MRAM once per second. -/
  | lockoutSave (t : Nat)
  /-- `AUTH_HOLD_EXPIRY` (R513): AUTH_HOLD_MS elapses and AUTHENTICATED becomes IDLE. -/
  | authHoldExpiry (t : Nat)
  /-- `IMMO_HOLD_EXPIRY` (R517): IGN_OK low for IMMO_HOLD_MS lowers IMMO_OK. -/
  | immoHoldExpiry (t : Nat)
  /-- `REVOKE` (R517): ACC_CTL.REVOKE lowers IMMO_OK. -/
  | revoke
  /-- `TOUCH_SUSPEND_END` (R512): The electrode's suspension time ends. -/
  | touchSuspendEnd (e : Fin 4) (t : Nat)
  /-- `ACC_EN` (R523): ACC_CTL.EN set runs ACC. -/
  | accEn
  /-- `QUIET_EXPIRY` (R531): A source without a report for its quiet period returns to CLEAR and its reaction is withdrawn. -/
  | quietExpiry (n : Fin 512) (t : Nat)
  /-- `REC_CNT_FORGET` (R532): FORGET_MIN minutes without a report return REC_CNT to 0. -/
  | recCntForget (n : Fin 512) (t : Nat)
  /-- `SAFE_REQ` (R537): UMP_CTL.SAFE_REQ enters SAFE. -/
  | safeReq
  /-- `UMP_RST` (R538): UMP_RST with KEY 0x5A and GO 1 in SAFE resets the logic die. -/
  | umpRst (key : BitVec 8) (go : Bool) (t : Nat) (plan : BootPlan)
  /-- `UMP_FORCE` (R540): A force bit raises one report of its source. -/
  | umpForce (n : Fin 512)
  /-- `FLOOR` (R536): A write of UMP_CTL.FLOOR sets the lowest degradation level from the next T0. -/
  | floorLevel (v : BitVec 2)
  /-- `SELF_PROTECTION_TRIP` (R541): A copy difference, parity error or clock loss latches SAFE_N low through the direct path. The operand `clock` says whether a clock still runs. -/
  | selfProtectionTrip (clock : Bool)
  /-- `GET_IDENTITY` (R553): The mailbox command returns the identity public key and machine ID. -/
  | getIdentity (t : Nat)
  /-- `GET_RANDOM` (R553): The mailbox command returns count bytes from the TRNG. -/
  | getRandom (t : Nat) (count : BitVec 32)
  /-- `TOKEN_ENROL` (R554): A signed enrolment record enrols a token at an index through ACC. -/
  | tokenEnrol (t : Nat) (idx zone : BitVec 8) (token epoch count : BitVec 32) (sig : Bool)
  /-- `TOKEN_REVOKE` (R554): A signed revocation record frees an enrolled index. -/
  | tokenRevoke (t : Nat) (idx : BitVec 8) (token epoch : BitVec 32) (sig : Bool)
  /-- `CONFIRM` (R579): Mailbox CONFIRM in PROBATION raises the floors, empties staging and sets the phase to NONE. -/
  | confirm (t : Nat)
  /-- `ABANDON` (R576): ABANDON ends a download or verified container, or starts a rollback from PROBATION. -/
  | abandon (t : Nat)
  /-- `MAILBOX_COMPLETE` (R552): The keeper completes a mailbox command, writes the response, clears BUSY and raises interrupt bit 2. The operands are the token's answer to the challenge of an enrolment: whether it is VALID, and its RSSI codes. -/
  | mailboxComplete (t : Nat) (valid : Bool) (codes : BitVec 48)
  /-- `HELLO` (R574): HELLO opens a service session and returns identity, state and a fresh nonce. -/
  | hello (tool : Fin 128) (seq : BitVec 8) (t : Nat)
  /-- `ATTEST` (R586): ATTEST returns a signed attestation report. -/
  | attest (tool : Fin 128) (seq : BitVec 8) (t : Nat) (nonce : BitVec 128)
  /-- `SERVICE_GET_IDENTITY` (R573): The service port request returns the public key and machine ID. -/
  | serviceGetIdentity (tool : Fin 128) (seq : BitVec 8) (t : Nat)
  /-- `ENROL_OWNER` (R559): ENROL_OWNER enrols the owner key while the device is UNOWNED. -/
  | enrolOwner (tool : Fin 128) (seq : BitVec 8) (t : Nat) (key : BitVec 512) (sig : Bool)
  /-- `TRANSFER` (R560): TRANSFER replaces the owner key with the next epoch. -/
  | transfer (tool : Fin 128) (seq : BitVec 8) (t : Nat) (key : BitVec 512) (epoch : BitVec 32) (sigOld sigNew : Bool)
  /-- `DL_START` (R576): DL_START enters DOWNLOAD for a container of the given length. -/
  | dlStart (tool : Fin 128) (seq : BitVec 8) (t : Nat) (len : BitVec 32)
  /-- `DL_DATA` (R575): DL_DATA writes 56 bytes at the expected offset, with acknowledgement every 16 frames. -/
  | dlData (tool : Fin 128) (seq : BitVec 8) (t : Nat) (off : BitVec 32) (data : List Byte)
  /-- `VERIFY` (R572): VERIFY starts the verification of the downloaded container. -/
  | verify (tool : Fin 128) (seq : BitVec 8) (t : Nat)
  /-- `VERIFY_COMPLETE` (R576): Verification ends, with VERIFIED or a return to NONE and source 433. The operands say whether a slot verifies under the owner key, whether every digest matches, and whether a TLINE section passes R567. -/
  | verifyComplete (t : Nat) (sig digests tlSet : Bool)
  /-- `ACTIVATE` (R577): ACTIVATE with IGN_OK low records ACTIVATING forward, replies and schedules a reset. -/
  | activate (tool : Fin 128) (seq : BitVec 8) (t : Nat)
  /-- `ROLLBACK` (R577): ROLLBACK in PROBATION with IGN_OK low records ACTIVATING reverse and schedules a reset. -/
  | rollback (tool : Fin 128) (seq : BitVec 8) (t : Nat)
  /-- `SERVICE_CONFIRM` (R579): The service port CONFIRM ends probation as the mailbox CONFIRM does. -/
  | serviceConfirm (tool : Fin 128) (seq : BitVec 8) (t : Nat)
  /-- `KEEPER_RESET` (R577): 10 ms after ACTIVATE or ROLLBACK, the keeper resets the logic die. -/
  | keeperReset (t : Nat) (plan : BootPlan)
  /-- `DBG_NONCE` (R584): DBG_NONCE returns an 8-byte nonce for a debug token. -/
  | dbgNonce (tool : Fin 128) (seq : BitVec 8) (t : Nat)
  /-- `DBG_TOKEN` (R584): DBG_TOKEN presents a signed debug token, which is accepted or refused. -/
  | dbgToken (tool : Fin 128) (seq : BitVec 8) (t : Nat) (tok : DebugToken)
  /-- `TOKEN` (R584): The debug port TOKEN instruction presents a debug token. -/
  | portToken (t : Nat) (tok : DebugToken)
  /-- `TOKEN_END` (R585): The token lifetime ends; breakpoints disarm, cores resume and the mode returns to OFF. -/
  | tokenEnd (t : Nat)
  /-- `SESSION_TIMEOUT` (R574): 10 s without a request closes the service session. -/
  | sessionTimeout (t : Nat)
  /-- `TRNG_FAILURE` (R550): A health-test failure stops TRNG output until 1,024 samples pass. -/
  | trngFailure (t : Nat)
  /-- `ENTROPY` (R550): A command waiting 50 ms for random data ends with result ENTROPY. -/
  | entropy (t : Nat)
  /-- `SUBMIT` (R591): SUBMIT accepts, refuses or reports as duplicate a work item by its sequence number. -/
  | submit (t : Nat)
  /-- `CLAIM` (R593): CLAIM moves an ACCEPTED item to CLAIMED by the committing task. -/
  | claim (i : BitVec 16) (task : BitVec 8) (t : Nat)
  /-- `DONE` (R593): DONE gives a CLAIMED item its one terminal outcome and result. -/
  | done (i : BitVec 16) (outcome : BitVec 4) (task : BitVec 8) (t : Nat)
  /-- `JOURNAL_CANCEL` (R593): CANCEL makes an ACCEPTED item DONE with outcome CANCELLED. -/
  | journalCancel (i : BitVec 16) (t : Nat)
  /-- `RPT_ACK` (R595): RPT_ACK acknowledges the next report in order and frees its entry. -/
  | rptAck (q : Fin 64) (t : Nat)
  /-- `REPLAY` (R595): REPLAY rewrites in order the OUTCOME records of unacknowledged DONE items of a source. -/
  | replay (q : Fin 64) (t : Nat)
  /-- `JOURNAL_DURABLE` (R592): An operation's changes become durable in MRAM and its event record is written. -/
  | journalDurable (t : Nat)
  /-- `CLAIM_HOLD_EXPIRY` (R596): A claimant that has not committed for HOLD_MS loses its claim, which reverts with ATTEMPTS + 1. -/
  | claimHoldExpiry (task : Fin 64) (t : Nat)
  /-- `TTL_EXPIRY` (R597): An ACCEPTED item whose TTL_S has elapsed becomes DONE with outcome EXPIRED. -/
  | ttlExpiry (i : BitVec 16) (t : Nat)
  /-- `JOURNAL_RECOVERY_COMPLETE` (R598): Recovery completes, claims revert, outcomes are re-reported and READY is set. The operand lists the entries whose CRC fails. -/
  | journalRecoveryComplete (t : Nat) (bad : List Nat)
  /-- `SCRUB_FLASH` (R601): The arbiter scrubs a flash sector once per SCRUB_H pass. The operands are the bits corrected per block, and whether a word was uncorrectable. -/
  | scrubFlash (u : Fin 1024) (t : Nat) (step : ActStep) (corr : List (Nat × Nat)) (bad : Bool)
  /-- `SCRUB_SRAM` (R601): The arbiter scrubs an SRAM bank each SRAM_S seconds, 8 KB per slice. The operand says whether a word was uncorrectable. -/
  | scrubSram (u : Fin 384) (t : Nat) (step : ActStep) (bad : Bool)
  /-- `ERASE` (R601): The arbiter erases a freed field store or log block. -/
  | eraseBlock (u : Fin 7680) (t : Nat) (step : ActStep)
  /-- `WEAR_RELOC` (R601): The arbiter relocates a block after 4 corrected bits. -/
  | wearReloc (u : Fin 7680) (t : Nat) (step : ActStep)
  /-- `PAGE` (R345): A tile page-in requested by the coverage engine completes and the deferred log is applied. -/
  | page (layer : Fin 3) (tx ty : BitVec 8) (t : Nat) (step : ActStep)
  /-- `LOG_COPY` (R545): The arbiter copies uncopied Umpire records into flash. -/
  | logCopy (t : Nat) (step : ActStep)
  /-- `TELEMETRY` (R601): The arbiter writes 4 KB of telemetry from MNT_TEL_SRC. -/
  | telemetry (t : Nat) (step : ActStep)
  /-- `CAL_ON` (R601): The arbiter measures and trims a channel's sense path against the die's reference. The operands are how far the reading is off in 0.1 %, and the gain the trim aims at. -/
  | calOn (i : Fin 152) (t : Nat) (step : ActStep) (off : Nat) (gain : BitVec 16)
  /-- `DIAG_OFF` (R601): The arbiter runs a channel's off-state diagnostic in the next off window. -/
  | diagOff (i : Fin 152) (t : Nat) (step : ActStep) (down up : Bool)
  /-- `CORE_TEST` (R608): A core self-test runs; a pass returns its tasks, and a failure reports 450 + n. -/
  | coreTest (c : Fin 4) (t : Nat) (step : ActStep)
  /-- `MNT_CANCEL` (R618): MNT_REQ CANCEL removes a queued or deferred activity slot. -/
  | mntCancel (slot : Fin 64) (t : Nat)
  /-- `ACTIVITY_EXPIRED` (R601): An activity not started within WAIT_S becomes EXPIRED and reports source 447. -/
  | activityExpired (slot : Fin 64) (t : Nat)
  /-- `SUB_SEQ` (R610): SUB_CMD SEQ loads the running SEQ into a die's inactive bank and swaps it at a T0 latch. -/
  | subSeq (k : Fin 4) (t : Nat)
  /-- `SUB_TL` (R611): SUB_CMD TOUCHLINE loads a verified Touchline set into the dies and swaps it at one T0. -/
  | subTl (t : Nat)
  /-- `SUB_CAL` (R611): SUB_CMD CAL loads a verified calibration set into the inactive bank. -/
  | subCal (t : Nat)
  /-- `SEG_MAP` (R613): SEG_MAP copies a flash segment into an SRAM bank and maps it from the next T0. -/
  | segMap (w : Fin 16) (t : Nat)
  /-- `SEG_UNMAP` (R613): SEG_UNMAP returns a mapped range to flash at a T0. -/
  | segUnmap (w : Fin 16) (t : Nat)
  /-- `CORE_OUT` (R609): CORE_OUT takes a core out of service, with its tasks placed, or is refused. -/
  | coreOutCmd (c : Fin 4) (t : Nat)
  /-- `CORE_IN` (R608): CORE_IN runs CORE_TEST and returns the core to service. -/
  | coreIn (c : Fin 4) (t : Nat)
  /-- `RETURN` (R628): PRISM_CTL.RETURN with PLL_Q 1 switches the domains back from HFRC to the PLL. -/
  | prismReturn (t : Nat)
  /-- `CLOCK_MONITOR_TRIP` (R632): A clock monitor trips; the domains are isolated, the dies go to Backstop, and the domains restart on HFRC or wait. The operand `m` names the monitor (R630); `switching` is a switch that did not complete (source 10). -/
  | clockMonitorTrip (m : ClockMon) (t : Nat)
  /-- `SOURCE_QUALIFIED` (R631): A clock source qualifies; HFRC qualifying ends a wait of R633. -/
  | sourceQualified (c : ClockSrc) (t : Nat)
  /-- `LFCAL_MEASURE` (R640): Every 256 LFRC cycles, the Prism writes TBASE_LFCAL. The operand `cal` is the measured increment in 1/65536. -/
  | lfcalMeasure (t : Nat) (cal : BitVec 32)
  /-- `CLOCK_REREPORT` (R644): A clock source whose cause persists reports again every 100 ms. -/
  | clockRereport (n : Fin 16) (t : Nat)
  /-- `PRISM_GATE` (R629): A write of PRISM_GATE stops or restarts the clock of a CAN controller or Ethernet port. The operand `v` is the value of bits 14–0 written. -/
  | prismGate (v : BitVec 15)
  /-- `IDLE_REQUEST` (R661): PWR_REQ TARGET IDLE requests IDLE, or is refused. -/
  | idleRequest (t : Nat)
  /-- `SLEEP_REQUEST` (R661): PWR_REQ TARGET SLEEP starts an entry in WAIT, or is refused or made pending. -/
  | sleepRequest (t : Nat)
  /-- `DEEP_REQUEST` (R661): PWR_REQ TARGET DEEP starts an entry in WAIT, or is refused or made pending. -/
  | deepRequest (t : Nat)
  /-- `OFF_REQUEST` (R661): PWR_REQ TARGET OFF starts an entry in WAIT, or is refused or made pending. -/
  | offRequest (t : Nat)
  /-- `ENTRY_TMO` (R664): WAIT longer than TMO_S abandons the entry and reports source 22. -/
  | entryTmo (t : Nat)
  /-- `TARGET_STATE_REACHED` (R667): The target state is reached, and every enabled level and latch is evaluated for an immediate return. The operand `plan` is the start that a return from DEEP or OFF runs. -/
  | targetStateReached (t : Nat) (plan : BootPlan)
  /-- `WAKE` (R666): A wake source reaches the power controller: it aborts an entry or returns the device from its state. -/
  | wake (src : WakeSrc) (t : Nat) (plan : BootPlan)
  /-- `WAKE_INPUT` (R659): The filtered WAKE ball presents a level or sets an edge latch. The operand is the level of the ball after its filter. -/
  | wakeInput (level : Bool) (t : Nat)
  /-- `ALARM` (R658): The time base reaches PWR_ALARM. -/
  | alarm (t : Nat) (plan : BootPlan)
  /-- `IDLE_FRAMES` (R660): PWR_IDLE.FRAMES frames after the IDLE entry end IDLE. -/
  | idleFrames (t : Nat)
  /-- `PWR_WAKE_SRC_READ` (R659): A read of PWR_WAKE_SRC in RUN clears a WAKE edge latch. -/
  | pwrWakeSrcRead
  /-- `MACH_REQ` (R655): A write of PWR_MACH.REQ sets the machine state, or is ignored. -/
  | machReq (v : BitVec 2)
  /-- `UNDEF` (R135): The core fetches a word with an unlisted opcode, func or non-zero reserved field and raises UNDEF. The operand is the word at the program counter. -/
  | undef (core : Fin 4) (w : Word)
  /-- `FRAME_LOCK_OFS_WRITE` (R58): A write to FRAME_LOCK_OFS moves a LOCKED tick back to ACQUIRING. -/
  | frameLockOfsWrite (v : Word)
  /-- `MNT_REQUEST` (R602): MNT_REQ REQUEST from firmware takes a slot, is merged with a queued duplicate, deferred, or refused with REJ. -/
  | mntRequest (kind : Fin 16) (unit : BitVec 20) (t : Nat)
  /-- `LO_REGISTER_READ` (R646): A read of a _LO register freezes its _HI register until the _HI register is read. -/
  | loRegisterRead (a : Nat) (t : Nat)
  /-- `DEBUG_PORT_INSTRUCTION` (R585): A BYPASS, IDCODE, EXTEST, INTEST or SAMPLE instruction on the debug port acts or is refused by token and service mode. The operand: 0 BYPASS, 1 IDCODE, 2 EXTEST, 3 INTEST, 4 SAMPLE. -/
  | debugPortInstruction (ins : Fin 5)
  /-- `PARITY_ERROR` (R161): A parity or ECC error arises of itself in the state of a core, comparator, pulse engine, scheduler, coverage engine, timer unit, controller, keeper, journal, crossing register or time-base copy, and its source reports. -/
  | parityError (u : ParityUnit) (t : Nat)
  /-- `LOGIC_HOT` (R673): The logic die reaches 140 °C and reports source 24 with DEGRADE1. The operand `c16` is the logic die's temperature in 1/16 °C. -/
  | logicHot (c16 : Int) (t : Nat)
  /-- `LOGIC_TSD` (R673): The logic die reaches 150 °C and reports source 25, which enters SAFE. -/
  | logicTsd (c16 : Int) (t : Nat)
  /-- `REG_FAULT` (R673): An on-package regulator goes out of range and reports source 21 with LIMP. -/
  | regFault (t : Nat)
  /-- `PKG_LOAD` (R673): Output currents exceed 150 A over 1 s, or the estimated dissipation exceeds 32 W over 10 s, and source 26 reports. The operands are the sum of output currents over 1 s in mA and the dissipation over 10 s in mW. -/
  | pkgLoad (mA mW t : Nat)
  /-- `DIE_HEALTH` (R230): A switch die finds its hottest sensor at or above 160 °C, a mean group current above 24 A over 1 s, a group above 38 V, which suspends diagnostics, or a sequencer self-check failure, and source 233 + 2k reports. -/
  | dieHealth (k : Fin 4) (t : Nat) (cond : DieCond)
  /-- `VFIELD_OV` (R417): VFIELD rises above 36 V and source 324 reports. -/
  | vfieldOv (t : Nat)
  /-- `BARRIER_SUPPLY_FAULT` (R417): FLD's logic supply across the barrier goes out of range, and source 325 fences FLD. -/
  | barrierSupplyFault (t : Nat)
  /-- `FLD_HEALTH` (R417): FLD reaches 160 °C or fails a self-check, and source 326 reports. -/
  | fldHealth (t : Nat) (cond : FldCond)
  /-- `ACC_HEALTH` (R522): ACC reaches 150 °C and source 411 reports. -/
  | accHealth (c : Int) (t : Nat)
  /-- `ACC_LINK` (R522): An ACC self-check or link error reports source 410, which fences ACC. -/
  | accLink (t : Nat)
  /-- `LF_DRV` (R522): An LF aerial is found open, shorted or above 1.5 A peak, and source 412 reports. -/
  | lfDrv (i : Fin 6) (bad : Bool) (mA : Nat) (t : Nat)
  /-- `UHF_SYNTHESISER_UNLOCK` (R522): The UHF receiver synthesiser unlocks and source 413 reports. -/
  | uhfSynthesiserUnlock (t : Nat)
  /-- `ELECTRODE_SHORT` (R522): A capacitive electrode or its guard is found shorted, sets ACC_CAP_STAT.SHORT, and source 414 reports. The guard is named by 4. -/
  | electrodeShort (e : Fin 5) (t : Nat)
  /-- `TRANSCEIVER_OVER_TEMPERATURE` (R456): A CAN or LIN transceiver or an Ethernet PHY reaches over-temperature, and its link source reports, with FENCE for CAN. -/
  | transceiverOverTemperature (l : Link) (t : Nat)
  /-- `LIN_DOMINANT_TIMEOUT` (R493): A LIN transceiver is held dominant for 20 ms and source 388 + m reports. -/
  | linDominantTimeout (m : Fin 6) (t : Nat)
  /-- `ETH_LINK_UP` (R496): The 100BASE-T1 link of a port comes up, and ETH_STAT.LINK becomes 1. -/
  | ethLinkUp (e : Fin 2) (t : Nat) (sqi : BitVec 3)
  /-- `TRNG_RESUME` (R550): 1,024 consecutive TRNG samples pass their health tests, and TRNG output resumes for waiting commands. -/
  | trngResume (t : Nat)
  /-- `LF_DRIVE_SUPPLY` (R650): VBAT_L falls below 8.0 V and LF drive stops, or it stays above 8.0 V for 10 ms and pending exchanges start. -/
  | lfDriveSupply (ok : Bool) (t : Nat)
  /-- `BUS_IDLE` (R423): A CAN bus reaches idle, which completes a pending INIT or ROM entry and switches that controller's CAN clock branch after RETURN. -/
  | busIdle (n : Fin 13) (t : Nat)
deriving DecidableEq, Repr

end Sys2Proof
end

