-- ==== Sys2Proof/Decode.lean ====
section
/-!
DEFINITION. Sys2Proof/Decode.lean: the command that a word spells by the bits of spec/opcode_table.json.
-/
namespace Sys2Proof

/-- The table of this block gives no row any bits, so no word spells a command. A core's instructions enter as commands with their
operands decoded (log entry 60). -/
def decodeTableWord (nbits w : Nat) : Option Instr :=
  match nbits, w with
  | _, _ => none

end Sys2Proof
end

