-- ==== Sys2Proof/Config.lean ====
section
/-!
DEFINITION. Sys2Proof/Config.lean: the values the spec leaves open, as constants without a body. A statement about the
machine holds whatever they are. The assumption log says for each what the spec does not give.
-/
namespace Sys2Proof.Config

/-- Further `CORE` cycles an instruction waits (cache misses, pending stores, snapshot stalls, R159), the n-th drawn. -/
opaque stall : Nat → Nat

/-- The n-th free value drawn where the spec states no value. -/
opaque free : Nat → Nat

/-- The error of the scheduler's sine at a heading, bounded where it is used (R266). -/
opaque trigErr : Nat → Nat

/-- The bytes of the boot ROM. -/
opaque rom : Nat → BitVec 8

/-- The CRC-32 of a sequence of bytes, whose polynomial the spec does not give (R350, R563, R589, R613). -/
opaque crc32 : List (BitVec 8) → BitVec 32

/-- SM3 of a sequence of bytes (GB/T 32905), which the spec names and does not define (R557). -/
opaque sm3 : List (BitVec 8) → BitVec 256

/-- An SM2 signature of the identity key over a sequence of bytes, the n-th made (R555, R557). -/
opaque sm2Sign : Nat → List (BitVec 8) → BitVec 512

/-- Field n of an enrolment record in the argument words (R554), whose layout the spec does not give: index, zone, token ID,
epoch, counter value, whether its signature holds, whether its length is right. -/
opaque enrolField : Nat → List (BitVec 32) → Nat

/-- Field n of a revocation record in the argument words (R554): index, token ID, epoch, whether its signature holds, whether
its length is right. -/
opaque revokeField : Nat → List (BitVec 32) → Nat

/-- The ordering code of this device, less 1, where it is BYM484-H or BYM484-S (R586). -/
opaque orderCode : Nat

end Sys2Proof.Config
end

