-- ==== Sys2Proof/Machine/Regs.lean ====
section
/-!
DEFINITION. Sys2Proof/Machine/Regs.lean: the register map. Every register field that the register tables of spec/
give the machine, as a named `Fld` (address, lowest bit, width) and as a `Row` of the map (bases, array counts and
strides, bits, access type of R8, reset value). Names are the spec's: `REGISTER_FIELD`; a window number n and an
array index i are arguments. The rules: R33 (bases), R646, R674, R117, R118, R548, R231, R261, R262, R309, R360, R386,
R387, R418, R457, R494 to R498, R523, R588, R617, R618, R619, R645. Reserved bits have no row: they read 0 (R12).
-/
namespace Sys2Proof.Machine

/-- When an RWL field locks (R9, R53): once `FRAME_CTL.RUN` is set; once boot step 5 has armed the dies and blocks
with the Touchline (R309, R446, R508, R530); once the field die is armed; once switch die k is armed; once the segment
CRCs are written at boot step 3 (R613). -/
inductive Lock where
  | run | armed | fld | die | segs
deriving DecidableEq, Repr

/-- The access types of R8. -/
inductive Kind where
  | rw | ro | w1c | w1s | wo | sc | rwl (l : Lock)
deriving DecidableEq, Repr

/-- One register field: the byte address of its register, its lowest bit, its width in bits. -/
structure Fld where
  addr : Nat
  lo : Nat
  w : Nat
deriving DecidableEq, Repr

/-- The key of a field in the state's field table: 32 × address + lowest bit, one key for each field. -/
def Fld.key (f : Fld) : Nat := 32 * f.addr + f.lo

/-- One row of the register map: the fields at `base + i * s1 + j * s2` for i < n1 and j < n2. -/
structure Row where
  base : Nat
  n1 : Nat
  s1 : Nat
  n2 : Nat
  s2 : Nat
  lo : Nat
  w : Nat
  kind : Kind
  reset : Nat
deriving DecidableEq, Repr

/-! ### PRISM -/

-- PRISM_CTL (R645, R646)
def PRISM_CTL_RETURN : Fld := ⟨0x60000000, 31, 1⟩
def PRISM_CTL_LXTAL_EN : Fld := ⟨0x60000000, 30, 1⟩
def PRISM_CTL_TRIM_EN : Fld := ⟨0x60000000, 29, 1⟩
-- PRISM_STAT (R645, R646)
def PRISM_STAT_SRC : Fld := ⟨0x60000004, 30, 2⟩
def PRISM_STAT_FORCED : Fld := ⟨0x60000004, 29, 1⟩
def PRISM_STAT_TRIMMED : Fld := ⟨0x60000004, 6, 1⟩
def PRISM_STAT_LFRC_Q : Fld := ⟨0x60000004, 5, 1⟩
def PRISM_STAT_LXTAL_Q : Fld := ⟨0x60000004, 4, 1⟩
def PRISM_STAT_HFRC_Q : Fld := ⟨0x60000004, 3, 1⟩
def PRISM_STAT_PLL_Q : Fld := ⟨0x60000004, 2, 1⟩
def PRISM_STAT_XIN_Q : Fld := ⟨0x60000004, 1, 1⟩
-- PRISM_GATE (R645, R646)
def PRISM_GATE_ETH : Fld := ⟨0x60000008, 13, 2⟩
def PRISM_GATE_CAN : Fld := ⟨0x60000008, 0, 13⟩
-- PRISM_SW (R645, R646)
def PRISM_SW_T : Fld := ⟨0x6000000C, 0, 32⟩
-- PRISM_FAULT (R645, R646)
def PRISM_FAULT_SRC : Fld := ⟨0x60000010, 0, 16⟩

/-- The map of the PRISM block. -/
def rowsPRISM : List Row := [
  ⟨0x60000000, 1, 0x0, 1, 0x0, 31, 1, .wo, 0⟩,
  ⟨0x60000000, 1, 0x0, 1, 0x0, 30, 1, .rw, 0⟩,
  ⟨0x60000000, 1, 0x0, 1, 0x0, 29, 1, .rw, 1⟩,
  ⟨0x60000004, 1, 0x0, 1, 0x0, 30, 2, .ro, 2⟩,
  ⟨0x60000004, 1, 0x0, 1, 0x0, 29, 1, .w1c, 0⟩,
  ⟨0x60000004, 1, 0x0, 1, 0x0, 6, 1, .ro, 0⟩,
  ⟨0x60000004, 1, 0x0, 1, 0x0, 5, 1, .ro, 0⟩,
  ⟨0x60000004, 1, 0x0, 1, 0x0, 4, 1, .ro, 0⟩,
  ⟨0x60000004, 1, 0x0, 1, 0x0, 3, 1, .ro, 0⟩,
  ⟨0x60000004, 1, 0x0, 1, 0x0, 2, 1, .ro, 0⟩,
  ⟨0x60000004, 1, 0x0, 1, 0x0, 1, 1, .ro, 0⟩,
  ⟨0x60000008, 1, 0x0, 1, 0x0, 13, 2, .rw, 0⟩,
  ⟨0x60000008, 1, 0x0, 1, 0x0, 0, 13, .rw, 0⟩,
  ⟨0x6000000C, 1, 0x0, 1, 0x0, 0, 32, .ro, 0⟩,
  ⟨0x60000010, 1, 0x0, 1, 0x0, 0, 16, .w1c, 0⟩]

/-! ### PWR -/

-- PWR_REQ (R674)
def PWR_REQ_TARGET : Fld := ⟨0x60010000, 0, 3⟩
-- PWR_STAT (R674)
def PWR_STAT_STATE : Fld := ⟨0x60010004, 29, 3⟩
def PWR_STAT_PEND : Fld := ⟨0x60010004, 26, 3⟩
def PWR_STAT_PHASE : Fld := ⟨0x60010004, 24, 2⟩
def PWR_STAT_ENTRY : Fld := ⟨0x60010004, 21, 3⟩
def PWR_STAT_REFUSED : Fld := ⟨0x60010004, 20, 1⟩
def PWR_STAT_ABORTED : Fld := ⟨0x60010004, 19, 1⟩
def PWR_STAT_PEND_DROP : Fld := ⟨0x60010004, 18, 1⟩
def PWR_STAT_TIMEOUT : Fld := ⟨0x60010004, 17, 1⟩
-- PWR_WAKE_EN (R674)
def PWR_WAKE_EN_RXIDLE : Fld := ⟨0x60010008, 7, 1⟩
def PWR_WAKE_EN_UMP : Fld := ⟨0x60010008, 6, 1⟩
def PWR_WAKE_EN_ALARM : Fld := ⟨0x60010008, 5, 1⟩
def PWR_WAKE_EN_CAP : Fld := ⟨0x60010008, 4, 1⟩
def PWR_WAKE_EN_LIN : Fld := ⟨0x60010008, 3, 1⟩
def PWR_WAKE_EN_CAN : Fld := ⟨0x60010008, 2, 1⟩
def PWR_WAKE_EN_KL15 : Fld := ⟨0x60010008, 1, 1⟩
def PWR_WAKE_EN_WAKE : Fld := ⟨0x60010008, 0, 1⟩
-- PWR_WAKE_CFG (R674)
def PWR_WAKE_CFG_MODE : Fld := ⟨0x6001000C, 0, 2⟩
-- PWR_WAKE_SRC (R674)
def PWR_WAKE_SRC_FIRST : Fld := ⟨0x60010010, 24, 8⟩
def PWR_WAKE_SRC_UNIT : Fld := ⟨0x60010010, 16, 8⟩
def PWR_WAKE_SRC_LEVELS : Fld := ⟨0x60010010, 0, 8⟩
-- PWR_WAKE_TS_LO (R674)
def PWR_WAKE_TS_LO_T : Fld := ⟨0x60010014, 0, 32⟩
-- PWR_WAKE_TS_HI (R674)
def PWR_WAKE_TS_HI_T : Fld := ⟨0x60010018, 0, 32⟩
-- PWR_ALARM_LO (R674)
def PWR_ALARM_LO_T : Fld := ⟨0x6001001C, 0, 32⟩
-- PWR_ALARM_HI (R674)
def PWR_ALARM_HI_T : Fld := ⟨0x60010020, 0, 32⟩
-- PWR_RET0 (R674)
def PWR_RET0_BANK : Fld := ⟨0x60010024, 0, 32⟩
-- PWR_RET1 (R674)
def PWR_RET1_BANK : Fld := ⟨0x60010028, 0, 32⟩
-- PWR_IDLE (R674)
def PWR_IDLE_FRAMES : Fld := ⟨0x6001002C, 0, 16⟩
-- PWR_ENTRY_TMO (R674)
def PWR_ENTRY_TMO_TMO_S : Fld := ⟨0x60010030, 0, 16⟩
-- PWR_MACH (R674)
def PWR_MACH_STATE : Fld := ⟨0x60010034, 4, 2⟩
def PWR_MACH_IGN : Fld := ⟨0x60010034, 3, 1⟩
def PWR_MACH_REQ : Fld := ⟨0x60010034, 0, 2⟩
-- PWR_RST (R674)
def PWR_RST_CAUSE : Fld := ⟨0x60010038, 0, 4⟩
-- PWR_SUPPLY (R674)
def PWR_SUPPLY_VBAT_L : Fld := ⟨0x6001003C, 16, 16⟩
def PWR_SUPPLY_KL15 : Fld := ⟨0x6001003C, 0, 16⟩
-- PWR_TEMP (R674)
def PWR_TEMP_T : Fld := ⟨0x60010040, 0, 16⟩
-- PWR_FAULT (R674)
def PWR_FAULT_SRC : Fld := ⟨0x60010044, 0, 16⟩

/-- The map of the PWR block. -/
def rowsPWR : List Row := [
  ⟨0x60010000, 1, 0x0, 1, 0x0, 0, 3, .wo, 0⟩,
  ⟨0x60010004, 1, 0x0, 1, 0x0, 29, 3, .ro, 0⟩,
  ⟨0x60010004, 1, 0x0, 1, 0x0, 26, 3, .ro, 0⟩,
  ⟨0x60010004, 1, 0x0, 1, 0x0, 24, 2, .ro, 0⟩,
  ⟨0x60010004, 1, 0x0, 1, 0x0, 21, 3, .ro, 0⟩,
  ⟨0x60010004, 1, 0x0, 1, 0x0, 20, 1, .w1c, 0⟩,
  ⟨0x60010004, 1, 0x0, 1, 0x0, 19, 1, .w1c, 0⟩,
  ⟨0x60010004, 1, 0x0, 1, 0x0, 18, 1, .w1c, 0⟩,
  ⟨0x60010004, 1, 0x0, 1, 0x0, 17, 1, .w1c, 0⟩,
  ⟨0x60010008, 1, 0x0, 1, 0x0, 7, 1, .rw, 0⟩,
  ⟨0x60010008, 1, 0x0, 1, 0x0, 6, 1, .rw, 0⟩,
  ⟨0x60010008, 1, 0x0, 1, 0x0, 5, 1, .rw, 0⟩,
  ⟨0x60010008, 1, 0x0, 1, 0x0, 4, 1, .rw, 0⟩,
  ⟨0x60010008, 1, 0x0, 1, 0x0, 3, 1, .rw, 0⟩,
  ⟨0x60010008, 1, 0x0, 1, 0x0, 2, 1, .rw, 0⟩,
  ⟨0x60010008, 1, 0x0, 1, 0x0, 1, 1, .rw, 1⟩,
  ⟨0x60010008, 1, 0x0, 1, 0x0, 0, 1, .rw, 1⟩,
  ⟨0x6001000C, 1, 0x0, 1, 0x0, 0, 2, .rw, 0⟩,
  ⟨0x60010010, 1, 0x0, 1, 0x0, 24, 8, .ro, 0⟩,
  ⟨0x60010010, 1, 0x0, 1, 0x0, 16, 8, .ro, 0⟩,
  ⟨0x60010010, 1, 0x0, 1, 0x0, 0, 8, .ro, 0⟩,
  ⟨0x60010014, 1, 0x0, 1, 0x0, 0, 32, .ro, 0⟩,
  ⟨0x60010018, 1, 0x0, 1, 0x0, 0, 32, .ro, 0⟩,
  ⟨0x6001001C, 1, 0x0, 1, 0x0, 0, 32, .rw, 0⟩,
  ⟨0x60010020, 1, 0x0, 1, 0x0, 0, 32, .rw, 0⟩,
  ⟨0x60010024, 1, 0x0, 1, 0x0, 0, 32, .rw, 15⟩,
  ⟨0x60010028, 1, 0x0, 1, 0x0, 0, 32, .rw, 0⟩,
  ⟨0x6001002C, 1, 0x0, 1, 0x0, 0, 16, .rw, 0⟩,
  ⟨0x60010030, 1, 0x0, 1, 0x0, 0, 16, .rw, 30⟩,
  ⟨0x60010034, 1, 0x0, 1, 0x0, 4, 2, .ro, 0⟩,
  ⟨0x60010034, 1, 0x0, 1, 0x0, 3, 1, .ro, 0⟩,
  ⟨0x60010034, 1, 0x0, 1, 0x0, 0, 2, .rw, 0⟩,
  ⟨0x60010038, 1, 0x0, 1, 0x0, 0, 4, .ro, 0⟩,
  ⟨0x6001003C, 1, 0x0, 1, 0x0, 16, 16, .ro, 0⟩,
  ⟨0x6001003C, 1, 0x0, 1, 0x0, 0, 16, .ro, 0⟩,
  ⟨0x60010040, 1, 0x0, 1, 0x0, 0, 16, .ro, 0⟩,
  ⟨0x60010044, 1, 0x0, 1, 0x0, 0, 16, .w1c, 0⟩]

/-! ### TBASE -/

-- TBASE_LO (R645, R646)
def TBASE_LO_T : Fld := ⟨0x60020000, 0, 32⟩
-- TBASE_HI (R645, R646)
def TBASE_HI_T : Fld := ⟨0x60020004, 0, 32⟩
-- TBASE_INC (R645, R646)
def TBASE_INC_INT : Fld := ⟨0x60020008, 24, 8⟩
def TBASE_INC_FRAC : Fld := ⟨0x60020008, 0, 24⟩
-- TBASE_LFCAL (R645, R646)
def TBASE_LFCAL_INT : Fld := ⟨0x6002000C, 16, 16⟩
def TBASE_LFCAL_FRAC : Fld := ⟨0x6002000C, 0, 16⟩
-- TBASE_LXPPM (R645, R646)
def TBASE_LXPPM_PPM : Fld := ⟨0x60020010, 0, 16⟩
-- TBASE_SLP_IN_LO (R645, R646)
def TBASE_SLP_IN_LO_T : Fld := ⟨0x60020014, 0, 32⟩
-- TBASE_SLP_IN_HI (R645, R646)
def TBASE_SLP_IN_HI_T : Fld := ⟨0x60020018, 0, 32⟩
-- TBASE_SLP_EL_LO (R645, R646)
def TBASE_SLP_EL_LO_T : Fld := ⟨0x6002001C, 0, 32⟩
-- TBASE_SLP_EL_HI (R645, R646)
def TBASE_SLP_EL_HI_T : Fld := ⟨0x60020020, 0, 32⟩
-- TBASE_SLP_UNC (R645, R646)
def TBASE_SLP_UNC_U_US : Fld := ⟨0x60020024, 0, 32⟩
-- TBASE_SLP_SRC (R645, R646)
def TBASE_SLP_SRC_SRC : Fld := ⟨0x60020028, 0, 2⟩

/-- The map of the TBASE block. -/
def rowsTBASE : List Row := [
  ⟨0x60020000, 1, 0x0, 1, 0x0, 0, 32, .ro, 0⟩,
  ⟨0x60020004, 1, 0x0, 1, 0x0, 0, 32, .ro, 0⟩,
  ⟨0x60020008, 1, 0x0, 1, 0x0, 24, 8, .ro, 1⟩,
  ⟨0x60020008, 1, 0x0, 1, 0x0, 0, 24, .ro, 0⟩,
  ⟨0x6002000C, 1, 0x0, 1, 0x0, 16, 16, .ro, 6250⟩,
  ⟨0x6002000C, 1, 0x0, 1, 0x0, 0, 16, .ro, 0⟩,
  ⟨0x60020010, 1, 0x0, 1, 0x0, 0, 16, .rw, 100⟩,
  ⟨0x60020014, 1, 0x0, 1, 0x0, 0, 32, .ro, 0⟩,
  ⟨0x60020018, 1, 0x0, 1, 0x0, 0, 32, .ro, 0⟩,
  ⟨0x6002001C, 1, 0x0, 1, 0x0, 0, 32, .ro, 0⟩,
  ⟨0x60020020, 1, 0x0, 1, 0x0, 0, 32, .ro, 0⟩,
  ⟨0x60020024, 1, 0x0, 1, 0x0, 0, 32, .ro, 0⟩,
  ⟨0x60020028, 1, 0x0, 1, 0x0, 0, 2, .ro, 0⟩]

/-! ### FRAME -/

-- FRAME_CTL (R117, R118)
def FRAME_CTL_RUN : Fld := ⟨0x60030000, 0, 1⟩
-- FRAME_LEN (R117, R118)
def FRAME_LEN_LEN : Fld := ⟨0x60030004, 0, 7⟩
-- FRAME_MARGIN (R117, R118)
def FRAME_MARGIN_MARGIN_US : Fld := ⟨0x60030008, 0, 12⟩
-- FRAME_CUTRES (R117, R118)
def FRAME_CUTRES_RES_US : Fld := ⟨0x6003000C, 0, 12⟩
-- FRAME_LOCK (R117, R118)
def FRAME_LOCK_CAPT : Fld := ⟨0x60030010, 8, 4⟩
def FRAME_LOCK_CAN : Fld := ⟨0x60030010, 4, 4⟩
def FRAME_LOCK_SRC : Fld := ⟨0x60030010, 0, 2⟩
-- FRAME_LOCK_OFS (R117, R118)
def FRAME_LOCK_OFS_OFS : Fld := ⟨0x60030014, 0, 32⟩
-- FRAME_LOCK_STAT (R117, R118)
def FRAME_LOCK_STAT_ERR : Fld := ⟨0x60030018, 16, 16⟩
def FRAME_LOCK_STAT_STATE : Fld := ⟨0x60030018, 0, 2⟩
-- FRAME_LOCK_TMO (R117, R118)
def FRAME_LOCK_TMO_MISS : Fld := ⟨0x6003001C, 0, 8⟩
-- FRAME_COUNT_LO (R117, R118)
def FRAME_COUNT_LO_COUNT : Fld := ⟨0x60030020, 0, 32⟩
-- FRAME_COUNT_HI (R117, R118)
def FRAME_COUNT_HI_COUNT : Fld := ⟨0x60030024, 0, 32⟩
-- FRAME_T0_LO (R117, R118)
def FRAME_T0_LO_T0 : Fld := ⟨0x60030028, 0, 32⟩
-- FRAME_T0_HI (R117, R118)
def FRAME_T0_HI_T0 : Fld := ⟨0x6003002C, 0, 32⟩
-- FRAME_TT_BASE (R117, R118)
def FRAME_TT_BASE_BASE : Fld := ⟨0x60030030, 6, 26⟩
-- FRAME_TT_POST (R117, R118)
def FRAME_TT_POST_INDEX : Fld := ⟨0x60030034, 0, 6⟩
-- FRAME_SNAP_BASE (R117, R118)
def FRAME_SNAP_BASE_BASE : Fld := ⟨0x60030038, 16, 16⟩
-- FRAME_SNAP_LIST (R117, R118)
def FRAME_SNAP_LIST_BASE : Fld := ⟨0x6003003C, 4, 28⟩
-- FRAME_SNAP_CNT (R117, R118)
def FRAME_SNAP_CNT_N : Fld := ⟨0x60030040, 0, 8⟩
-- FRAME_STAT (R117, R118)
def FRAME_STAT_PHASE : Fld := ⟨0x60030044, 8, 3⟩
def FRAME_STAT_LEVEL : Fld := ⟨0x60030044, 4, 3⟩
def FRAME_STAT_CORES : Fld := ⟨0x60030044, 0, 4⟩
-- FRAME_FAULT (R117, R118)
def FRAME_FAULT_SRC : Fld := ⟨0x60030048, 0, 30⟩
-- FRAME_ESC (R117, R118)
def FRAME_ESC_OVR_LIMIT : Fld := ⟨0x6003004C, 8, 8⟩
def FRAME_ESC_MISM_LIMIT : Fld := ⟨0x6003004C, 0, 4⟩
-- FRAME_CMP_STAT (R117, R118)
def FRAME_CMP_STAT_LIVE_CNT : Fld := ⟨0x60030050, 16, 16⟩
def FRAME_CMP_STAT_LIVE_FAIL : Fld := ⟨0x60030050, 1, 1⟩
def FRAME_CMP_STAT_BOOT_PASS : Fld := ⟨0x60030050, 0, 1⟩
-- FRAME_USE (R117, R118)
def FRAME_USE_PEAK_US (i : Nat) : Fld := ⟨0x60030060 + 0x4 * i, 16, 16⟩
def FRAME_USE_LAST_US (i : Nat) : Fld := ⟨0x60030060 + 0x4 * i, 0, 16⟩

/-- The map of the FRAME block. -/
def rowsFRAME : List Row := [
  ⟨0x60030000, 1, 0x0, 1, 0x0, 0, 1, .w1s, 0⟩,
  ⟨0x60030004, 1, 0x0, 1, 0x0, 0, 7, .rw, 8⟩,
  ⟨0x60030008, 1, 0x0, 1, 0x0, 0, 12, .rw, 50⟩,
  ⟨0x6003000C, 1, 0x0, 1, 0x0, 0, 12, .rw, 100⟩,
  ⟨0x60030010, 1, 0x0, 1, 0x0, 8, 4, .rw, 0⟩,
  ⟨0x60030010, 1, 0x0, 1, 0x0, 4, 4, .rw, 0⟩,
  ⟨0x60030010, 1, 0x0, 1, 0x0, 0, 2, .rw, 0⟩,
  ⟨0x60030014, 1, 0x0, 1, 0x0, 0, 32, .rw, 0⟩,
  ⟨0x60030018, 1, 0x0, 1, 0x0, 16, 16, .ro, 0⟩,
  ⟨0x60030018, 1, 0x0, 1, 0x0, 0, 2, .ro, 0⟩,
  ⟨0x6003001C, 1, 0x0, 1, 0x0, 0, 8, .rw, 3⟩,
  ⟨0x60030020, 1, 0x0, 1, 0x0, 0, 32, .ro, 0⟩,
  ⟨0x60030024, 1, 0x0, 1, 0x0, 0, 32, .ro, 0⟩,
  ⟨0x60030028, 1, 0x0, 1, 0x0, 0, 32, .ro, 0⟩,
  ⟨0x6003002C, 1, 0x0, 1, 0x0, 0, 32, .ro, 0⟩,
  ⟨0x60030030, 1, 0x0, 1, 0x0, 6, 26, .rwl .run, 0⟩,
  ⟨0x60030034, 1, 0x0, 1, 0x0, 0, 6, .wo, 0⟩,
  ⟨0x60030038, 1, 0x0, 1, 0x0, 16, 16, .rwl .run, 0⟩,
  ⟨0x6003003C, 1, 0x0, 1, 0x0, 4, 28, .rwl .run, 0⟩,
  ⟨0x60030040, 1, 0x0, 1, 0x0, 0, 8, .rw, 0⟩,
  ⟨0x60030044, 1, 0x0, 1, 0x0, 8, 3, .ro, 6⟩,
  ⟨0x60030044, 1, 0x0, 1, 0x0, 4, 3, .ro, 0⟩,
  ⟨0x60030044, 1, 0x0, 1, 0x0, 0, 4, .ro, 0⟩,
  ⟨0x60030048, 1, 0x0, 1, 0x0, 0, 30, .w1c, 0⟩,
  ⟨0x6003004C, 1, 0x0, 1, 0x0, 8, 8, .rw, 3⟩,
  ⟨0x6003004C, 1, 0x0, 1, 0x0, 0, 4, .rw, 2⟩,
  ⟨0x60030050, 1, 0x0, 1, 0x0, 16, 16, .ro, 0⟩,
  ⟨0x60030050, 1, 0x0, 1, 0x0, 1, 1, .ro, 0⟩,
  ⟨0x60030050, 1, 0x0, 1, 0x0, 0, 1, .ro, 0⟩,
  ⟨0x60030060, 4, 0x4, 1, 0x0, 16, 16, .ro, 0⟩,
  ⟨0x60030060, 4, 0x4, 1, 0x0, 0, 16, .ro, 0⟩]

/-! ### UMP -/

-- UMP_CTL (R548)
def UMP_CTL_SAFE_REQ : Fld := ⟨0x60040000, 31, 1⟩
def UMP_CTL_FLOOR : Fld := ⟨0x60040000, 0, 2⟩
-- UMP_CFG (R548)
def UMP_CFG_FORGET_MIN : Fld := ⟨0x60040004, 0, 8⟩
-- UMP_STAT (R548)
def UMP_STAT_SELF : Fld := ⟨0x60040008, 31, 1⟩
def UMP_STAT_BIST : Fld := ⟨0x60040008, 30, 1⟩
def UMP_STAT_FAULT_N : Fld := ⟨0x60040008, 29, 1⟩
def UMP_STAT_ALIVE : Fld := ⟨0x60040008, 28, 1⟩
def UMP_STAT_N_ACTIVE : Fld := ⟨0x60040008, 16, 10⟩
def UMP_STAT_LEVEL : Fld := ⟨0x60040008, 4, 3⟩
def UMP_STAT_CAUSE : Fld := ⟨0x60040008, 0, 3⟩
-- UMP_RST (R548)
def UMP_RST_KEY : Fld := ⟨0x6004000C, 24, 8⟩
def UMP_RST_GO : Fld := ⟨0x6004000C, 0, 1⟩
-- UMP_LOG_SEQ (R548)
def UMP_LOG_SEQ_SEQ : Fld := ⟨0x60040010, 0, 32⟩
-- UMP_LOG_STAT (R548)
def UMP_LOG_STAT_KEPT : Fld := ⟨0x60040014, 31, 1⟩
def UMP_LOG_STAT_UNCOPIED : Fld := ⟨0x60040014, 0, 16⟩
-- UMP_NOTIFY (R548)
def UMP_NOTIFY_CORES : Fld := ⟨0x60040018, 8, 4⟩
def UMP_NOTIFY_REACT : Fld := ⟨0x60040018, 0, 7⟩
-- UMP_HIT (R548)
def UMP_HIT_HIT (i : Nat) : Fld := ⟨0x60040100 + 0x4 * i, 0, 32⟩
-- UMP_ACT (R548)
def UMP_ACT_ACT (i : Nat) : Fld := ⟨0x60040140 + 0x4 * i, 0, 32⟩
-- UMP_FORCE (R548)
def UMP_FORCE_FORCE (i : Nat) : Fld := ⟨0x60040200 + 0x4 * i, 0, 32⟩
-- UMP_SRC_CFG (R548)
def UMP_SRC_CFG_CLASS (i : Nat) : Fld := ⟨0x60041000 + 0x4 * i, 31, 1⟩
def UMP_SRC_CFG_REACT (i : Nat) : Fld := ⟨0x60041000 + 0x4 * i, 28, 3⟩
def UMP_SRC_CFG_TGT (i : Nat) : Fld := ⟨0x60041000 + 0x4 * i, 16, 9⟩
def UMP_SRC_CFG_REC_LIM (i : Nat) : Fld := ⟨0x60041000 + 0x4 * i, 12, 4⟩
def UMP_SRC_CFG_QUIET (i : Nat) : Fld := ⟨0x60041000 + 0x4 * i, 0, 10⟩
-- UMP_SRC_ST (R548)
def UMP_SRC_ST_STATE (i : Nat) : Fld := ⟨0x60042000 + 0x4 * i, 30, 2⟩
def UMP_SRC_ST_FORCED (i : Nat) : Fld := ⟨0x60042000 + 0x4 * i, 29, 1⟩
def UMP_SRC_ST_REC_CNT (i : Nat) : Fld := ⟨0x60042000 + 0x4 * i, 20, 4⟩
def UMP_SRC_ST_COUNT (i : Nat) : Fld := ⟨0x60042000 + 0x4 * i, 0, 16⟩

/-- The map of the UMP block. -/
def rowsUMP : List Row := [
  ⟨0x60040000, 1, 0x0, 1, 0x0, 31, 1, .w1s, 0⟩,
  ⟨0x60040000, 1, 0x0, 1, 0x0, 0, 2, .rw, 0⟩,
  ⟨0x60040004, 1, 0x0, 1, 0x0, 0, 8, .rwl .armed, 60⟩,
  ⟨0x60040008, 1, 0x0, 1, 0x0, 31, 1, .ro, 0⟩,
  ⟨0x60040008, 1, 0x0, 1, 0x0, 30, 1, .ro, 0⟩,
  ⟨0x60040008, 1, 0x0, 1, 0x0, 29, 1, .ro, 0⟩,
  ⟨0x60040008, 1, 0x0, 1, 0x0, 28, 1, .ro, 0⟩,
  ⟨0x60040008, 1, 0x0, 1, 0x0, 16, 10, .ro, 0⟩,
  ⟨0x60040008, 1, 0x0, 1, 0x0, 4, 3, .ro, 0⟩,
  ⟨0x60040008, 1, 0x0, 1, 0x0, 0, 3, .ro, 0⟩,
  ⟨0x6004000C, 1, 0x0, 1, 0x0, 24, 8, .wo, 0⟩,
  ⟨0x6004000C, 1, 0x0, 1, 0x0, 0, 1, .wo, 0⟩,
  ⟨0x60040010, 1, 0x0, 1, 0x0, 0, 32, .ro, 0⟩,
  ⟨0x60040014, 1, 0x0, 1, 0x0, 31, 1, .w1c, 0⟩,
  ⟨0x60040014, 1, 0x0, 1, 0x0, 0, 16, .ro, 0⟩,
  ⟨0x60040018, 1, 0x0, 1, 0x0, 8, 4, .rw, 1⟩,
  ⟨0x60040018, 1, 0x0, 1, 0x0, 0, 7, .rw, 124⟩,
  ⟨0x60040100, 16, 0x4, 1, 0x0, 0, 32, .w1c, 0⟩,
  ⟨0x60040140, 16, 0x4, 1, 0x0, 0, 32, .ro, 0⟩,
  ⟨0x60040200, 16, 0x4, 1, 0x0, 0, 32, .sc, 0⟩,
  ⟨0x60041000, 512, 0x4, 1, 0x0, 31, 1, .ro, 0⟩,
  ⟨0x60041000, 512, 0x4, 1, 0x0, 28, 3, .rwl .armed, 0⟩,
  ⟨0x60041000, 512, 0x4, 1, 0x0, 16, 9, .ro, 0⟩,
  ⟨0x60041000, 512, 0x4, 1, 0x0, 12, 4, .rwl .armed, 3⟩,
  ⟨0x60041000, 512, 0x4, 1, 0x0, 0, 10, .rwl .armed, 10⟩,
  ⟨0x60042000, 512, 0x4, 1, 0x0, 30, 2, .ro, 0⟩,
  ⟨0x60042000, 512, 0x4, 1, 0x0, 29, 1, .ro, 0⟩,
  ⟨0x60042000, 512, 0x4, 1, 0x0, 20, 4, .ro, 0⟩,
  ⟨0x60042000, 512, 0x4, 1, 0x0, 0, 16, .ro, 0⟩]

/-! ### CHT -/

-- CHT_BASE (R231)
def CHT_BASE_BASE : Fld := ⟨0x60050000, 6, 26⟩
-- CHT_POST (R231)
def CHT_POST_INDEX : Fld := ⟨0x60050004, 0, 9⟩
-- CHT_CLR (R231)
def CHT_CLR_THERM : Fld := ⟨0x60050008, 31, 1⟩
def CHT_CLR_LATCH : Fld := ⟨0x60050008, 30, 1⟩
def CHT_CLR_FLT : Fld := ⟨0x60050008, 29, 1⟩
def CHT_CLR_INDEX : Fld := ⟨0x60050008, 0, 9⟩
-- CHT_POST_STAT (R231)
def CHT_POST_STAT_ADOPTED : Fld := ⟨0x6005000C, 16, 16⟩
def CHT_POST_STAT_REJ : Fld := ⟨0x6005000C, 15, 1⟩
def CHT_POST_STAT_IDX_ERR : Fld := ⟨0x6005000C, 14, 1⟩
def CHT_POST_STAT_REJ_INDEX : Fld := ⟨0x6005000C, 0, 9⟩
-- CHT_RPT_MASK (R231)
def CHT_RPT_MASK_MASK : Fld := ⟨0x60050010, 0, 15⟩
-- CHT_DIE_CTL (R231)
def CHT_DIE_CTL_RESUME (i : Nat) : Fld := ⟨0x60050020 + 0x4 * i, 1, 1⟩
def CHT_DIE_CTL_BSTOP (i : Nat) : Fld := ⟨0x60050020 + 0x4 * i, 0, 1⟩
-- CHT_DIE_WD (R231)
def CHT_DIE_WD_WD_US (i : Nat) : Fld := ⟨0x60050030 + 0x4 * i, 0, 16⟩
-- CHT_DIE_STAT (R231)
def CHT_DIE_STAT_CRC_ERR (i : Nat) : Fld := ⟨0x60050040 + 0x4 * i, 24, 8⟩
def CHT_DIE_STAT_T_DIE (i : Nat) : Fld := ⟨0x60050040 + 0x4 * i, 16, 8⟩
def CHT_DIE_STAT_TL_REV (i : Nat) : Fld := ⟨0x60050040 + 0x4 * i, 8, 8⟩
def CHT_DIE_STAT_SEQ_BANK (i : Nat) : Fld := ⟨0x60050040 + 0x4 * i, 7, 1⟩
def CHT_DIE_STAT_TL_BANK (i : Nat) : Fld := ⟨0x60050040 + 0x4 * i, 6, 1⟩
def CHT_DIE_STAT_FENCED (i : Nat) : Fld := ⟨0x60050040 + 0x4 * i, 4, 1⟩
def CHT_DIE_STAT_WD_TRIP (i : Nat) : Fld := ⟨0x60050040 + 0x4 * i, 3, 1⟩
def CHT_DIE_STAT_MODE (i : Nat) : Fld := ⟨0x60050040 + 0x4 * i, 0, 2⟩
-- CHT_GRP_CTL (R231)
def CHT_GRP_CTL_DROOP (i : Nat) : Fld := ⟨0x60050050 + 0x4 * i, 0, 4⟩
-- CHT_GRP_STAT (R231)
def CHT_GRP_STAT_V_GRP (i : Nat) : Fld := ⟨0x60050070 + 0x4 * i, 16, 16⟩
def CHT_GRP_STAT_DROOP_CNT (i : Nat) : Fld := ⟨0x60050070 + 0x4 * i, 8, 8⟩
def CHT_GRP_STAT_I_GRP (i : Nat) : Fld := ⟨0x60050070 + 0x4 * i, 0, 8⟩
-- CHT_BR_CTL (R231)
def CHT_BR_CTL_REV_GAP_MS (i : Nat) : Fld := ⟨0x60050090 + 0x4 * i, 16, 8⟩
def CHT_BR_CTL_STALL (i : Nat) : Fld := ⟨0x60050090 + 0x4 * i, 0, 16⟩
-- CHT_FLT_SUM (R231)
def CHT_FLT_SUM_CH (i : Nat) : Fld := ⟨0x600500A0 + 0x4 * i, 0, 32⟩

/-- The map of the CHT block. -/
def rowsCHT : List Row := [
  ⟨0x60050000, 1, 0x0, 1, 0x0, 6, 26, .rwl .run, 0⟩,
  ⟨0x60050004, 1, 0x0, 1, 0x0, 0, 9, .wo, 0⟩,
  ⟨0x60050008, 1, 0x0, 1, 0x0, 31, 1, .wo, 0⟩,
  ⟨0x60050008, 1, 0x0, 1, 0x0, 30, 1, .wo, 0⟩,
  ⟨0x60050008, 1, 0x0, 1, 0x0, 29, 1, .wo, 0⟩,
  ⟨0x60050008, 1, 0x0, 1, 0x0, 0, 9, .wo, 0⟩,
  ⟨0x6005000C, 1, 0x0, 1, 0x0, 16, 16, .ro, 0⟩,
  ⟨0x6005000C, 1, 0x0, 1, 0x0, 15, 1, .w1c, 0⟩,
  ⟨0x6005000C, 1, 0x0, 1, 0x0, 14, 1, .w1c, 0⟩,
  ⟨0x6005000C, 1, 0x0, 1, 0x0, 0, 9, .ro, 0⟩,
  ⟨0x60050010, 1, 0x0, 1, 0x0, 0, 15, .rw, 28671⟩,
  ⟨0x60050020, 4, 0x4, 1, 0x0, 1, 1, .wo, 0⟩,
  ⟨0x60050020, 4, 0x4, 1, 0x0, 0, 1, .wo, 0⟩,
  ⟨0x60050030, 4, 0x4, 1, 0x0, 0, 16, .rwl .die, 2000⟩,
  ⟨0x60050040, 4, 0x4, 1, 0x0, 24, 8, .ro, 0⟩,
  ⟨0x60050040, 4, 0x4, 1, 0x0, 16, 8, .ro, 0⟩,
  ⟨0x60050040, 4, 0x4, 1, 0x0, 8, 8, .ro, 0⟩,
  ⟨0x60050040, 4, 0x4, 1, 0x0, 7, 1, .ro, 0⟩,
  ⟨0x60050040, 4, 0x4, 1, 0x0, 6, 1, .ro, 0⟩,
  ⟨0x60050040, 4, 0x4, 1, 0x0, 4, 1, .ro, 0⟩,
  ⟨0x60050040, 4, 0x4, 1, 0x0, 3, 1, .w1c, 0⟩,
  ⟨0x60050040, 4, 0x4, 1, 0x0, 0, 2, .ro, 0⟩,
  ⟨0x60050050, 8, 0x4, 1, 0x0, 0, 4, .rw, 12⟩,
  ⟨0x60050070, 8, 0x4, 1, 0x0, 16, 16, .ro, 0⟩,
  ⟨0x60050070, 8, 0x4, 1, 0x0, 8, 8, .ro, 0⟩,
  ⟨0x60050070, 8, 0x4, 1, 0x0, 0, 8, .ro, 0⟩,
  ⟨0x60050090, 4, 0x4, 1, 0x0, 16, 8, .rw, 20⟩,
  ⟨0x60050090, 4, 0x4, 1, 0x0, 0, 16, .rw, 0⟩,
  ⟨0x600500A0, 5, 0x4, 1, 0x0, 0, 32, .w1c, 0⟩]

/-! ### PCHN -/

-- PCHN_CTL (R261, R262)
def PCHN_CTL_CHAIN_EN : Fld := ⟨0x60060000, 0, 1⟩
-- PCHN_STAT (R261, R262)
def PCHN_STAT_LOOP_ERR : Fld := ⟨0x60060004, 24, 8⟩
def PCHN_STAT_LIVE : Fld := ⟨0x60060004, 16, 4⟩
def PCHN_STAT_RET_OK : Fld := ⟨0x60060004, 4, 4⟩
def PCHN_STAT_STATE : Fld := ⟨0x60060004, 0, 2⟩
-- PCHN_DIE_RET (R261, R262)
def PCHN_DIE_RET_RET_ERR (i : Nat) : Fld := ⟨0x60060010 + 0x4 * i, 16, 16⟩
def PCHN_DIE_RET_CODE (i : Nat) : Fld := ⟨0x60060010 + 0x4 * i, 0, 2⟩
-- PCHN_LIMP_SEL (R261, R262)
def PCHN_LIMP_SEL_SEL (i : Nat) : Fld := ⟨0x60060020 + 0x4 * i, 0, 32⟩
-- PCHN_LIMP_IN (R261, R262)
def PCHN_LIMP_IN_LVL : Fld := ⟨0x60060064, 0, 8⟩
-- PCHN_GRP_SEL (R261, R262)
def PCHN_GRP_SEL_GROUP : Fld := ⟨0x60060068, 0, 8⟩
-- PCHN_GRP_INFO (R261, R262)
def PCHN_GRP_INFO_KIND : Fld := ⟨0x6006006C, 10, 2⟩
def PCHN_GRP_INFO_N : Fld := ⟨0x6006006C, 0, 9⟩
-- PCHN_GRP_PER (R261, R262)
def PCHN_GRP_PER_PER_US : Fld := ⟨0x60060070, 0, 24⟩
-- PCHN_FAULT (R261, R262)
def PCHN_FAULT_SRC : Fld := ⟨0x60060074, 0, 4⟩

/-- The map of the PCHN block. -/
def rowsPCHN : List Row := [
  ⟨0x60060000, 1, 0x0, 1, 0x0, 0, 1, .w1s, 0⟩,
  ⟨0x60060004, 1, 0x0, 1, 0x0, 24, 8, .ro, 0⟩,
  ⟨0x60060004, 1, 0x0, 1, 0x0, 16, 4, .ro, 0⟩,
  ⟨0x60060004, 1, 0x0, 1, 0x0, 4, 4, .ro, 0⟩,
  ⟨0x60060004, 1, 0x0, 1, 0x0, 0, 2, .ro, 0⟩,
  ⟨0x60060010, 4, 0x4, 1, 0x0, 16, 16, .ro, 0⟩,
  ⟨0x60060010, 4, 0x4, 1, 0x0, 0, 2, .ro, 3⟩,
  ⟨0x60060020, 17, 0x4, 1, 0x0, 0, 32, .rwl .armed, 0⟩,
  ⟨0x60060064, 1, 0x0, 1, 0x0, 0, 8, .ro, 0⟩,
  ⟨0x60060068, 1, 0x0, 1, 0x0, 0, 8, .rw, 0⟩,
  ⟨0x6006006C, 1, 0x0, 1, 0x0, 10, 2, .ro, 3⟩,
  ⟨0x6006006C, 1, 0x0, 1, 0x0, 0, 9, .ro, 0⟩,
  ⟨0x60060070, 1, 0x0, 1, 0x0, 0, 24, .ro, 0⟩,
  ⟨0x60060074, 1, 0x0, 1, 0x0, 0, 4, .w1c, 0⟩]

/-! ### LCP -/

-- LCP_CTL (R261, R262)
def LCP_CTL_EN (n : Nat) : Fld := ⟨0x60070000 + 0x100 * n, 31, 1⟩
def LCP_CTL_NDRV (n : Nat) : Fld := ⟨0x60070000 + 0x100 * n, 0, 5⟩
-- LCP_STAT (R261, R262)
def LCP_STAT_NRET (n : Nat) : Fld := ⟨0x60070004 + 0x100 * n, 16, 5⟩
def LCP_STAT_LOOP_ERR (n : Nat) : Fld := ⟨0x60070004 + 0x100 * n, 8, 8⟩
def LCP_STAT_STATE (n : Nat) : Fld := ⟨0x60070004 + 0x100 * n, 0, 3⟩
-- LCP_SUB (R261, R262)
def LCP_SUB_REQ (n : Nat) : Fld := ⟨0x60070008 + 0x100 * n, 31, 1⟩
def LCP_SUB_TMO_S (n : Nat) : Fld := ⟨0x60070008 + 0x100 * n, 16, 8⟩
def LCP_SUB_DRV (n : Nat) : Fld := ⟨0x60070008 + 0x100 * n, 0, 4⟩
-- LCP_DRVST (R261, R262)
def LCP_DRVST_ST (n : Nat) : Fld := ⟨0x6007000C + 0x100 * n, 0, 32⟩
-- LCP_FAULT (R261, R262)
def LCP_FAULT_SRC : Fld := ⟨0x60070200, 0, 6⟩

/-- The map of the LCP block. -/
def rowsLCP : List Row := [
  ⟨0x60070000, 2, 0x100, 1, 0x0, 31, 1, .w1s, 0⟩,
  ⟨0x60070000, 2, 0x100, 1, 0x0, 0, 5, .rwl .armed, 0⟩,
  ⟨0x60070004, 2, 0x100, 1, 0x0, 16, 5, .ro, 0⟩,
  ⟨0x60070004, 2, 0x100, 1, 0x0, 8, 8, .ro, 0⟩,
  ⟨0x60070004, 2, 0x100, 1, 0x0, 0, 3, .ro, 0⟩,
  ⟨0x60070008, 2, 0x100, 1, 0x0, 31, 1, .sc, 0⟩,
  ⟨0x60070008, 2, 0x100, 1, 0x0, 16, 8, .rw, 0⟩,
  ⟨0x60070008, 2, 0x100, 1, 0x0, 0, 4, .rw, 0⟩,
  ⟨0x6007000C, 2, 0x100, 1, 0x0, 0, 32, .ro, 0⟩,
  ⟨0x60070200, 1, 0x0, 1, 0x0, 0, 6, .w1c, 0⟩]

/-! ### PSCH -/

-- PSCH_CTL (R309)
def PSCH_CTL_APPLY_EN : Fld := ⟨0x60080000, 1, 1⟩
def PSCH_CTL_EN : Fld := ⟨0x60080000, 0, 1⟩
-- PSCH_STAT (R309)
def PSCH_STAT_FENCED : Fld := ⟨0x60080004, 15, 1⟩
def PSCH_STAT_APPLY : Fld := ⟨0x60080004, 14, 1⟩
def PSCH_STAT_SPD : Fld := ⟨0x60080004, 12, 2⟩
def PSCH_STAT_YAW : Fld := ⟨0x60080004, 10, 2⟩
def PSCH_STAT_WHL_OK : Fld := ⟨0x60080004, 4, 4⟩
def PSCH_STAT_LOC : Fld := ⟨0x60080004, 0, 2⟩
-- PSCH_AP_BASE (R309)
def PSCH_AP_BASE_BASE : Fld := ⟨0x60080008, 6, 26⟩
-- PSCH_AP_POST (R309)
def PSCH_AP_POST_INDEX : Fld := ⟨0x6008000C, 0, 8⟩
-- PSCH_AP_CLR (R309)
def PSCH_AP_CLR_FLT : Fld := ⟨0x60080010, 31, 1⟩
def PSCH_AP_CLR_INDEX : Fld := ⟨0x60080010, 0, 8⟩
-- PSCH_POST_STAT (R309)
def PSCH_POST_STAT_AP_REJ : Fld := ⟨0x60080014, 31, 1⟩
def PSCH_POST_STAT_EV_REJ : Fld := ⟨0x60080014, 30, 1⟩
def PSCH_POST_STAT_AP_INDEX : Fld := ⟨0x60080014, 16, 8⟩
def PSCH_POST_STAT_EV_SLOT : Fld := ⟨0x60080014, 0, 12⟩
-- PSCH_EV_SPLIT (R309)
def PSCH_EV_SPLIT_FW_SLOTS : Fld := ⟨0x60080018, 0, 13⟩
-- PSCH_EV_STAT (R309)
def PSCH_EV_STAT_FW_PEND : Fld := ⟨0x6008001C, 16, 13⟩
def PSCH_EV_STAT_COV_PEND : Fld := ⟨0x6008001C, 0, 13⟩
-- PSCH_EV_W (R309)
def PSCH_EV_W_W (i : Nat) : Fld := ⟨0x60080020 + 0x4 * i, 0, 32⟩
-- PSCH_EV_CMD (R309)
def PSCH_EV_CMD_OP : Fld := ⟨0x60080030, 30, 2⟩
def PSCH_EV_CMD_SLOT : Fld := ⟨0x60080030, 0, 12⟩
-- PSCH_WHL_CFG (R309)
def PSCH_WHL_CFG_EN (i : Nat) : Fld := ⟨0x60080040 + 0x4 * i, 31, 1⟩
def PSCH_WHL_CFG_TCH (i : Nat) : Fld := ⟨0x60080040 + 0x4 * i, 16, 5⟩
def PSCH_WHL_CFG_Y_MM (i : Nat) : Fld := ⟨0x60080040 + 0x4 * i, 0, 16⟩
-- PSCH_WHL_SCALE (R309)
def PSCH_WHL_SCALE_SCALE (i : Nat) : Fld := ⟨0x60080050 + 0x4 * i, 0, 32⟩
-- PSCH_SPD_CFG (R309)
def PSCH_SPD_CFG_STOP_MS : Fld := ⟨0x60080060, 16, 16⟩
def PSCH_SPD_CFG_SLIP_PCT : Fld := ⟨0x60080060, 8, 8⟩
def PSCH_SPD_CFG_FB : Fld := ⟨0x60080060, 4, 2⟩
def PSCH_SPD_CFG_DIR_SRC : Fld := ⟨0x60080060, 0, 2⟩
-- PSCH_DIR (R309)
def PSCH_DIR_QCAPT : Fld := ⟨0x60080064, 8, 4⟩
def PSCH_DIR_REV : Fld := ⟨0x60080064, 0, 1⟩
-- PSCH_VFW (R309)
def PSCH_VFW_V_MM_S : Fld := ⟨0x60080068, 0, 32⟩
-- PSCH_YAW_CFG (R309)
def PSCH_YAW_CFG_EN : Fld := ⟨0x60080070, 31, 1⟩
def PSCH_YAW_CFG_SENT : Fld := ⟨0x60080070, 24, 4⟩
def PSCH_YAW_CFG_FIELD : Fld := ⟨0x60080070, 20, 2⟩
def PSCH_YAW_CFG_FB : Fld := ⟨0x60080070, 16, 2⟩
def PSCH_YAW_CFG_ZRU : Fld := ⟨0x60080070, 8, 8⟩
def PSCH_YAW_CFG_TMO_MS : Fld := ⟨0x60080070, 0, 8⟩
-- PSCH_YAW_GAIN (R309)
def PSCH_YAW_GAIN_GAIN : Fld := ⟨0x60080074, 0, 32⟩
-- PSCH_YAW_ZERO (R309)
def PSCH_YAW_ZERO_ZERO : Fld := ⟨0x60080078, 0, 32⟩
-- PSCH_YAW_BIAS (R309)
def PSCH_YAW_BIAS_BIAS : Fld := ⟨0x6008007C, 0, 32⟩
-- PSCH_CORR_E (R309)
def PSCH_CORR_E_MM : Fld := ⟨0x60080080, 0, 32⟩
-- PSCH_CORR_N (R309)
def PSCH_CORR_N_MM : Fld := ⟨0x60080084, 0, 32⟩
-- PSCH_CORR_H (R309)
def PSCH_CORR_H_H : Fld := ⟨0x60080088, 0, 16⟩
-- PSCH_CORR_U (R309)
def PSCH_CORR_U_U_MM : Fld := ⟨0x6008008C, 0, 16⟩
-- PSCH_CORR_CMD (R309)
def PSCH_CORR_CMD_OP : Fld := ⟨0x60080090, 30, 2⟩
def PSCH_CORR_CMD_FORCE : Fld := ⟨0x60080090, 8, 1⟩
def PSCH_CORR_CMD_SPREAD : Fld := ⟨0x60080090, 0, 8⟩
-- PSCH_CORR_CFG (R309)
def PSCH_CORR_CFG_CORR_MAX_MM : Fld := ⟨0x60080094, 16, 16⟩
def PSCH_CORR_CFG_GNSS_TMO_MS : Fld := ⟨0x60080094, 0, 16⟩
-- PSCH_LOC_CFG (R309)
def PSCH_LOC_CFG_U_LIM_MM : Fld := ⟨0x60080098, 16, 16⟩
def PSCH_LOC_CFG_DRIFT : Fld := ⟨0x60080098, 0, 16⟩
-- PSCH_WIN_V (R309)
def PSCH_WIN_V_V_MAX : Fld := ⟨0x600800A0, 16, 16⟩
def PSCH_WIN_V_V_MIN : Fld := ⟨0x600800A0, 0, 16⟩
-- PSCH_WIN_CFG (R309)
def PSCH_WIN_CFG_HYST : Fld := ⟨0x600800A4, 16, 16⟩
def PSCH_WIN_CFG_DWELL : Fld := ⟨0x600800A4, 8, 8⟩
def PSCH_WIN_CFG_REV_OK : Fld := ⟨0x600800A4, 0, 1⟩
-- PSCH_EV_CFG (R309)
def PSCH_EV_CFG_LATE_TOL_US : Fld := ⟨0x600800A8, 0, 16⟩
-- PSCH_TL_WIN (R309)
def PSCH_TL_WIN_V_CAP : Fld := ⟨0x600800B0, 0, 16⟩
-- PSCH_REF_E (R309)
def PSCH_REF_E_MM : Fld := ⟨0x60080100, 0, 32⟩
-- PSCH_REF_N (R309)
def PSCH_REF_N_MM : Fld := ⟨0x60080104, 0, 32⟩
-- PSCH_REF_H (R309)
def PSCH_REF_H_H : Fld := ⟨0x60080108, 0, 16⟩
-- PSCH_REF_YAW (R309)
def PSCH_REF_YAW_YAW : Fld := ⟨0x6008010C, 0, 32⟩
-- PSCH_REF_V (R309)
def PSCH_REF_V_V : Fld := ⟨0x60080110, 0, 32⟩
-- PSCH_REF_PATH (R309)
def PSCH_REF_PATH_PATH : Fld := ⟨0x60080114, 0, 32⟩
-- PSCH_REF_U (R309)
def PSCH_REF_U_U : Fld := ⟨0x60080118, 0, 16⟩
-- PSCH_FIRED_SEQ (R309)
def PSCH_FIRED_SEQ_SEQ : Fld := ⟨0x6008011C, 0, 32⟩
-- PSCH_FAULT (R309)
def PSCH_FAULT_SRC : Fld := ⟨0x60080120, 0, 16⟩
-- PSCH_TL_LAT_ON (R309)
def PSCH_TL_LAT_ON_HI (i : Nat) : Fld := ⟨0x60085000 + 0x8 * i, 16, 16⟩
def PSCH_TL_LAT_ON_LO (i : Nat) : Fld := ⟨0x60085000 + 0x8 * i, 0, 16⟩
-- PSCH_TL_LAT_OFF (R309)
def PSCH_TL_LAT_OFF_HI (i : Nat) : Fld := ⟨0x60085004 + 0x8 * i, 16, 16⟩
def PSCH_TL_LAT_OFF_LO (i : Nat) : Fld := ⟨0x60085004 + 0x8 * i, 0, 16⟩

/-- The map of the PSCH block, part 0. -/
def rowsPSCH0 : List Row := [
  ⟨0x60080000, 1, 0x0, 1, 0x0, 1, 1, .rw, 0⟩,
  ⟨0x60080000, 1, 0x0, 1, 0x0, 0, 1, .w1s, 0⟩,
  ⟨0x60080004, 1, 0x0, 1, 0x0, 15, 1, .ro, 0⟩,
  ⟨0x60080004, 1, 0x0, 1, 0x0, 14, 1, .ro, 0⟩,
  ⟨0x60080004, 1, 0x0, 1, 0x0, 12, 2, .ro, 2⟩,
  ⟨0x60080004, 1, 0x0, 1, 0x0, 10, 2, .ro, 2⟩,
  ⟨0x60080004, 1, 0x0, 1, 0x0, 4, 4, .ro, 0⟩,
  ⟨0x60080004, 1, 0x0, 1, 0x0, 0, 2, .ro, 0⟩,
  ⟨0x60080008, 1, 0x0, 1, 0x0, 6, 26, .rwl .run, 0⟩,
  ⟨0x6008000C, 1, 0x0, 1, 0x0, 0, 8, .wo, 0⟩,
  ⟨0x60080010, 1, 0x0, 1, 0x0, 31, 1, .wo, 0⟩,
  ⟨0x60080010, 1, 0x0, 1, 0x0, 0, 8, .wo, 0⟩,
  ⟨0x60080014, 1, 0x0, 1, 0x0, 31, 1, .w1c, 0⟩,
  ⟨0x60080014, 1, 0x0, 1, 0x0, 30, 1, .w1c, 0⟩,
  ⟨0x60080014, 1, 0x0, 1, 0x0, 16, 8, .ro, 0⟩,
  ⟨0x60080014, 1, 0x0, 1, 0x0, 0, 12, .ro, 0⟩,
  ⟨0x60080018, 1, 0x0, 1, 0x0, 0, 13, .rwl .armed, 2048⟩,
  ⟨0x6008001C, 1, 0x0, 1, 0x0, 16, 13, .ro, 0⟩,
  ⟨0x6008001C, 1, 0x0, 1, 0x0, 0, 13, .ro, 0⟩,
  ⟨0x60080020, 4, 0x4, 1, 0x0, 0, 32, .rw, 0⟩,
  ⟨0x60080030, 1, 0x0, 1, 0x0, 30, 2, .wo, 0⟩,
  ⟨0x60080030, 1, 0x0, 1, 0x0, 0, 12, .wo, 0⟩,
  ⟨0x60080040, 4, 0x4, 1, 0x0, 31, 1, .rw, 0⟩,
  ⟨0x60080040, 4, 0x4, 1, 0x0, 16, 5, .rw, 0⟩,
  ⟨0x60080040, 4, 0x4, 1, 0x0, 0, 16, .rw, 0⟩,
  ⟨0x60080050, 4, 0x4, 1, 0x0, 0, 32, .rw, 0⟩,
  ⟨0x60080060, 1, 0x0, 1, 0x0, 16, 16, .rw, 500⟩,
  ⟨0x60080060, 1, 0x0, 1, 0x0, 8, 8, .rw, 15⟩,
  ⟨0x60080060, 1, 0x0, 1, 0x0, 4, 2, .rw, 0⟩,
  ⟨0x60080060, 1, 0x0, 1, 0x0, 0, 2, .rw, 0⟩,
  ⟨0x60080064, 1, 0x0, 1, 0x0, 8, 4, .rw, 0⟩,
  ⟨0x60080064, 1, 0x0, 1, 0x0, 0, 1, .rw, 0⟩,
  ⟨0x60080068, 1, 0x0, 1, 0x0, 0, 32, .rw, 0⟩,
  ⟨0x60080070, 1, 0x0, 1, 0x0, 31, 1, .rw, 0⟩,
  ⟨0x60080070, 1, 0x0, 1, 0x0, 24, 4, .rw, 0⟩,
  ⟨0x60080070, 1, 0x0, 1, 0x0, 20, 2, .rw, 0⟩,
  ⟨0x60080070, 1, 0x0, 1, 0x0, 16, 2, .rw, 0⟩,
  ⟨0x60080070, 1, 0x0, 1, 0x0, 8, 8, .rw, 20⟩,
  ⟨0x60080070, 1, 0x0, 1, 0x0, 0, 8, .rw, 10⟩,
  ⟨0x60080074, 1, 0x0, 1, 0x0, 0, 32, .rw, 0⟩]

/-- The map of the PSCH block, part 1. -/
def rowsPSCH1 : List Row := [
  ⟨0x60080078, 1, 0x0, 1, 0x0, 0, 32, .rw, 0⟩,
  ⟨0x6008007C, 1, 0x0, 1, 0x0, 0, 32, .ro, 0⟩,
  ⟨0x60080080, 1, 0x0, 1, 0x0, 0, 32, .rw, 0⟩,
  ⟨0x60080084, 1, 0x0, 1, 0x0, 0, 32, .rw, 0⟩,
  ⟨0x60080088, 1, 0x0, 1, 0x0, 0, 16, .rw, 0⟩,
  ⟨0x6008008C, 1, 0x0, 1, 0x0, 0, 16, .rw, 0⟩,
  ⟨0x60080090, 1, 0x0, 1, 0x0, 30, 2, .wo, 0⟩,
  ⟨0x60080090, 1, 0x0, 1, 0x0, 8, 1, .wo, 0⟩,
  ⟨0x60080090, 1, 0x0, 1, 0x0, 0, 8, .wo, 0⟩,
  ⟨0x60080094, 1, 0x0, 1, 0x0, 16, 16, .rw, 500⟩,
  ⟨0x60080094, 1, 0x0, 1, 0x0, 0, 16, .rw, 300⟩,
  ⟨0x60080098, 1, 0x0, 1, 0x0, 16, 16, .rw, 300⟩,
  ⟨0x60080098, 1, 0x0, 1, 0x0, 0, 16, .rw, 655⟩,
  ⟨0x600800A0, 1, 0x0, 1, 0x0, 16, 16, .rw, 0⟩,
  ⟨0x600800A0, 1, 0x0, 1, 0x0, 0, 16, .rw, 0⟩,
  ⟨0x600800A4, 1, 0x0, 1, 0x0, 16, 16, .rw, 100⟩,
  ⟨0x600800A4, 1, 0x0, 1, 0x0, 8, 8, .rw, 10⟩,
  ⟨0x600800A4, 1, 0x0, 1, 0x0, 0, 1, .rw, 0⟩,
  ⟨0x600800A8, 1, 0x0, 1, 0x0, 0, 16, .rw, 100⟩,
  ⟨0x600800B0, 1, 0x0, 1, 0x0, 0, 16, .rwl .armed, 0⟩,
  ⟨0x60080100, 1, 0x0, 1, 0x0, 0, 32, .ro, 0⟩,
  ⟨0x60080104, 1, 0x0, 1, 0x0, 0, 32, .ro, 0⟩,
  ⟨0x60080108, 1, 0x0, 1, 0x0, 0, 16, .ro, 0⟩,
  ⟨0x6008010C, 1, 0x0, 1, 0x0, 0, 32, .ro, 0⟩,
  ⟨0x60080110, 1, 0x0, 1, 0x0, 0, 32, .ro, 0⟩,
  ⟨0x60080114, 1, 0x0, 1, 0x0, 0, 32, .ro, 0⟩,
  ⟨0x60080118, 1, 0x0, 1, 0x0, 0, 16, .ro, 0⟩,
  ⟨0x6008011C, 1, 0x0, 1, 0x0, 0, 32, .ro, 0⟩,
  ⟨0x60080120, 1, 0x0, 1, 0x0, 0, 16, .w1c, 0⟩,
  ⟨0x60085000, 136, 0x8, 1, 0x0, 16, 16, .rwl .armed, 0⟩,
  ⟨0x60085000, 136, 0x8, 1, 0x0, 0, 16, .rwl .armed, 0⟩,
  ⟨0x60085004, 136, 0x8, 1, 0x0, 16, 16, .rwl .armed, 0⟩,
  ⟨0x60085004, 136, 0x8, 1, 0x0, 0, 16, .rwl .armed, 0⟩]

/-- The map of the PSCH block. -/
def rowsPSCH : List Row := rowsPSCH0 ++ rowsPSCH1

/-! ### COV -/

-- COV_CTL (R360)
def COV_CTL_AUTO_EN : Fld := ⟨0x60090000, 2, 1⟩
def COV_CTL_PAINT_EN : Fld := ⟨0x60090000, 1, 1⟩
def COV_CTL_EN : Fld := ⟨0x60090000, 0, 1⟩
-- COV_STAT (R360)
def COV_STAT_LOST : Fld := ⟨0x60090004, 16, 16⟩
def COV_STAT_CMD_REJ : Fld := ⟨0x60090004, 5, 1⟩
def COV_STAT_FLUSH_BUSY : Fld := ⟨0x60090004, 4, 1⟩
def COV_STAT_DIRTY : Fld := ⟨0x60090004, 3, 1⟩
def COV_STAT_STATE : Fld := ⟨0x60090004, 0, 3⟩
-- COV_FIELD_CMD (R360)
def COV_FIELD_CMD_OP : Fld := ⟨0x60090008, 29, 3⟩
def COV_FIELD_CMD_ID : Fld := ⟨0x60090008, 0, 16⟩
-- COV_FIELD_CFG (R360)
def COV_FIELD_CFG_EXCL_DEF : Fld := ⟨0x6009000C, 4, 1⟩
def COV_FIELD_CFG_CELL : Fld := ⟨0x6009000C, 0, 2⟩
-- COV_ORG_E (R360)
def COV_ORG_E_MM : Fld := ⟨0x60090010, 0, 32⟩
-- COV_ORG_N (R360)
def COV_ORG_N_MM : Fld := ⟨0x60090014, 0, 32⟩
-- COV_FIELD_STAT (R360)
def COV_FIELD_STAT_ID : Fld := ⟨0x60090018, 16, 16⟩
def COV_FIELD_STAT_NFIELD : Fld := ⟨0x60090018, 0, 5⟩
-- COV_LOUPE0 (R360)
def COV_LOUPE0_EXC_PCT : Fld := ⟨0x60090020, 24, 8⟩
def COV_LOUPE0_OVL_PCT : Fld := ⟨0x60090020, 16, 8⟩
def COV_LOUPE0_LEN_MM : Fld := ⟨0x60090020, 0, 16⟩
-- COV_LOUPE1 (R360)
def COV_LOUPE1_MIN_RUN_MM : Fld := ⟨0x60090024, 16, 16⟩
def COV_LOUPE1_WPCT : Fld := ⟨0x60090024, 8, 8⟩
def COV_LOUPE1_UNK_SHUT : Fld := ⟨0x60090024, 4, 1⟩
def COV_LOUPE1_THR : Fld := ⟨0x60090024, 0, 2⟩
-- COV_AUTO_OFS (R360)
def COV_AUTO_OFS_CLOSE_OFS : Fld := ⟨0x60090028, 16, 16⟩
def COV_AUTO_OFS_OPEN_OFS : Fld := ⟨0x60090028, 0, 16⟩
-- COV_PAGE_CFG (R360)
def COV_PAGE_CFG_WB_MIN_S : Fld := ⟨0x6009002C, 16, 16⟩
def COV_PAGE_CFG_RADIUS : Fld := ⟨0x6009002C, 0, 8⟩
-- COV_EDIT_A (R360)
def COV_EDIT_A_Y0 : Fld := ⟨0x60090030, 16, 16⟩
def COV_EDIT_A_X0 : Fld := ⟨0x60090030, 0, 16⟩
-- COV_EDIT_B (R360)
def COV_EDIT_B_Y1 : Fld := ⟨0x60090034, 16, 16⟩
def COV_EDIT_B_X1 : Fld := ⟨0x60090034, 0, 16⟩
-- COV_EDIT_CMD (R360)
def COV_EDIT_CMD_OP : Fld := ⟨0x60090038, 30, 2⟩
def COV_EDIT_CMD_LAYER : Fld := ⟨0x60090038, 24, 2⟩
def COV_EDIT_CMD_VALUE : Fld := ⟨0x60090038, 0, 8⟩
-- COV_EDIT_SRC (R360)
def COV_EDIT_SRC_ADDR : Fld := ⟨0x6009003C, 12, 20⟩
-- COV_EDIT_STAT (R360)
def COV_EDIT_STAT_REJ : Fld := ⟨0x60090040, 31, 1⟩
def COV_EDIT_STAT_BUSY : Fld := ⟨0x60090040, 30, 1⟩
def COV_EDIT_STAT_DONE : Fld := ⟨0x60090040, 0, 16⟩
-- COV_AREA (R360)
def COV_AREA_CELLS (i : Nat) : Fld := ⟨0x60090050 + 0x4 * i, 0, 32⟩
-- COV_MEM (R360)
def COV_MEM_FREE_BLK : Fld := ⟨0x60090060, 16, 16⟩
def COV_MEM_DIRTY_BLK : Fld := ⟨0x60090060, 0, 16⟩
-- COV_STORE (R360)
def COV_STORE_FREE_BLK : Fld := ⟨0x60090064, 16, 16⟩
def COV_STORE_SEQ : Fld := ⟨0x60090064, 0, 16⟩
-- COV_CYC (R360)
def COV_CYC_PEAK_US : Fld := ⟨0x60090068, 16, 16⟩
def COV_CYC_LAST_US : Fld := ⟨0x60090068, 0, 16⟩
-- COV_FAULT (R360)
def COV_FAULT_SRC : Fld := ⟨0x6009006C, 0, 16⟩
-- COV_WANT (R360)
def COV_WANT_W (i : Nat) : Fld := ⟨0x60090080 + 0x4 * i, 0, 32⟩
-- COV_APCFG (R360)
def COV_APCFG_PAINT (i : Nat) : Fld := ⟨0x60090400 + 0x4 * i, 31, 1⟩
def COV_APCFG_LOUPE (i : Nat) : Fld := ⟨0x60090400 + 0x4 * i, 30, 1⟩
def COV_APCFG_AUTO (i : Nat) : Fld := ⟨0x60090400 + 0x4 * i, 29, 1⟩
def COV_APCFG_CHK_EN (i : Nat) : Fld := ⟨0x60090400 + 0x4 * i, 9, 1⟩
def COV_APCFG_CHK_CH (i : Nat) : Fld := ⟨0x60090400 + 0x4 * i, 0, 9⟩

/-- The map of the COV block, part 0. -/
def rowsCOV0 : List Row := [
  ⟨0x60090000, 1, 0x0, 1, 0x0, 2, 1, .rw, 0⟩,
  ⟨0x60090000, 1, 0x0, 1, 0x0, 1, 1, .rw, 0⟩,
  ⟨0x60090000, 1, 0x0, 1, 0x0, 0, 1, .w1s, 0⟩,
  ⟨0x60090004, 1, 0x0, 1, 0x0, 16, 16, .ro, 0⟩,
  ⟨0x60090004, 1, 0x0, 1, 0x0, 5, 1, .w1c, 0⟩,
  ⟨0x60090004, 1, 0x0, 1, 0x0, 4, 1, .ro, 0⟩,
  ⟨0x60090004, 1, 0x0, 1, 0x0, 3, 1, .ro, 0⟩,
  ⟨0x60090004, 1, 0x0, 1, 0x0, 0, 3, .ro, 0⟩,
  ⟨0x60090008, 1, 0x0, 1, 0x0, 29, 3, .wo, 0⟩,
  ⟨0x60090008, 1, 0x0, 1, 0x0, 0, 16, .wo, 0⟩,
  ⟨0x6009000C, 1, 0x0, 1, 0x0, 4, 1, .rw, 0⟩,
  ⟨0x6009000C, 1, 0x0, 1, 0x0, 0, 2, .rw, 1⟩,
  ⟨0x60090010, 1, 0x0, 1, 0x0, 0, 32, .rw, 0⟩,
  ⟨0x60090014, 1, 0x0, 1, 0x0, 0, 32, .rw, 0⟩,
  ⟨0x60090018, 1, 0x0, 1, 0x0, 16, 16, .ro, 0⟩,
  ⟨0x60090018, 1, 0x0, 1, 0x0, 0, 5, .ro, 0⟩,
  ⟨0x60090020, 1, 0x0, 1, 0x0, 24, 8, .rw, 0⟩,
  ⟨0x60090020, 1, 0x0, 1, 0x0, 16, 8, .rw, 50⟩,
  ⟨0x60090020, 1, 0x0, 1, 0x0, 0, 16, .rw, 10000⟩,
  ⟨0x60090024, 1, 0x0, 1, 0x0, 16, 16, .rw, 500⟩,
  ⟨0x60090024, 1, 0x0, 1, 0x0, 8, 8, .rw, 100⟩,
  ⟨0x60090024, 1, 0x0, 1, 0x0, 4, 1, .rw, 0⟩,
  ⟨0x60090024, 1, 0x0, 1, 0x0, 0, 2, .rw, 1⟩,
  ⟨0x60090028, 1, 0x0, 1, 0x0, 16, 16, .rw, 0⟩,
  ⟨0x60090028, 1, 0x0, 1, 0x0, 0, 16, .rw, 0⟩,
  ⟨0x6009002C, 1, 0x0, 1, 0x0, 16, 16, .rw, 60⟩,
  ⟨0x6009002C, 1, 0x0, 1, 0x0, 0, 8, .rw, 2⟩,
  ⟨0x60090030, 1, 0x0, 1, 0x0, 16, 16, .rw, 0⟩,
  ⟨0x60090030, 1, 0x0, 1, 0x0, 0, 16, .rw, 0⟩,
  ⟨0x60090034, 1, 0x0, 1, 0x0, 16, 16, .rw, 0⟩,
  ⟨0x60090034, 1, 0x0, 1, 0x0, 0, 16, .rw, 0⟩,
  ⟨0x60090038, 1, 0x0, 1, 0x0, 30, 2, .wo, 0⟩,
  ⟨0x60090038, 1, 0x0, 1, 0x0, 24, 2, .wo, 0⟩,
  ⟨0x60090038, 1, 0x0, 1, 0x0, 0, 8, .wo, 0⟩,
  ⟨0x6009003C, 1, 0x0, 1, 0x0, 12, 20, .rw, 0⟩,
  ⟨0x60090040, 1, 0x0, 1, 0x0, 31, 1, .w1c, 0⟩,
  ⟨0x60090040, 1, 0x0, 1, 0x0, 30, 1, .ro, 0⟩,
  ⟨0x60090040, 1, 0x0, 1, 0x0, 0, 16, .ro, 0⟩,
  ⟨0x60090050, 3, 0x4, 1, 0x0, 0, 32, .ro, 0⟩,
  ⟨0x60090060, 1, 0x0, 1, 0x0, 16, 16, .ro, 2048⟩]

/-- The map of the COV block, part 1. -/
def rowsCOV1 : List Row := [
  ⟨0x60090060, 1, 0x0, 1, 0x0, 0, 16, .ro, 0⟩,
  ⟨0x60090064, 1, 0x0, 1, 0x0, 16, 16, .ro, 0⟩,
  ⟨0x60090064, 1, 0x0, 1, 0x0, 0, 16, .ro, 0⟩,
  ⟨0x60090068, 1, 0x0, 1, 0x0, 16, 16, .ro, 0⟩,
  ⟨0x60090068, 1, 0x0, 1, 0x0, 0, 16, .ro, 0⟩,
  ⟨0x6009006C, 1, 0x0, 1, 0x0, 0, 16, .w1c, 0⟩,
  ⟨0x60090080, 8, 0x4, 1, 0x0, 0, 32, .rw, 0⟩,
  ⟨0x60090400, 256, 0x4, 1, 0x0, 31, 1, .rw, 0⟩,
  ⟨0x60090400, 256, 0x4, 1, 0x0, 30, 1, .rw, 0⟩,
  ⟨0x60090400, 256, 0x4, 1, 0x0, 29, 1, .rw, 0⟩,
  ⟨0x60090400, 256, 0x4, 1, 0x0, 9, 1, .rw, 0⟩,
  ⟨0x60090400, 256, 0x4, 1, 0x0, 0, 9, .rw, 0⟩]

/-- The map of the COV block. -/
def rowsCOV : List Row := rowsCOV0 ++ rowsCOV1

/-! ### TMR -/

-- TMR_BASE (R386, R387)
def TMR_BASE_BASE : Fld := ⟨0x600A0000, 6, 26⟩
-- TMR_POST (R386, R387)
def TMR_POST_INDEX : Fld := ⟨0x600A0004, 0, 5⟩
-- TMR_CLR (R386, R387)
def TMR_CLR_CNT : Fld := ⟨0x600A0008, 31, 1⟩
def TMR_CLR_FLAGS : Fld := ⟨0x600A0008, 30, 1⟩
def TMR_CLR_INDEX : Fld := ⟨0x600A0008, 0, 5⟩
-- TMR_POST_STAT (R386, R387)
def TMR_POST_STAT_REJ : Fld := ⟨0x600A000C, 31, 1⟩
def TMR_POST_STAT_REJ_INDEX : Fld := ⟨0x600A000C, 0, 5⟩
-- TMR_STAT (R386, R387)
def TMR_STAT_FENCED : Fld := ⟨0x600A0010, 0, 8⟩
-- TMR_RPT (R386, R387)
def TMR_RPT_CH : Fld := ⟨0x600A0014, 0, 32⟩
-- TMR_FAULT (R386, R387)
def TMR_FAULT_SRC : Fld := ⟨0x600A0018, 0, 16⟩

/-- The map of the TMR block. -/
def rowsTMR : List Row := [
  ⟨0x600A0000, 1, 0x0, 1, 0x0, 6, 26, .rwl .run, 0⟩,
  ⟨0x600A0004, 1, 0x0, 1, 0x0, 0, 5, .wo, 0⟩,
  ⟨0x600A0008, 1, 0x0, 1, 0x0, 31, 1, .wo, 0⟩,
  ⟨0x600A0008, 1, 0x0, 1, 0x0, 30, 1, .wo, 0⟩,
  ⟨0x600A0008, 1, 0x0, 1, 0x0, 0, 5, .wo, 0⟩,
  ⟨0x600A000C, 1, 0x0, 1, 0x0, 31, 1, .w1c, 0⟩,
  ⟨0x600A000C, 1, 0x0, 1, 0x0, 0, 5, .ro, 0⟩,
  ⟨0x600A0010, 1, 0x0, 1, 0x0, 0, 8, .ro, 0⟩,
  ⟨0x600A0014, 1, 0x0, 1, 0x0, 0, 32, .rw, 0⟩,
  ⟨0x600A0018, 1, 0x0, 1, 0x0, 0, 16, .w1c, 0⟩]

/-! ### FLD -/

-- FLD_CTL (R418)
def FLD_CTL_EN : Fld := ⟨0x600B0000, 31, 1⟩
def FLD_CTL_RESUME : Fld := ⟨0x600B0000, 4, 1⟩
def FLD_CTL_TEST_REQ : Fld := ⟨0x600B0000, 3, 1⟩
def FLD_CTL_TEST_SEL : Fld := ⟨0x600B0000, 0, 2⟩
-- FLD_STAT (R418)
def FLD_STAT_TMO_ACT : Fld := ⟨0x600B0004, 15, 1⟩
def FLD_STAT_FENCED : Fld := ⟨0x600B0004, 14, 1⟩
def FLD_STAT_VF_OK : Fld := ⟨0x600B0004, 13, 1⟩
def FLD_STAT_BAR_OK : Fld := ⟨0x600B0004, 12, 1⟩
def FLD_STAT_LINK : Fld := ⟨0x600B0004, 6, 2⟩
def FLD_STAT_MODE : Fld := ⟨0x600B0004, 0, 2⟩
-- FLD_TIMEOUT (R418)
def FLD_TIMEOUT_MODE_MAX_MS : Fld := ⟨0x600B0008, 16, 16⟩
def FLD_TIMEOUT_TIMEOUT_MS : Fld := ⟨0x600B0008, 0, 8⟩
-- FLD_IN_CFG (R418)
def FLD_IN_CFG_SPER : Fld := ⟨0x600B000C, 0, 16⟩
-- FLD_IN (R418)
def FLD_IN_RAW : Fld := ⟨0x600B0010, 16, 16⟩
def FLD_IN_LEVEL : Fld := ⟨0x600B0010, 0, 16⟩
-- FLD_VFIELD (R418)
def FLD_VFIELD_V : Fld := ⟨0x600B0014, 16, 16⟩
def FLD_VFIELD_I_TOTAL : Fld := ⟨0x600B0014, 0, 16⟩
-- FLD_LINK (R418)
def FLD_LINK_DN_ERR : Fld := ⟨0x600B0018, 16, 16⟩
def FLD_LINK_UP_ERR : Fld := ⟨0x600B0018, 0, 16⟩
-- FLD_FAULT (R418)
def FLD_FAULT_SRC : Fld := ⟨0x600B001C, 0, 32⟩

/-- The map of the FLD block. -/
def rowsFLD : List Row := [
  ⟨0x600B0000, 1, 0x0, 1, 0x0, 31, 1, .w1s, 0⟩,
  ⟨0x600B0000, 1, 0x0, 1, 0x0, 4, 1, .wo, 0⟩,
  ⟨0x600B0000, 1, 0x0, 1, 0x0, 3, 1, .wo, 0⟩,
  ⟨0x600B0000, 1, 0x0, 1, 0x0, 0, 2, .rw, 0⟩,
  ⟨0x600B0004, 1, 0x0, 1, 0x0, 15, 1, .ro, 0⟩,
  ⟨0x600B0004, 1, 0x0, 1, 0x0, 14, 1, .ro, 0⟩,
  ⟨0x600B0004, 1, 0x0, 1, 0x0, 13, 1, .ro, 0⟩,
  ⟨0x600B0004, 1, 0x0, 1, 0x0, 12, 1, .ro, 0⟩,
  ⟨0x600B0004, 1, 0x0, 1, 0x0, 6, 2, .ro, 0⟩,
  ⟨0x600B0004, 1, 0x0, 1, 0x0, 0, 2, .ro, 1⟩,
  ⟨0x600B0008, 1, 0x0, 1, 0x0, 16, 16, .rwl .fld, 200⟩,
  ⟨0x600B0008, 1, 0x0, 1, 0x0, 0, 8, .rwl .fld, 10⟩,
  ⟨0x600B000C, 1, 0x0, 1, 0x0, 0, 16, .rw, 10⟩,
  ⟨0x600B0010, 1, 0x0, 1, 0x0, 16, 16, .ro, 0⟩,
  ⟨0x600B0010, 1, 0x0, 1, 0x0, 0, 16, .ro, 0⟩,
  ⟨0x600B0014, 1, 0x0, 1, 0x0, 16, 16, .ro, 0⟩,
  ⟨0x600B0014, 1, 0x0, 1, 0x0, 0, 16, .ro, 0⟩,
  ⟨0x600B0018, 1, 0x0, 1, 0x0, 16, 16, .ro, 0⟩,
  ⟨0x600B0018, 1, 0x0, 1, 0x0, 0, 16, .ro, 0⟩,
  ⟨0x600B001C, 1, 0x0, 1, 0x0, 0, 32, .w1c, 0⟩]

/-! ### CAN -/

-- CAN_CTL (R457)
def CAN_CTL_RECOVER (n : Nat) : Fld := ⟨0x600C0000 + 0x1000 * n, 8, 1⟩
def CAN_CTL_PXD (n : Nat) : Fld := ⟨0x600C0000 + 0x1000 * n, 5, 1⟩
def CAN_CTL_FD_EN (n : Nat) : Fld := ⟨0x600C0000 + 0x1000 * n, 3, 1⟩
def CAN_CTL_ROM (n : Nat) : Fld := ⟨0x600C0000 + 0x1000 * n, 1, 1⟩
def CAN_CTL_INIT (n : Nat) : Fld := ⟨0x600C0000 + 0x1000 * n, 0, 1⟩
-- CAN_STAT (R457)
def CAN_STAT_RCNT (n : Nat) : Fld := ⟨0x600C0004 + 0x1000 * n, 24, 8⟩
def CAN_STAT_DLEC (n : Nat) : Fld := ⟨0x600C0004 + 0x1000 * n, 12, 4⟩
def CAN_STAT_LEC (n : Nat) : Fld := ⟨0x600C0004 + 0x1000 * n, 8, 4⟩
def CAN_STAT_ROLE (n : Nat) : Fld := ⟨0x600C0004 + 0x1000 * n, 4, 4⟩
def CAN_STAT_STATE (n : Nat) : Fld := ⟨0x600C0004 + 0x1000 * n, 0, 4⟩
-- CAN_NBT (R457)
def CAN_NBT_NSJW (n : Nat) : Fld := ⟨0x600C0008 + 0x1000 * n, 24, 8⟩
def CAN_NBT_NTSEG2 (n : Nat) : Fld := ⟨0x600C0008 + 0x1000 * n, 16, 8⟩
def CAN_NBT_NTSEG1 (n : Nat) : Fld := ⟨0x600C0008 + 0x1000 * n, 8, 8⟩
def CAN_NBT_NBRP (n : Nat) : Fld := ⟨0x600C0008 + 0x1000 * n, 0, 8⟩
-- CAN_DBT (R457)
def CAN_DBT_DSJW (n : Nat) : Fld := ⟨0x600C000C + 0x1000 * n, 24, 4⟩
def CAN_DBT_DTSEG2 (n : Nat) : Fld := ⟨0x600C000C + 0x1000 * n, 16, 4⟩
def CAN_DBT_DTSEG1 (n : Nat) : Fld := ⟨0x600C000C + 0x1000 * n, 8, 5⟩
def CAN_DBT_DBRP (n : Nat) : Fld := ⟨0x600C000C + 0x1000 * n, 0, 5⟩
-- CAN_TDC (R457)
def CAN_TDC_TDC_EN (n : Nat) : Fld := ⟨0x600C0010 + 0x1000 * n, 31, 1⟩
def CAN_TDC_TDCO (n : Nat) : Fld := ⟨0x600C0010 + 0x1000 * n, 16, 7⟩
def CAN_TDC_TDCV (n : Nat) : Fld := ⟨0x600C0010 + 0x1000 * n, 0, 7⟩
-- CAN_ECNT (R457)
def CAN_ECNT_TEC (n : Nat) : Fld := ⟨0x600C0014 + 0x1000 * n, 16, 9⟩
def CAN_ECNT_REC (n : Nat) : Fld := ⟨0x600C0014 + 0x1000 * n, 0, 8⟩
-- CAN_FLAGS (R457)
def CAN_FLAGS_URG_REJ (n : Nat) : Fld := ⟨0x600C0018 + 0x1000 * n, 10, 1⟩
def CAN_FLAGS_CFG_ERR (n : Nat) : Fld := ⟨0x600C0018 + 0x1000 * n, 9, 1⟩
def CAN_FLAGS_REF_MISS (n : Nat) : Fld := ⟨0x600C0018 + 0x1000 * n, 8, 1⟩
def CAN_FLAGS_PXE (n : Nat) : Fld := ⟨0x600C0018 + 0x1000 * n, 7, 1⟩
def CAN_FLAGS_TL_HOLD (n : Nat) : Fld := ⟨0x600C0018 + 0x1000 * n, 6, 1⟩
def CAN_FLAGS_TX_BAD (n : Nat) : Fld := ⟨0x600C0018 + 0x1000 * n, 5, 1⟩
def CAN_FLAGS_TX_FULL (n : Nat) : Fld := ⟨0x600C0018 + 0x1000 * n, 4, 1⟩
def CAN_FLAGS_RX_LOST (n : Nat) : Fld := ⟨0x600C0018 + 0x1000 * n, 3, 1⟩
def CAN_FLAGS_POST_REJ (n : Nat) : Fld := ⟨0x600C0018 + 0x1000 * n, 2, 1⟩
def CAN_FLAGS_EP (n : Nat) : Fld := ⟨0x600C0018 + 0x1000 * n, 1, 1⟩
def CAN_FLAGS_BO (n : Nat) : Fld := ⟨0x600C0018 + 0x1000 * n, 0, 1⟩
-- CAN_FAULT (R457)
def CAN_FAULT_SRC (n : Nat) : Fld := ⟨0x600C001C + 0x1000 * n, 0, 4⟩
-- CAN_MB_BASE (R457)
def CAN_MB_BASE_BASE (n : Nat) : Fld := ⟨0x600C0020 + 0x1000 * n, 6, 26⟩
-- CAN_MB_POST (R457)
def CAN_MB_POST_INDEX (n : Nat) : Fld := ⟨0x600C0024 + 0x1000 * n, 0, 7⟩
-- CAN_RX_ACK (R457)
def CAN_RX_ACK_INDEX (n : Nat) : Fld := ⟨0x600C0028 + 0x1000 * n, 0, 7⟩
-- CAN_RXD_BASE (R457)
def CAN_RXD_BASE_BASE (n : Nat) : Fld := ⟨0x600C002C + 0x1000 * n, 6, 26⟩
-- CAN_POST_STAT (R457)
def CAN_POST_STAT_REJ (n : Nat) : Fld := ⟨0x600C0030 + 0x1000 * n, 31, 1⟩
def CAN_POST_STAT_REJ_INDEX (n : Nat) : Fld := ⟨0x600C0030 + 0x1000 * n, 0, 7⟩
-- CAN_RX_CNT (R457)
def CAN_RX_CNT_NOMATCH (n : Nat) : Fld := ⟨0x600C0034 + 0x1000 * n, 16, 16⟩
def CAN_RX_CNT_LOST (n : Nat) : Fld := ⟨0x600C0034 + 0x1000 * n, 0, 16⟩
-- CAN_RX_NEW (R457)
def CAN_RX_NEW_NEW (n : Nat) (i : Nat) : Fld := ⟨0x600C0040 + 0x1000 * n + 0x4 * i, 0, 32⟩
-- CAN_TXEV_BASE (R457)
def CAN_TXEV_BASE_BASE (n : Nat) : Fld := ⟨0x600C0050 + 0x1000 * n, 6, 26⟩
-- CAN_FLT_W0 (R457)
def CAN_FLT_W0_TYPE (n : Nat) (i : Nat) : Fld := ⟨0x600C0100 + 0x1000 * n + 0x10 * i, 30, 2⟩
def CAN_FLT_W0_IDE (n : Nat) (i : Nat) : Fld := ⟨0x600C0100 + 0x1000 * n + 0x10 * i, 29, 1⟩
def CAN_FLT_W0_REJ (n : Nat) (i : Nat) : Fld := ⟨0x600C0100 + 0x1000 * n + 0x10 * i, 28, 1⟩
def CAN_FLT_W0_BUF (n : Nat) (i : Nat) : Fld := ⟨0x600C0100 + 0x1000 * n + 0x10 * i, 0, 7⟩
-- CAN_FLT_W1 (R457)
def CAN_FLT_W1_CODE (n : Nat) (i : Nat) : Fld := ⟨0x600C0104 + 0x1000 * n + 0x10 * i, 0, 29⟩
-- CAN_FLT_W2 (R457)
def CAN_FLT_W2_MASK (n : Nat) (i : Nat) : Fld := ⟨0x600C0108 + 0x1000 * n + 0x10 * i, 0, 29⟩
-- CAN_FLT_W3 (R457)
def CAN_FLT_W3_DA_CHK (n : Nat) (i : Nat) : Fld := ⟨0x600C010C + 0x1000 * n + 0x10 * i, 8, 1⟩
def CAN_FLT_W3_DA (n : Nat) (i : Nat) : Fld := ⟨0x600C010C + 0x1000 * n + 0x10 * i, 0, 8⟩
-- CAN_TX_ID (R457)
def CAN_TX_ID_IDE (n : Nat) : Fld := ⟨0x600C0600 + 0x1000 * n, 31, 1⟩
def CAN_TX_ID_FDF (n : Nat) : Fld := ⟨0x600C0600 + 0x1000 * n, 30, 1⟩
def CAN_TX_ID_BRS (n : Nat) : Fld := ⟨0x600C0600 + 0x1000 * n, 29, 1⟩
def CAN_TX_ID_ID (n : Nat) : Fld := ⟨0x600C0600 + 0x1000 * n, 0, 29⟩
-- CAN_TX_FRM (R457)
def CAN_TX_FRM_TAG (n : Nat) : Fld := ⟨0x600C0604 + 0x1000 * n, 24, 8⟩
def CAN_TX_FRM_ONESHOT (n : Nat) : Fld := ⟨0x600C0604 + 0x1000 * n, 23, 1⟩
def CAN_TX_FRM_RTR (n : Nat) : Fld := ⟨0x600C0604 + 0x1000 * n, 22, 1⟩
def CAN_TX_FRM_DLC (n : Nat) : Fld := ⟨0x600C0604 + 0x1000 * n, 0, 4⟩
-- CAN_TX_DATA (R457)
def CAN_TX_DATA_W (n : Nat) (i : Nat) : Fld := ⟨0x600C0608 + 0x1000 * n + 0x4 * i, 0, 32⟩
-- CAN_TX_CMD (R457)
def CAN_TX_CMD_URG_ABORT (n : Nat) : Fld := ⟨0x600C0648 + 0x1000 * n, 9, 1⟩
def CAN_TX_CMD_FLUSH (n : Nat) : Fld := ⟨0x600C0648 + 0x1000 * n, 8, 1⟩
def CAN_TX_CMD_OP (n : Nat) : Fld := ⟨0x600C0648 + 0x1000 * n, 0, 2⟩
-- CAN_TX_STAT (R457)
def CAN_TX_STAT_LEVEL (n : Nat) : Fld := ⟨0x600C064C + 0x1000 * n, 16, 7⟩
def CAN_TX_STAT_IN_TX (n : Nat) : Fld := ⟨0x600C064C + 0x1000 * n, 2, 1⟩
def CAN_TX_STAT_KPR (n : Nat) : Fld := ⟨0x600C064C + 0x1000 * n, 1, 1⟩
def CAN_TX_STAT_URG (n : Nat) : Fld := ⟨0x600C064C + 0x1000 * n, 0, 1⟩
-- CAN_TXEV_SEQ (R457)
def CAN_TXEV_SEQ_SEQ (n : Nat) : Fld := ⟨0x600C0654 + 0x1000 * n, 0, 32⟩
-- CAN_REF_ID (R457)
def CAN_REF_ID_IDE (n : Nat) : Fld := ⟨0x600C0700 + 0x1000 * n, 31, 1⟩
def CAN_REF_ID_ID (n : Nat) : Fld := ⟨0x600C0700 + 0x1000 * n, 0, 29⟩
-- CAN_REF_CTL (R457)
def CAN_REF_CTL_EN (n : Nat) : Fld := ⟨0x600C0704 + 0x1000 * n, 31, 1⟩
def CAN_REF_CTL_PM (n : Nat) : Fld := ⟨0x600C0704 + 0x1000 * n, 30, 1⟩
def CAN_REF_CTL_PER_US (n : Nat) : Fld := ⟨0x600C0704 + 0x1000 * n, 0, 24⟩
-- CAN_REF_STAT (R457)
def CAN_REF_STAT_CYCLE (n : Nat) : Fld := ⟨0x600C0708 + 0x1000 * n, 0, 6⟩
-- CAN_REF_TS_LO (R457)
def CAN_REF_TS_LO_T (n : Nat) : Fld := ⟨0x600C070C + 0x1000 * n, 0, 32⟩
-- CAN_REF_TS_HI (R457)
def CAN_REF_TS_HI_T (n : Nat) : Fld := ⟨0x600C0710 + 0x1000 * n, 0, 32⟩
-- CAN_REF_INT (R457)
def CAN_REF_INT_T (n : Nat) : Fld := ⟨0x600C0714 + 0x1000 * n, 0, 32⟩
-- CAN_TL_RATE (R457)
def CAN_TL_RATE_MAX_100MS (n : Nat) : Fld := ⟨0x600C0780 + 0x1000 * n, 16, 16⟩
def CAN_TL_RATE_MIN_GAP_US (n : Nat) : Fld := ⟨0x600C0780 + 0x1000 * n, 0, 16⟩
-- CAN_TL_CTL (R457)
def CAN_TL_CTL_SAFE_HOLD (n : Nat) : Fld := ⟨0x600C0784 + 0x1000 * n, 0, 1⟩

/-- The map of the CAN block, part 0. -/
def rowsCAN0 : List Row := [
  ⟨0x600C0000, 13, 0x1000, 1, 0x0, 8, 1, .wo, 0⟩,
  ⟨0x600C0000, 13, 0x1000, 1, 0x0, 5, 1, .rw, 0⟩,
  ⟨0x600C0000, 13, 0x1000, 1, 0x0, 3, 1, .rw, 1⟩,
  ⟨0x600C0000, 13, 0x1000, 1, 0x0, 1, 1, .rw, 0⟩,
  ⟨0x600C0000, 13, 0x1000, 1, 0x0, 0, 1, .rw, 1⟩,
  ⟨0x600C0004, 13, 0x1000, 1, 0x0, 24, 8, .ro, 0⟩,
  ⟨0x600C0004, 13, 0x1000, 1, 0x0, 12, 4, .ro, 0⟩,
  ⟨0x600C0004, 13, 0x1000, 1, 0x0, 8, 4, .ro, 0⟩,
  ⟨0x600C0004, 13, 0x1000, 1, 0x0, 4, 4, .ro, 0⟩,
  ⟨0x600C0004, 13, 0x1000, 1, 0x0, 0, 4, .ro, 0⟩,
  ⟨0x600C0008, 13, 0x1000, 1, 0x0, 24, 8, .rw, 31⟩,
  ⟨0x600C0008, 13, 0x1000, 1, 0x0, 16, 8, .rw, 31⟩,
  ⟨0x600C0008, 13, 0x1000, 1, 0x0, 8, 8, .rw, 126⟩,
  ⟨0x600C0008, 13, 0x1000, 1, 0x0, 0, 8, .rw, 0⟩,
  ⟨0x600C000C, 13, 0x1000, 1, 0x0, 24, 4, .rw, 9⟩,
  ⟨0x600C000C, 13, 0x1000, 1, 0x0, 16, 4, .rw, 9⟩,
  ⟨0x600C000C, 13, 0x1000, 1, 0x0, 8, 5, .rw, 28⟩,
  ⟨0x600C000C, 13, 0x1000, 1, 0x0, 0, 5, .rw, 0⟩,
  ⟨0x600C0010, 13, 0x1000, 1, 0x0, 31, 1, .rw, 1⟩,
  ⟨0x600C0010, 13, 0x1000, 1, 0x0, 16, 7, .rw, 30⟩,
  ⟨0x600C0010, 13, 0x1000, 1, 0x0, 0, 7, .ro, 0⟩,
  ⟨0x600C0014, 13, 0x1000, 1, 0x0, 16, 9, .ro, 0⟩,
  ⟨0x600C0014, 13, 0x1000, 1, 0x0, 0, 8, .ro, 0⟩,
  ⟨0x600C0018, 13, 0x1000, 1, 0x0, 10, 1, .w1c, 0⟩,
  ⟨0x600C0018, 13, 0x1000, 1, 0x0, 9, 1, .w1c, 0⟩,
  ⟨0x600C0018, 13, 0x1000, 1, 0x0, 8, 1, .w1c, 0⟩,
  ⟨0x600C0018, 13, 0x1000, 1, 0x0, 7, 1, .w1c, 0⟩,
  ⟨0x600C0018, 13, 0x1000, 1, 0x0, 6, 1, .w1c, 0⟩,
  ⟨0x600C0018, 13, 0x1000, 1, 0x0, 5, 1, .w1c, 0⟩,
  ⟨0x600C0018, 13, 0x1000, 1, 0x0, 4, 1, .w1c, 0⟩,
  ⟨0x600C0018, 13, 0x1000, 1, 0x0, 3, 1, .w1c, 0⟩,
  ⟨0x600C0018, 13, 0x1000, 1, 0x0, 2, 1, .w1c, 0⟩,
  ⟨0x600C0018, 13, 0x1000, 1, 0x0, 1, 1, .w1c, 0⟩,
  ⟨0x600C0018, 13, 0x1000, 1, 0x0, 0, 1, .w1c, 0⟩,
  ⟨0x600C001C, 13, 0x1000, 1, 0x0, 0, 4, .w1c, 0⟩,
  ⟨0x600C0020, 13, 0x1000, 1, 0x0, 6, 26, .rwl .run, 0⟩,
  ⟨0x600C0024, 13, 0x1000, 1, 0x0, 0, 7, .wo, 0⟩,
  ⟨0x600C0028, 13, 0x1000, 1, 0x0, 0, 7, .wo, 0⟩,
  ⟨0x600C002C, 13, 0x1000, 1, 0x0, 6, 26, .rwl .run, 0⟩,
  ⟨0x600C0030, 13, 0x1000, 1, 0x0, 31, 1, .w1c, 0⟩]

/-- The map of the CAN block, part 1. -/
def rowsCAN1 : List Row := [
  ⟨0x600C0030, 13, 0x1000, 1, 0x0, 0, 7, .ro, 0⟩,
  ⟨0x600C0034, 13, 0x1000, 1, 0x0, 16, 16, .ro, 0⟩,
  ⟨0x600C0034, 13, 0x1000, 1, 0x0, 0, 16, .ro, 0⟩,
  ⟨0x600C0040, 13, 0x1000, 4, 0x4, 0, 32, .ro, 0⟩,
  ⟨0x600C0050, 13, 0x1000, 1, 0x0, 6, 26, .rwl .run, 0⟩,
  ⟨0x600C0100, 13, 0x1000, 64, 0x10, 30, 2, .rw, 0⟩,
  ⟨0x600C0100, 13, 0x1000, 64, 0x10, 29, 1, .rw, 0⟩,
  ⟨0x600C0100, 13, 0x1000, 64, 0x10, 28, 1, .rw, 0⟩,
  ⟨0x600C0100, 13, 0x1000, 64, 0x10, 0, 7, .rw, 0⟩,
  ⟨0x600C0104, 13, 0x1000, 64, 0x10, 0, 29, .rw, 0⟩,
  ⟨0x600C0108, 13, 0x1000, 64, 0x10, 0, 29, .rw, 0⟩,
  ⟨0x600C010C, 13, 0x1000, 64, 0x10, 8, 1, .rw, 0⟩,
  ⟨0x600C010C, 13, 0x1000, 64, 0x10, 0, 8, .rw, 0⟩,
  ⟨0x600C0600, 13, 0x1000, 1, 0x0, 31, 1, .rw, 0⟩,
  ⟨0x600C0600, 13, 0x1000, 1, 0x0, 30, 1, .rw, 0⟩,
  ⟨0x600C0600, 13, 0x1000, 1, 0x0, 29, 1, .rw, 0⟩,
  ⟨0x600C0600, 13, 0x1000, 1, 0x0, 0, 29, .rw, 0⟩,
  ⟨0x600C0604, 13, 0x1000, 1, 0x0, 24, 8, .rw, 0⟩,
  ⟨0x600C0604, 13, 0x1000, 1, 0x0, 23, 1, .rw, 0⟩,
  ⟨0x600C0604, 13, 0x1000, 1, 0x0, 22, 1, .rw, 0⟩,
  ⟨0x600C0604, 13, 0x1000, 1, 0x0, 0, 4, .rw, 0⟩,
  ⟨0x600C0608, 13, 0x1000, 16, 0x4, 0, 32, .rw, 0⟩,
  ⟨0x600C0648, 13, 0x1000, 1, 0x0, 9, 1, .wo, 0⟩,
  ⟨0x600C0648, 13, 0x1000, 1, 0x0, 8, 1, .wo, 0⟩,
  ⟨0x600C0648, 13, 0x1000, 1, 0x0, 0, 2, .wo, 0⟩,
  ⟨0x600C064C, 13, 0x1000, 1, 0x0, 16, 7, .ro, 0⟩,
  ⟨0x600C064C, 13, 0x1000, 1, 0x0, 2, 1, .ro, 0⟩,
  ⟨0x600C064C, 13, 0x1000, 1, 0x0, 1, 1, .ro, 0⟩,
  ⟨0x600C064C, 13, 0x1000, 1, 0x0, 0, 1, .ro, 0⟩,
  ⟨0x600C0654, 13, 0x1000, 1, 0x0, 0, 32, .ro, 0⟩,
  ⟨0x600C0700, 13, 0x1000, 1, 0x0, 31, 1, .rw, 0⟩,
  ⟨0x600C0700, 13, 0x1000, 1, 0x0, 0, 29, .rw, 0⟩,
  ⟨0x600C0704, 13, 0x1000, 1, 0x0, 31, 1, .rw, 0⟩,
  ⟨0x600C0704, 13, 0x1000, 1, 0x0, 30, 1, .rw, 0⟩,
  ⟨0x600C0704, 13, 0x1000, 1, 0x0, 0, 24, .rw, 1000⟩,
  ⟨0x600C0708, 13, 0x1000, 1, 0x0, 0, 6, .ro, 0⟩,
  ⟨0x600C070C, 13, 0x1000, 1, 0x0, 0, 32, .ro, 0⟩,
  ⟨0x600C0710, 13, 0x1000, 1, 0x0, 0, 32, .ro, 0⟩,
  ⟨0x600C0714, 13, 0x1000, 1, 0x0, 0, 32, .ro, 0⟩,
  ⟨0x600C0780, 13, 0x1000, 1, 0x0, 16, 16, .rwl .armed, 0⟩]

/-- The map of the CAN block, part 2. -/
def rowsCAN2 : List Row := [
  ⟨0x600C0780, 13, 0x1000, 1, 0x0, 0, 16, .rwl .armed, 0⟩,
  ⟨0x600C0784, 13, 0x1000, 1, 0x0, 0, 1, .rwl .armed, 0⟩]

/-- The map of the CAN block. -/
def rowsCAN : List Row := rowsCAN0 ++ rowsCAN1 ++ rowsCAN2

/-! ### NM -/

-- NM_CTL (R494 to R498)
def NM_CTL_EN (n : Nat) : Fld := ⟨0x600D0000 + 0x100 * n, 31, 1⟩
def NM_CTL_REQ (n : Nat) : Fld := ⟨0x600D0000 + 0x100 * n, 30, 1⟩
def NM_CTL_REPEAT (n : Nat) : Fld := ⟨0x600D0000 + 0x100 * n, 24, 4⟩
def NM_CTL_NODE (n : Nat) : Fld := ⟨0x600D0000 + 0x100 * n, 16, 8⟩
def NM_CTL_RALLY_MS (n : Nat) : Fld := ⟨0x600D0000 + 0x100 * n, 0, 16⟩
-- NM_TMR (R494 to R498)
def NM_TMR_TMO_MS (n : Nat) : Fld := ⟨0x600D0004 + 0x100 * n, 16, 16⟩
def NM_TMR_WAIT_MS (n : Nat) : Fld := ⟨0x600D0004 + 0x100 * n, 0, 16⟩
-- NM_FW (R494 to R498)
def NM_FW_FW_TMO_MS (n : Nat) : Fld := ⟨0x600D0008 + 0x100 * n, 16, 16⟩
def NM_FW_FW_LIM (n : Nat) : Fld := ⟨0x600D0008 + 0x100 * n, 0, 8⟩
-- NM_RALLY_ID (R494 to R498)
def NM_RALLY_ID_IDE (n : Nat) : Fld := ⟨0x600D000C + 0x100 * n, 31, 1⟩
def NM_RALLY_ID_ID (n : Nat) : Fld := ⟨0x600D000C + 0x100 * n, 0, 29⟩
-- NM_RX_ID (R494 to R498)
def NM_RX_ID_IDE (n : Nat) : Fld := ⟨0x600D0010 + 0x100 * n, 31, 1⟩
def NM_RX_ID_ID (n : Nat) : Fld := ⟨0x600D0010 + 0x100 * n, 0, 29⟩
-- NM_RX_MASK (R494 to R498)
def NM_RX_MASK_MASK (n : Nat) : Fld := ⟨0x600D0014 + 0x100 * n, 0, 29⟩
-- NM_STAT (R494 to R498)
def NM_STAT_FW_CNT (n : Nat) : Fld := ⟨0x600D0018 + 0x100 * n, 24, 8⟩
def NM_STAT_RALLY_RX (n : Nat) : Fld := ⟨0x600D0018 + 0x100 * n, 16, 8⟩
def NM_STAT_LAST_NODE (n : Nat) : Fld := ⟨0x600D0018 + 0x100 * n, 8, 8⟩
def NM_STAT_FW_LOCK (n : Nat) : Fld := ⟨0x600D0018 + 0x100 * n, 7, 1⟩
def NM_STAT_STATE (n : Nat) : Fld := ⟨0x600D0018 + 0x100 * n, 0, 3⟩
-- NM_FLAGS (R494 to R498)
def NM_FLAGS_RALLY_DROP (n : Nat) : Fld := ⟨0x600D001C + 0x100 * n, 4, 1⟩
def NM_FLAGS_FW_LOCKED (n : Nat) : Fld := ⟨0x600D001C + 0x100 * n, 3, 1⟩
def NM_FLAGS_FALSE_WAKE (n : Nat) : Fld := ⟨0x600D001C + 0x100 * n, 2, 1⟩
def NM_FLAGS_BUS_WAKE (n : Nat) : Fld := ⟨0x600D001C + 0x100 * n, 1, 1⟩
def NM_FLAGS_SLEPT (n : Nat) : Fld := ⟨0x600D001C + 0x100 * n, 0, 1⟩
-- NM_WAKE (R494 to R498)
def NM_WAKE_CAUSE (n : Nat) : Fld := ⟨0x600D0020 + 0x100 * n, 0, 4⟩
-- NM_WAKE_TS_LO (R494 to R498)
def NM_WAKE_TS_LO_T (n : Nat) : Fld := ⟨0x600D0024 + 0x100 * n, 0, 32⟩
-- NM_WAKE_TS_HI (R494 to R498)
def NM_WAKE_TS_HI_T (n : Nat) : Fld := ⟨0x600D0028 + 0x100 * n, 0, 32⟩
-- NM_SW_ID (R494 to R498)
def NM_SW_ID_IDE (n : Nat) : Fld := ⟨0x600D0040 + 0x100 * n, 31, 1⟩
def NM_SW_ID_EN (n : Nat) : Fld := ⟨0x600D0040 + 0x100 * n, 30, 1⟩
def NM_SW_ID_ID (n : Nat) : Fld := ⟨0x600D0040 + 0x100 * n, 0, 29⟩
-- NM_SW_MASK (R494 to R498)
def NM_SW_MASK_MASK (n : Nat) : Fld := ⟨0x600D0044 + 0x100 * n, 0, 29⟩
-- NM_SW_FRM (R494 to R498)
def NM_SW_FRM_DLC_CHK (n : Nat) : Fld := ⟨0x600D0048 + 0x100 * n, 31, 1⟩
def NM_SW_FRM_FEC (n : Nat) : Fld := ⟨0x600D0048 + 0x100 * n, 10, 6⟩
def NM_SW_FRM_RATE (n : Nat) : Fld := ⟨0x600D0048 + 0x100 * n, 8, 2⟩
def NM_SW_FRM_DLC (n : Nat) : Fld := ⟨0x600D0048 + 0x100 * n, 0, 4⟩
-- NM_SW_DATA0 (R494 to R498)
def NM_SW_DATA0_M (n : Nat) : Fld := ⟨0x600D004C + 0x100 * n, 0, 32⟩
-- NM_SW_DATA1 (R494 to R498)
def NM_SW_DATA1_M (n : Nat) : Fld := ⟨0x600D0050 + 0x100 * n, 0, 32⟩

/-- The map of the NM block. -/
def rowsNM : List Row := [
  ⟨0x600D0000, 13, 0x100, 1, 0x0, 31, 1, .rw, 0⟩,
  ⟨0x600D0000, 13, 0x100, 1, 0x0, 30, 1, .rw, 0⟩,
  ⟨0x600D0000, 13, 0x100, 1, 0x0, 24, 4, .rw, 3⟩,
  ⟨0x600D0000, 13, 0x100, 1, 0x0, 16, 8, .rw, 0⟩,
  ⟨0x600D0000, 13, 0x100, 1, 0x0, 0, 16, .rw, 100⟩,
  ⟨0x600D0004, 13, 0x100, 1, 0x0, 16, 16, .rw, 2000⟩,
  ⟨0x600D0004, 13, 0x100, 1, 0x0, 0, 16, .rw, 1500⟩,
  ⟨0x600D0008, 13, 0x100, 1, 0x0, 16, 16, .rw, 3000⟩,
  ⟨0x600D0008, 13, 0x100, 1, 0x0, 0, 8, .rw, 8⟩,
  ⟨0x600D000C, 13, 0x100, 1, 0x0, 31, 1, .rw, 0⟩,
  ⟨0x600D000C, 13, 0x100, 1, 0x0, 0, 29, .rw, 0⟩,
  ⟨0x600D0010, 13, 0x100, 1, 0x0, 31, 1, .rw, 0⟩,
  ⟨0x600D0010, 13, 0x100, 1, 0x0, 0, 29, .rw, 0⟩,
  ⟨0x600D0014, 13, 0x100, 1, 0x0, 0, 29, .rw, 0⟩,
  ⟨0x600D0018, 13, 0x100, 1, 0x0, 24, 8, .ro, 0⟩,
  ⟨0x600D0018, 13, 0x100, 1, 0x0, 16, 8, .ro, 0⟩,
  ⟨0x600D0018, 13, 0x100, 1, 0x0, 8, 8, .ro, 0⟩,
  ⟨0x600D0018, 13, 0x100, 1, 0x0, 7, 1, .ro, 0⟩,
  ⟨0x600D0018, 13, 0x100, 1, 0x0, 0, 3, .ro, 0⟩,
  ⟨0x600D001C, 13, 0x100, 1, 0x0, 4, 1, .w1c, 0⟩,
  ⟨0x600D001C, 13, 0x100, 1, 0x0, 3, 1, .w1c, 0⟩,
  ⟨0x600D001C, 13, 0x100, 1, 0x0, 2, 1, .w1c, 0⟩,
  ⟨0x600D001C, 13, 0x100, 1, 0x0, 1, 1, .w1c, 0⟩,
  ⟨0x600D001C, 13, 0x100, 1, 0x0, 0, 1, .w1c, 0⟩,
  ⟨0x600D0020, 13, 0x100, 1, 0x0, 0, 4, .ro, 0⟩,
  ⟨0x600D0024, 13, 0x100, 1, 0x0, 0, 32, .ro, 0⟩,
  ⟨0x600D0028, 13, 0x100, 1, 0x0, 0, 32, .ro, 0⟩,
  ⟨0x600D0040, 13, 0x100, 1, 0x0, 31, 1, .rw, 0⟩,
  ⟨0x600D0040, 13, 0x100, 1, 0x0, 30, 1, .rw, 0⟩,
  ⟨0x600D0040, 13, 0x100, 1, 0x0, 0, 29, .rw, 0⟩,
  ⟨0x600D0044, 13, 0x100, 1, 0x0, 0, 29, .rw, 0⟩,
  ⟨0x600D0048, 13, 0x100, 1, 0x0, 31, 1, .rw, 0⟩,
  ⟨0x600D0048, 13, 0x100, 1, 0x0, 10, 6, .ro, 0⟩,
  ⟨0x600D0048, 13, 0x100, 1, 0x0, 8, 2, .rw, 2⟩,
  ⟨0x600D0048, 13, 0x100, 1, 0x0, 0, 4, .rw, 0⟩,
  ⟨0x600D004C, 13, 0x100, 1, 0x0, 0, 32, .rw, 0⟩,
  ⟨0x600D0050, 13, 0x100, 1, 0x0, 0, 32, .rw, 0⟩]

/-! ### LIN -/

-- LIN_CTL (R494 to R498)
def LIN_CTL_EN (n : Nat) : Fld := ⟨0x600E0000 + 0x100 * n, 31, 1⟩
def LIN_CTL_CMDR (n : Nat) : Fld := ⟨0x600E0000 + 0x100 * n, 30, 1⟩
def LIN_CTL_WAKE (n : Nat) : Fld := ⟨0x600E0000 + 0x100 * n, 29, 1⟩
def LIN_CTL_BAUD (n : Nat) : Fld := ⟨0x600E0000 + 0x100 * n, 0, 16⟩
-- LIN_SCHED (R494 to R498)
def LIN_SCHED_BASE (n : Nat) : Fld := ⟨0x600E0004 + 0x100 * n, 6, 26⟩
-- LIN_BUF_BASE (R494 to R498)
def LIN_BUF_BASE_BASE (n : Nat) : Fld := ⟨0x600E0008 + 0x100 * n, 6, 26⟩
-- LIN_STAT (R494 to R498)
def LIN_STAT_ERR (n : Nat) : Fld := ⟨0x600E000C + 0x100 * n, 16, 16⟩
def LIN_STAT_LEC (n : Nat) : Fld := ⟨0x600E000C + 0x100 * n, 12, 4⟩
def LIN_STAT_SLOT_OVR (n : Nat) : Fld := ⟨0x600E000C + 0x100 * n, 5, 1⟩
def LIN_STAT_WAKE_RX (n : Nat) : Fld := ⟨0x600E000C + 0x100 * n, 4, 1⟩
def LIN_STAT_STATE (n : Nat) : Fld := ⟨0x600E000C + 0x100 * n, 0, 2⟩

/-- The map of the LIN block. -/
def rowsLIN : List Row := [
  ⟨0x600E0000, 6, 0x100, 1, 0x0, 31, 1, .rw, 0⟩,
  ⟨0x600E0000, 6, 0x100, 1, 0x0, 30, 1, .rw, 0⟩,
  ⟨0x600E0000, 6, 0x100, 1, 0x0, 29, 1, .wo, 0⟩,
  ⟨0x600E0000, 6, 0x100, 1, 0x0, 0, 16, .rw, 19200⟩,
  ⟨0x600E0004, 6, 0x100, 1, 0x0, 6, 26, .rw, 0⟩,
  ⟨0x600E0008, 6, 0x100, 1, 0x0, 6, 26, .rwl .armed, 0⟩,
  ⟨0x600E000C, 6, 0x100, 1, 0x0, 16, 16, .ro, 0⟩,
  ⟨0x600E000C, 6, 0x100, 1, 0x0, 12, 4, .ro, 0⟩,
  ⟨0x600E000C, 6, 0x100, 1, 0x0, 5, 1, .w1c, 0⟩,
  ⟨0x600E000C, 6, 0x100, 1, 0x0, 4, 1, .w1c, 0⟩,
  ⟨0x600E000C, 6, 0x100, 1, 0x0, 0, 2, .ro, 0⟩]

/-! ### ETH -/

-- ETH_CTL (R494 to R498)
def ETH_CTL_EN (n : Nat) : Fld := ⟨0x600F0000 + 0x100 * n, 31, 1⟩
def ETH_CTL_MS (n : Nat) : Fld := ⟨0x600F0000 + 0x100 * n, 30, 1⟩
def ETH_CTL_PTP_EN (n : Nat) : Fld := ⟨0x600F0000 + 0x100 * n, 29, 1⟩
def ETH_CTL_PROMISC (n : Nat) : Fld := ⟨0x600F0000 + 0x100 * n, 28, 1⟩
def ETH_CTL_BCAST (n : Nat) : Fld := ⟨0x600F0000 + 0x100 * n, 27, 1⟩
def ETH_CTL_RXBUF (n : Nat) : Fld := ⟨0x600F0000 + 0x100 * n, 0, 11⟩
-- ETH_MAC_LO (R494 to R498)
def ETH_MAC_LO_B (n : Nat) : Fld := ⟨0x600F0004 + 0x100 * n, 0, 32⟩
-- ETH_MAC_HI (R494 to R498)
def ETH_MAC_HI_B (n : Nat) : Fld := ⟨0x600F0008 + 0x100 * n, 0, 16⟩
-- ETH_HASH_LO (R494 to R498)
def ETH_HASH_LO_H (n : Nat) : Fld := ⟨0x600F000C + 0x100 * n, 0, 32⟩
-- ETH_HASH_HI (R494 to R498)
def ETH_HASH_HI_H (n : Nat) : Fld := ⟨0x600F0010 + 0x100 * n, 0, 32⟩
-- ETH_RX_BASE (R494 to R498)
def ETH_RX_BASE_BASE (n : Nat) : Fld := ⟨0x600F0014 + 0x100 * n, 6, 26⟩
-- ETH_TX_BASE (R494 to R498)
def ETH_TX_BASE_BASE (n : Nat) : Fld := ⟨0x600F0018 + 0x100 * n, 6, 26⟩
-- ETH_TX_PUSH (R494 to R498)
def ETH_TX_PUSH_PUSH (n : Nat) : Fld := ⟨0x600F001C + 0x100 * n, 0, 32⟩
-- ETH_STAT (R494 to R498)
def ETH_STAT_RX_DROP (n : Nat) : Fld := ⟨0x600F0020 + 0x100 * n, 16, 16⟩
def ETH_STAT_SQI (n : Nat) : Fld := ⟨0x600F0020 + 0x100 * n, 4, 3⟩
def ETH_STAT_LINK (n : Nat) : Fld := ⟨0x600F0020 + 0x100 * n, 0, 1⟩

/-- The map of the ETH block. -/
def rowsETH : List Row := [
  ⟨0x600F0000, 2, 0x100, 1, 0x0, 31, 1, .rw, 0⟩,
  ⟨0x600F0000, 2, 0x100, 1, 0x0, 30, 1, .rw, 0⟩,
  ⟨0x600F0000, 2, 0x100, 1, 0x0, 29, 1, .rw, 1⟩,
  ⟨0x600F0000, 2, 0x100, 1, 0x0, 28, 1, .rw, 0⟩,
  ⟨0x600F0000, 2, 0x100, 1, 0x0, 27, 1, .rw, 1⟩,
  ⟨0x600F0000, 2, 0x100, 1, 0x0, 0, 11, .rw, 1536⟩,
  ⟨0x600F0004, 2, 0x100, 1, 0x0, 0, 32, .rw, 0⟩,
  ⟨0x600F0008, 2, 0x100, 1, 0x0, 0, 16, .rw, 0⟩,
  ⟨0x600F000C, 2, 0x100, 1, 0x0, 0, 32, .rw, 0⟩,
  ⟨0x600F0010, 2, 0x100, 1, 0x0, 0, 32, .rw, 0⟩,
  ⟨0x600F0014, 2, 0x100, 1, 0x0, 6, 26, .rwl .armed, 0⟩,
  ⟨0x600F0018, 2, 0x100, 1, 0x0, 6, 26, .rwl .armed, 0⟩,
  ⟨0x600F001C, 2, 0x100, 1, 0x0, 0, 32, .wo, 0⟩,
  ⟨0x600F0020, 2, 0x100, 1, 0x0, 16, 16, .ro, 0⟩,
  ⟨0x600F0020, 2, 0x100, 1, 0x0, 4, 3, .ro, 0⟩,
  ⟨0x600F0020, 2, 0x100, 1, 0x0, 0, 1, .ro, 0⟩]

/-! ### SENT -/

-- SENT_CFG (R494 to R498)
def SENT_CFG_EN (n : Nat) : Fld := ⟨0x60100000 + 0x20 * n, 31, 1⟩
def SENT_CFG_PAUSE (n : Nat) : Fld := ⟨0x60100000 + 0x20 * n, 30, 1⟩
def SENT_CFG_CRC_LEGACY (n : Nat) : Fld := ⟨0x60100000 + 0x20 * n, 29, 1⟩
def SENT_CFG_SER_EN (n : Nat) : Fld := ⟨0x60100000 + 0x20 * n, 28, 1⟩
def SENT_CFG_FAST_N (n : Nat) : Fld := ⟨0x60100000 + 0x20 * n, 20, 4⟩
def SENT_CFG_TICK (n : Nat) : Fld := ⟨0x60100000 + 0x20 * n, 0, 14⟩
-- SENT_FAST (R494 to R498)
def SENT_FAST_ST (n : Nat) : Fld := ⟨0x60100004 + 0x20 * n, 28, 4⟩
def SENT_FAST_NIB (n : Nat) : Fld := ⟨0x60100004 + 0x20 * n, 0, 24⟩
-- SENT_FAST_TS (R494 to R498)
def SENT_FAST_TS_T (n : Nat) : Fld := ⟨0x60100008 + 0x20 * n, 0, 32⟩
-- SENT_SER (R494 to R498)
def SENT_SER_FMT (n : Nat) : Fld := ⟨0x6010000C + 0x20 * n, 30, 2⟩
def SENT_SER_ID (n : Nat) : Fld := ⟨0x6010000C + 0x20 * n, 16, 8⟩
def SENT_SER_DATA (n : Nat) : Fld := ⟨0x6010000C + 0x20 * n, 0, 16⟩
-- SENT_STAT (R494 to R498)
def SENT_STAT_SEQ (n : Nat) : Fld := ⟨0x60100010 + 0x20 * n, 16, 16⟩
def SENT_STAT_ERR (n : Nat) : Fld := ⟨0x60100010 + 0x20 * n, 8, 8⟩
def SENT_STAT_LEC (n : Nat) : Fld := ⟨0x60100010 + 0x20 * n, 4, 4⟩
def SENT_STAT_SER_SEQ (n : Nat) : Fld := ⟨0x60100010 + 0x20 * n, 0, 4⟩
-- SENT_FAULT (R494 to R498)
def SENT_FAULT_SRC : Fld := ⟨0x60100400, 0, 10⟩

/-- The map of the SENT block. -/
def rowsSENT : List Row := [
  ⟨0x60100000, 10, 0x20, 1, 0x0, 31, 1, .rw, 0⟩,
  ⟨0x60100000, 10, 0x20, 1, 0x0, 30, 1, .rw, 0⟩,
  ⟨0x60100000, 10, 0x20, 1, 0x0, 29, 1, .rw, 0⟩,
  ⟨0x60100000, 10, 0x20, 1, 0x0, 28, 1, .rw, 0⟩,
  ⟨0x60100000, 10, 0x20, 1, 0x0, 20, 4, .rw, 6⟩,
  ⟨0x60100000, 10, 0x20, 1, 0x0, 0, 14, .rw, 300⟩,
  ⟨0x60100004, 10, 0x20, 1, 0x0, 28, 4, .ro, 0⟩,
  ⟨0x60100004, 10, 0x20, 1, 0x0, 0, 24, .ro, 0⟩,
  ⟨0x60100008, 10, 0x20, 1, 0x0, 0, 32, .ro, 0⟩,
  ⟨0x6010000C, 10, 0x20, 1, 0x0, 30, 2, .ro, 0⟩,
  ⟨0x6010000C, 10, 0x20, 1, 0x0, 16, 8, .ro, 0⟩,
  ⟨0x6010000C, 10, 0x20, 1, 0x0, 0, 16, .ro, 0⟩,
  ⟨0x60100010, 10, 0x20, 1, 0x0, 16, 16, .ro, 0⟩,
  ⟨0x60100010, 10, 0x20, 1, 0x0, 8, 8, .ro, 0⟩,
  ⟨0x60100010, 10, 0x20, 1, 0x0, 4, 4, .ro, 0⟩,
  ⟨0x60100010, 10, 0x20, 1, 0x0, 0, 4, .ro, 0⟩,
  ⟨0x60100400, 1, 0x0, 1, 0x0, 0, 10, .w1c, 0⟩]

/-! ### UART -/

-- UART_CTL (R494 to R498)
def UART_CTL_EN (n : Nat) : Fld := ⟨0x60110000 + 0x100 * n, 31, 1⟩
def UART_CTL_PAR (n : Nat) : Fld := ⟨0x60110000 + 0x100 * n, 29, 2⟩
def UART_CTL_STOP2 (n : Nat) : Fld := ⟨0x60110000 + 0x100 * n, 28, 1⟩
def UART_CTL_DATA7 (n : Nat) : Fld := ⟨0x60110000 + 0x100 * n, 27, 1⟩
def UART_CTL_PPS (n : Nat) : Fld := ⟨0x60110000 + 0x100 * n, 20, 4⟩
def UART_CTL_PPS_EN (n : Nat) : Fld := ⟨0x60110000 + 0x100 * n, 19, 1⟩
def UART_CTL_IDLE_BITS (n : Nat) : Fld := ⟨0x60110000 + 0x100 * n, 8, 8⟩
-- UART_BAUD (R494 to R498)
def UART_BAUD_BAUD (n : Nat) : Fld := ⟨0x60110004 + 0x100 * n, 0, 22⟩
-- UART_RXD (R494 to R498)
def UART_RXD_W (n : Nat) : Fld := ⟨0x60110008 + 0x100 * n, 0, 32⟩
-- UART_TXD (R494 to R498)
def UART_TXD_N (n : Nat) : Fld := ⟨0x6011000C + 0x100 * n, 24, 2⟩
def UART_TXD_B (n : Nat) : Fld := ⟨0x6011000C + 0x100 * n, 0, 24⟩
-- UART_STAT (R494 to R498)
def UART_STAT_RX_LVL (n : Nat) : Fld := ⟨0x60110010 + 0x100 * n, 12, 10⟩
def UART_STAT_TX_LVL (n : Nat) : Fld := ⟨0x60110010 + 0x100 * n, 0, 9⟩
-- UART_IDLE_TS_LO (R494 to R498)
def UART_IDLE_TS_LO_T (n : Nat) : Fld := ⟨0x60110014 + 0x100 * n, 0, 32⟩
-- UART_IDLE_TS_HI (R494 to R498)
def UART_IDLE_TS_HI_T (n : Nat) : Fld := ⟨0x60110018 + 0x100 * n, 0, 32⟩
-- UART_PPS_TS_LO (R494 to R498)
def UART_PPS_TS_LO_T (n : Nat) : Fld := ⟨0x6011001C + 0x100 * n, 0, 32⟩
-- UART_PPS_TS_HI (R494 to R498)
def UART_PPS_TS_HI_T (n : Nat) : Fld := ⟨0x60110020 + 0x100 * n, 0, 32⟩
-- UART_EVT (R494 to R498)
def UART_EVT_PPS_SEQ (n : Nat) : Fld := ⟨0x60110024 + 0x100 * n, 16, 16⟩
def UART_EVT_IDLE_SEQ (n : Nat) : Fld := ⟨0x60110024 + 0x100 * n, 0, 16⟩
-- UART_FLAGS (R494 to R498)
def UART_FLAGS_RX_OVF (n : Nat) : Fld := ⟨0x60110028 + 0x100 * n, 3, 1⟩
def UART_FLAGS_PE (n : Nat) : Fld := ⟨0x60110028 + 0x100 * n, 2, 1⟩
def UART_FLAGS_FE (n : Nat) : Fld := ⟨0x60110028 + 0x100 * n, 1, 1⟩
def UART_FLAGS_TX_OVF (n : Nat) : Fld := ⟨0x60110028 + 0x100 * n, 0, 1⟩
-- UART_FAULT (R494 to R498)
def UART_FAULT_SRC : Fld := ⟨0x60110400, 0, 4⟩

/-- The map of the UART block. -/
def rowsUART : List Row := [
  ⟨0x60110000, 4, 0x100, 1, 0x0, 31, 1, .rw, 0⟩,
  ⟨0x60110000, 4, 0x100, 1, 0x0, 29, 2, .rw, 0⟩,
  ⟨0x60110000, 4, 0x100, 1, 0x0, 28, 1, .rw, 0⟩,
  ⟨0x60110000, 4, 0x100, 1, 0x0, 27, 1, .rw, 0⟩,
  ⟨0x60110000, 4, 0x100, 1, 0x0, 20, 4, .rw, 0⟩,
  ⟨0x60110000, 4, 0x100, 1, 0x0, 19, 1, .rw, 0⟩,
  ⟨0x60110000, 4, 0x100, 1, 0x0, 8, 8, .rw, 10⟩,
  ⟨0x60110004, 4, 0x100, 1, 0x0, 0, 22, .rw, 115200⟩,
  ⟨0x60110008, 4, 0x100, 1, 0x0, 0, 32, .ro, 0⟩,
  ⟨0x6011000C, 4, 0x100, 1, 0x0, 24, 2, .wo, 0⟩,
  ⟨0x6011000C, 4, 0x100, 1, 0x0, 0, 24, .wo, 0⟩,
  ⟨0x60110010, 4, 0x100, 1, 0x0, 12, 10, .ro, 0⟩,
  ⟨0x60110010, 4, 0x100, 1, 0x0, 0, 9, .ro, 0⟩,
  ⟨0x60110014, 4, 0x100, 1, 0x0, 0, 32, .ro, 0⟩,
  ⟨0x60110018, 4, 0x100, 1, 0x0, 0, 32, .ro, 0⟩,
  ⟨0x6011001C, 4, 0x100, 1, 0x0, 0, 32, .ro, 0⟩,
  ⟨0x60110020, 4, 0x100, 1, 0x0, 0, 32, .ro, 0⟩,
  ⟨0x60110024, 4, 0x100, 1, 0x0, 16, 16, .ro, 0⟩,
  ⟨0x60110024, 4, 0x100, 1, 0x0, 0, 16, .ro, 0⟩,
  ⟨0x60110028, 4, 0x100, 1, 0x0, 3, 1, .w1c, 0⟩,
  ⟨0x60110028, 4, 0x100, 1, 0x0, 2, 1, .w1c, 0⟩,
  ⟨0x60110028, 4, 0x100, 1, 0x0, 1, 1, .w1c, 0⟩,
  ⟨0x60110028, 4, 0x100, 1, 0x0, 0, 1, .w1c, 0⟩,
  ⟨0x60110400, 1, 0x0, 1, 0x0, 0, 4, .w1c, 0⟩]

/-! ### ACC -/

-- ACC_CTL (R523)
def ACC_CTL_EN : Fld := ⟨0x60120000, 31, 1⟩
def ACC_CTL_BAND : Fld := ⟨0x60120000, 30, 1⟩
def ACC_CTL_REVOKE : Fld := ⟨0x60120000, 29, 1⟩
def ACC_CTL_LF_EN : Fld := ⟨0x60120000, 0, 6⟩
-- ACC_REQ (R523)
def ACC_REQ_GO : Fld := ⟨0x60120004, 31, 1⟩
def ACC_REQ_ZONE : Fld := ⟨0x60120004, 0, 2⟩
-- ACC_STAT (R523)
def ACC_STAT_LOCK_S : Fld := ⟨0x60120008, 16, 16⟩
def ACC_STAT_FAIL : Fld := ⟨0x60120008, 12, 4⟩
def ACC_STAT_ESC : Fld := ⟨0x60120008, 8, 2⟩
def ACC_STAT_PEND : Fld := ⟨0x60120008, 7, 1⟩
def ACC_STAT_FENCED : Fld := ⟨0x60120008, 6, 1⟩
def ACC_STAT_IMMO : Fld := ⟨0x60120008, 5, 1⟩
def ACC_STAT_LOCK_ACT : Fld := ⟨0x60120008, 4, 1⟩
def ACC_STAT_BUSY : Fld := ⟨0x60120008, 3, 1⟩
def ACC_STAT_STATE : Fld := ⟨0x60120008, 0, 3⟩
-- ACC_RES (R523)
def ACC_RES_RESULT : Fld := ⟨0x6012000C, 28, 4⟩
def ACC_RES_INDEX : Fld := ⟨0x6012000C, 25, 3⟩
def ACC_RES_ZONES : Fld := ⟨0x6012000C, 20, 4⟩
def ACC_RES_ZONE : Fld := ⟨0x6012000C, 16, 4⟩
def ACC_RES_STRENGTH : Fld := ⟨0x6012000C, 8, 8⟩
def ACC_RES_SEQ : Fld := ⟨0x6012000C, 0, 8⟩
-- ACC_ZONE (R523)
def ACC_ZONE_IMMO (i : Nat) : Fld := ⟨0x60120010 + 0x4 * i, 31, 1⟩
def ACC_ZONE_XEN (i : Nat) : Fld := ⟨0x60120010 + 0x4 * i, 30, 1⟩
def ACC_ZONE_XAER (i : Nat) : Fld := ⟨0x60120010 + 0x4 * i, 24, 3⟩
def ACC_ZONE_AER (i : Nat) : Fld := ⟨0x60120010 + 0x4 * i, 16, 6⟩
def ACC_ZONE_XMAX (i : Nat) : Fld := ⟨0x60120010 + 0x4 * i, 8, 8⟩
def ACC_ZONE_MIN (i : Nat) : Fld := ⟨0x60120010 + 0x4 * i, 0, 8⟩
-- ACC_CAP_CFG (R523)
def ACC_CAP_CFG_CFG : Fld := ⟨0x60120020, 0, 32⟩
-- ACC_CAP_STAT (R523)
def ACC_CAP_STAT_SHORT : Fld := ⟨0x60120024, 16, 4⟩
def ACC_CAP_STAT_SUSP : Fld := ⟨0x60120024, 8, 4⟩
def ACC_CAP_STAT_TOUCH : Fld := ⟨0x60120024, 0, 4⟩
-- ACC_TIMING (R523)
def ACC_TIMING_AUTH_HOLD_MS : Fld := ⟨0x60120028, 16, 16⟩
def ACC_TIMING_IMMO_HOLD_MS : Fld := ⟨0x60120028, 0, 16⟩
-- ACC_FT (R523)
def ACC_FT_FT_LIM : Fld := ⟨0x6012002C, 8, 8⟩
def ACC_FT_FT_SUSP : Fld := ⟨0x6012002C, 0, 8⟩
-- ACC_MID (R523)
def ACC_MID_MID : Fld := ⟨0x60120030, 0, 32⟩
-- ACC_ENROL (R523)
def ACC_ENROL_LIFE : Fld := ⟨0x60120034, 16, 8⟩
def ACC_ENROL_SLOTS : Fld := ⟨0x60120034, 0, 8⟩
-- ACC_FAULT (R523)
def ACC_FAULT_SRC : Fld := ⟨0x60120038, 0, 16⟩
-- ACC_LOG_SEQ (R523)
def ACC_LOG_SEQ_SEQ : Fld := ⟨0x6012003C, 0, 32⟩
-- ACC_SLOT_W0 (R523)
def ACC_SLOT_W0_CLASS (i : Nat) : Fld := ⟨0x60120040 + 0x8 * i, 28, 4⟩
def ACC_SLOT_W0_RECHAL (i : Nat) : Fld := ⟨0x60120040 + 0x8 * i, 27, 1⟩
def ACC_SLOT_W0_RSSI (i : Nat) : Fld := ⟨0x60120040 + 0x8 * i, 0, 16⟩
-- ACC_SLOT_W1 (R523)
def ACC_SLOT_W1_RSSI (i : Nat) : Fld := ⟨0x60120044 + 0x8 * i, 0, 32⟩

/-- The map of the ACC block, part 0. -/
def rowsACC0 : List Row := [
  ⟨0x60120000, 1, 0x0, 1, 0x0, 31, 1, .w1s, 0⟩,
  ⟨0x60120000, 1, 0x0, 1, 0x0, 30, 1, .rw, 0⟩,
  ⟨0x60120000, 1, 0x0, 1, 0x0, 29, 1, .wo, 0⟩,
  ⟨0x60120000, 1, 0x0, 1, 0x0, 0, 6, .rw, 0⟩,
  ⟨0x60120004, 1, 0x0, 1, 0x0, 31, 1, .wo, 0⟩,
  ⟨0x60120004, 1, 0x0, 1, 0x0, 0, 2, .wo, 0⟩,
  ⟨0x60120008, 1, 0x0, 1, 0x0, 16, 16, .ro, 0⟩,
  ⟨0x60120008, 1, 0x0, 1, 0x0, 12, 4, .ro, 0⟩,
  ⟨0x60120008, 1, 0x0, 1, 0x0, 8, 2, .ro, 0⟩,
  ⟨0x60120008, 1, 0x0, 1, 0x0, 7, 1, .ro, 0⟩,
  ⟨0x60120008, 1, 0x0, 1, 0x0, 6, 1, .ro, 0⟩,
  ⟨0x60120008, 1, 0x0, 1, 0x0, 5, 1, .ro, 0⟩,
  ⟨0x60120008, 1, 0x0, 1, 0x0, 4, 1, .ro, 0⟩,
  ⟨0x60120008, 1, 0x0, 1, 0x0, 3, 1, .ro, 0⟩,
  ⟨0x60120008, 1, 0x0, 1, 0x0, 0, 3, .ro, 0⟩,
  ⟨0x6012000C, 1, 0x0, 1, 0x0, 28, 4, .ro, 0⟩,
  ⟨0x6012000C, 1, 0x0, 1, 0x0, 25, 3, .ro, 0⟩,
  ⟨0x6012000C, 1, 0x0, 1, 0x0, 20, 4, .ro, 0⟩,
  ⟨0x6012000C, 1, 0x0, 1, 0x0, 16, 4, .ro, 0⟩,
  ⟨0x6012000C, 1, 0x0, 1, 0x0, 8, 8, .ro, 0⟩,
  ⟨0x6012000C, 1, 0x0, 1, 0x0, 0, 8, .ro, 0⟩,
  ⟨0x60120010, 4, 0x4, 1, 0x0, 31, 1, .rwl .armed, 0⟩,
  ⟨0x60120010, 4, 0x4, 1, 0x0, 30, 1, .rwl .armed, 0⟩,
  ⟨0x60120010, 4, 0x4, 1, 0x0, 24, 3, .rwl .armed, 0⟩,
  ⟨0x60120010, 4, 0x4, 1, 0x0, 16, 6, .rwl .armed, 0⟩,
  ⟨0x60120010, 4, 0x4, 1, 0x0, 8, 8, .rwl .armed, 0⟩,
  ⟨0x60120010, 4, 0x4, 1, 0x0, 0, 8, .rwl .armed, 0⟩,
  ⟨0x60120020, 1, 0x0, 1, 0x0, 0, 32, .rw, 0⟩,
  ⟨0x60120024, 1, 0x0, 1, 0x0, 16, 4, .ro, 0⟩,
  ⟨0x60120024, 1, 0x0, 1, 0x0, 8, 4, .ro, 0⟩,
  ⟨0x60120024, 1, 0x0, 1, 0x0, 0, 4, .ro, 0⟩,
  ⟨0x60120028, 1, 0x0, 1, 0x0, 16, 16, .rw, 5000⟩,
  ⟨0x60120028, 1, 0x0, 1, 0x0, 0, 16, .rwl .armed, 10000⟩,
  ⟨0x6012002C, 1, 0x0, 1, 0x0, 8, 8, .rw, 8⟩,
  ⟨0x6012002C, 1, 0x0, 1, 0x0, 0, 8, .rw, 60⟩,
  ⟨0x60120030, 1, 0x0, 1, 0x0, 0, 32, .ro, 0⟩,
  ⟨0x60120034, 1, 0x0, 1, 0x0, 16, 8, .ro, 0⟩,
  ⟨0x60120034, 1, 0x0, 1, 0x0, 0, 8, .ro, 0⟩,
  ⟨0x60120038, 1, 0x0, 1, 0x0, 0, 16, .w1c, 0⟩,
  ⟨0x6012003C, 1, 0x0, 1, 0x0, 0, 32, .ro, 0⟩]

/-- The map of the ACC block, part 1. -/
def rowsACC1 : List Row := [
  ⟨0x60120040, 8, 0x8, 1, 0x0, 28, 4, .ro, 0⟩,
  ⟨0x60120040, 8, 0x8, 1, 0x0, 27, 1, .ro, 0⟩,
  ⟨0x60120040, 8, 0x8, 1, 0x0, 0, 16, .ro, 0⟩,
  ⟨0x60120044, 8, 0x8, 1, 0x0, 0, 32, .ro, 0⟩]

/-- The map of the ACC block. -/
def rowsACC : List Row := rowsACC0 ++ rowsACC1

/-! ### JRNL -/

-- JRNL_CTL (R617 to R619)
def JRNL_CTL_EN : Fld := ⟨0x60130000, 31, 1⟩
def JRNL_CTL_MAX_ATT : Fld := ⟨0x60130000, 16, 4⟩
def JRNL_CTL_HOLD_MS : Fld := ⟨0x60130000, 0, 16⟩
-- JRNL_STAT (R617 to R619)
def JRNL_STAT_READY : Fld := ⟨0x60130004, 31, 1⟩
def JRNL_STAT_FENCED : Fld := ⟨0x60130004, 30, 1⟩
def JRNL_STAT_OP_REJ : Fld := ⟨0x60130004, 29, 1⟩
def JRNL_STAT_QUEUE : Fld := ⟨0x60130004, 16, 6⟩
def JRNL_STAT_OPEN : Fld := ⟨0x60130004, 0, 16⟩
-- JRNL_EV_BASE (R617 to R619)
def JRNL_EV_BASE_BASE : Fld := ⟨0x60130008, 6, 26⟩
-- JRNL_EV_SEQ (R617 to R619)
def JRNL_EV_SEQ_SEQ : Fld := ⟨0x6013000C, 0, 32⟩
-- JRNL_SUB_HDR (R617 to R619)
def JRNL_SUB_HDR_SRC : Fld := ⟨0x60130010, 20, 6⟩
def JRNL_SUB_HDR_KIND : Fld := ⟨0x60130010, 0, 16⟩
-- JRNL_SUB_SEQ (R617 to R619)
def JRNL_SUB_SEQ_SEQ : Fld := ⟨0x60130014, 0, 32⟩
-- JRNL_SUB_TTL (R617 to R619)
def JRNL_SUB_TTL_TTL_S : Fld := ⟨0x60130018, 0, 16⟩
-- JRNL_SUB_DATA (R617 to R619)
def JRNL_SUB_DATA_W (i : Nat) : Fld := ⟨0x60130020 + 0x4 * i, 0, 32⟩
-- JRNL_OP (R617 to R619)
def JRNL_OP_OP : Fld := ⟨0x60130048, 29, 3⟩
def JRNL_OP_OUTCOME : Fld := ⟨0x60130048, 24, 4⟩
def JRNL_OP_INDEX : Fld := ⟨0x60130048, 0, 16⟩
-- JRNL_ARG (R617 to R619)
def JRNL_ARG_ARG : Fld := ⟨0x6013004C, 0, 32⟩
-- JRNL_RESULT (R617 to R619)
def JRNL_RESULT_RESULT : Fld := ⟨0x60130050, 0, 32⟩
-- JRNL_FAULT (R617 to R619)
def JRNL_FAULT_SRC : Fld := ⟨0x60130054, 0, 5⟩
-- JRNL_SRC_CFG (R617 to R619)
def JRNL_SRC_CFG_EN (i : Nat) : Fld := ⟨0x60130100 + 0x4 * i, 31, 1⟩
def JRNL_SRC_CFG_MAX_OPEN (i : Nat) : Fld := ⟨0x60130100 + 0x4 * i, 0, 16⟩
-- JRNL_SRC_ST0 (R617 to R619)
def JRNL_SRC_ST0_W (i : Nat) : Fld := ⟨0x60130200 + 0x8 * i, 0, 32⟩
-- JRNL_SRC_ST1 (R617 to R619)
def JRNL_SRC_ST1_W (i : Nat) : Fld := ⟨0x60130204 + 0x8 * i, 0, 32⟩

/-- The map of the JRNL block. -/
def rowsJRNL : List Row := [
  ⟨0x60130000, 1, 0x0, 1, 0x0, 31, 1, .w1s, 0⟩,
  ⟨0x60130000, 1, 0x0, 1, 0x0, 16, 4, .rw, 3⟩,
  ⟨0x60130000, 1, 0x0, 1, 0x0, 0, 16, .rw, 1000⟩,
  ⟨0x60130004, 1, 0x0, 1, 0x0, 31, 1, .ro, 0⟩,
  ⟨0x60130004, 1, 0x0, 1, 0x0, 30, 1, .ro, 0⟩,
  ⟨0x60130004, 1, 0x0, 1, 0x0, 29, 1, .w1c, 0⟩,
  ⟨0x60130004, 1, 0x0, 1, 0x0, 16, 6, .ro, 0⟩,
  ⟨0x60130004, 1, 0x0, 1, 0x0, 0, 16, .ro, 0⟩,
  ⟨0x60130008, 1, 0x0, 1, 0x0, 6, 26, .rwl .armed, 0⟩,
  ⟨0x6013000C, 1, 0x0, 1, 0x0, 0, 32, .ro, 0⟩,
  ⟨0x60130010, 1, 0x0, 1, 0x0, 20, 6, .rw, 0⟩,
  ⟨0x60130010, 1, 0x0, 1, 0x0, 0, 16, .rw, 0⟩,
  ⟨0x60130014, 1, 0x0, 1, 0x0, 0, 32, .rw, 0⟩,
  ⟨0x60130018, 1, 0x0, 1, 0x0, 0, 16, .rw, 0⟩,
  ⟨0x60130020, 10, 0x4, 1, 0x0, 0, 32, .rw, 0⟩,
  ⟨0x60130048, 1, 0x0, 1, 0x0, 29, 3, .wo, 0⟩,
  ⟨0x60130048, 1, 0x0, 1, 0x0, 24, 4, .wo, 0⟩,
  ⟨0x60130048, 1, 0x0, 1, 0x0, 0, 16, .wo, 0⟩,
  ⟨0x6013004C, 1, 0x0, 1, 0x0, 0, 32, .rw, 0⟩,
  ⟨0x60130050, 1, 0x0, 1, 0x0, 0, 32, .rw, 0⟩,
  ⟨0x60130054, 1, 0x0, 1, 0x0, 0, 5, .w1c, 0⟩,
  ⟨0x60130100, 64, 0x4, 1, 0x0, 31, 1, .rw, 0⟩,
  ⟨0x60130100, 64, 0x4, 1, 0x0, 0, 16, .rw, 256⟩,
  ⟨0x60130200, 64, 0x8, 1, 0x0, 0, 32, .ro, 0⟩,
  ⟨0x60130204, 64, 0x8, 1, 0x0, 0, 32, .ro, 0⟩]

/-! ### MNT -/

-- MNT_CTL (R617 to R619)
def MNT_CTL_EN : Fld := ⟨0x60140000, 31, 1⟩
def MNT_CTL_SCRUB_H : Fld := ⟨0x60140000, 16, 8⟩
def MNT_CTL_SRAM_S : Fld := ⟨0x60140000, 0, 16⟩
-- MNT_REQ (R617 to R619)
def MNT_REQ_OP : Fld := ⟨0x60140004, 28, 4⟩
def MNT_REQ_KIND : Fld := ⟨0x60140004, 24, 4⟩
def MNT_REQ_UNIT : Fld := ⟨0x60140004, 0, 20⟩
-- MNT_REQ_STAT (R617 to R619)
def MNT_REQ_STAT_REJ : Fld := ⟨0x60140008, 31, 1⟩
def MNT_REQ_STAT_SLOT : Fld := ⟨0x60140008, 0, 6⟩
-- MNT_WAIT (R617 to R619)
def MNT_WAIT_WAIT_S : Fld := ⟨0x6014000C, 0, 16⟩
-- MNT_STAT (R617 to R619)
def MNT_STAT_DONE : Fld := ⟨0x60140010, 16, 16⟩
def MNT_STAT_FAILED : Fld := ⟨0x60140010, 8, 8⟩
def MNT_STAT_RUNNING : Fld := ⟨0x60140010, 0, 8⟩
-- MNT_TEL_SRC (R617 to R619)
def MNT_TEL_SRC_ADDR : Fld := ⟨0x60140014, 12, 20⟩
-- MNT_FAULT (R617 to R619)
def MNT_FAULT_SRC : Fld := ⟨0x60140018, 0, 7⟩
-- MNT_ACT (R617 to R619)
def MNT_ACT_STATE (i : Nat) : Fld := ⟨0x60140100 + 0x4 * i, 28, 4⟩
def MNT_ACT_KIND (i : Nat) : Fld := ⟨0x60140100 + 0x4 * i, 24, 4⟩
def MNT_ACT_UNIT (i : Nat) : Fld := ⟨0x60140100 + 0x4 * i, 0, 20⟩

/-- The map of the MNT block. -/
def rowsMNT : List Row := [
  ⟨0x60140000, 1, 0x0, 1, 0x0, 31, 1, .w1s, 0⟩,
  ⟨0x60140000, 1, 0x0, 1, 0x0, 16, 8, .rw, 24⟩,
  ⟨0x60140000, 1, 0x0, 1, 0x0, 0, 16, .rw, 60⟩,
  ⟨0x60140004, 1, 0x0, 1, 0x0, 28, 4, .wo, 0⟩,
  ⟨0x60140004, 1, 0x0, 1, 0x0, 24, 4, .wo, 0⟩,
  ⟨0x60140004, 1, 0x0, 1, 0x0, 0, 20, .wo, 0⟩,
  ⟨0x60140008, 1, 0x0, 1, 0x0, 31, 1, .w1c, 0⟩,
  ⟨0x60140008, 1, 0x0, 1, 0x0, 0, 6, .ro, 0⟩,
  ⟨0x6014000C, 1, 0x0, 1, 0x0, 0, 16, .rw, 600⟩,
  ⟨0x60140010, 1, 0x0, 1, 0x0, 16, 16, .ro, 0⟩,
  ⟨0x60140010, 1, 0x0, 1, 0x0, 8, 8, .ro, 0⟩,
  ⟨0x60140010, 1, 0x0, 1, 0x0, 0, 8, .ro, 0⟩,
  ⟨0x60140014, 1, 0x0, 1, 0x0, 12, 20, .rw, 0⟩,
  ⟨0x60140018, 1, 0x0, 1, 0x0, 0, 7, .w1c, 0⟩,
  ⟨0x60140100, 64, 0x4, 1, 0x0, 28, 4, .ro, 0⟩,
  ⟨0x60140100, 64, 0x4, 1, 0x0, 24, 4, .ro, 0⟩,
  ⟨0x60140100, 64, 0x4, 1, 0x0, 0, 20, .ro, 0⟩]

/-! ### SUB -/

-- SUB_CTL (R617 to R619)
def SUB_CTL_EN : Fld := ⟨0x60150000, 31, 1⟩
-- SUB_CMD (R617 to R619)
def SUB_CMD_OP : Fld := ⟨0x60150004, 28, 4⟩
def SUB_CMD_UNIT : Fld := ⟨0x60150004, 0, 4⟩
-- SUB_STAT (R617 to R619)
def SUB_STAT_STATE : Fld := ⟨0x60150008, 28, 4⟩
def SUB_STAT_OP : Fld := ⟨0x60150008, 24, 4⟩
def SUB_STAT_FRAME : Fld := ⟨0x60150008, 0, 16⟩
-- SUB_TASK_CORE (R617 to R619)
def SUB_TASK_CORE_W (i : Nat) : Fld := ⟨0x60150080 + 0x4 * i, 0, 32⟩
-- SUB_TASK_SKIP (R617 to R619)
def SUB_TASK_SKIP_W (i : Nat) : Fld := ⟨0x60150090 + 0x4 * i, 0, 32⟩
-- SUB_CORES (R617 to R619)
def SUB_CORES_OUT : Fld := ⟨0x60150098, 4, 4⟩
def SUB_CORES_TEST : Fld := ⟨0x60150098, 0, 4⟩
-- SUB_FAULT (R617 to R619)
def SUB_FAULT_SRC : Fld := ⟨0x6015009C, 0, 4⟩
-- SUB_SEG_MAP0 (R617 to R619)
def SUB_SEG_MAP0_FLASH (i : Nat) : Fld := ⟨0x60150100 + 0x8 * i, 16, 16⟩
-- SUB_SEG_MAP1 (R617 to R619)
def SUB_SEG_MAP1_BANK (i : Nat) : Fld := ⟨0x60150104 + 0x8 * i, 16, 8⟩
def SUB_SEG_MAP1_ACTIVE (i : Nat) : Fld := ⟨0x60150104 + 0x8 * i, 0, 1⟩
-- SUB_SEGCRC (R617 to R619)
def SUB_SEGCRC_CRC (i : Nat) : Fld := ⟨0x60150400 + 0x4 * i, 0, 32⟩

/-- The map of the SUB block. -/
def rowsSUB : List Row := [
  ⟨0x60150000, 1, 0x0, 1, 0x0, 31, 1, .w1s, 0⟩,
  ⟨0x60150004, 1, 0x0, 1, 0x0, 28, 4, .wo, 0⟩,
  ⟨0x60150004, 1, 0x0, 1, 0x0, 0, 4, .wo, 0⟩,
  ⟨0x60150008, 1, 0x0, 1, 0x0, 28, 4, .ro, 0⟩,
  ⟨0x60150008, 1, 0x0, 1, 0x0, 24, 4, .ro, 0⟩,
  ⟨0x60150008, 1, 0x0, 1, 0x0, 0, 16, .ro, 0⟩,
  ⟨0x60150080, 4, 0x4, 1, 0x0, 0, 32, .ro, 0⟩,
  ⟨0x60150090, 2, 0x4, 1, 0x0, 0, 32, .ro, 0⟩,
  ⟨0x60150098, 1, 0x0, 1, 0x0, 4, 4, .ro, 0⟩,
  ⟨0x60150098, 1, 0x0, 1, 0x0, 0, 4, .ro, 0⟩,
  ⟨0x6015009C, 1, 0x0, 1, 0x0, 0, 4, .w1c, 0⟩,
  ⟨0x60150100, 16, 0x8, 1, 0x0, 16, 16, .rw, 0⟩,
  ⟨0x60150104, 16, 0x8, 1, 0x0, 16, 8, .rw, 0⟩,
  ⟨0x60150104, 16, 0x8, 1, 0x0, 0, 1, .ro, 0⟩,
  ⟨0x60150400, 256, 0x4, 1, 0x0, 0, 32, .rwl .segs, 0⟩]

/-! ### SWIN -/

-- SWIN_CTL (R386, R387)
def SWIN_CTL_EN : Fld := ⟨0x60160000, 31, 1⟩
def SWIN_CTL_DEB : Fld := ⟨0x60160000, 8, 4⟩
def SWIN_CTL_PER_MS : Fld := ⟨0x60160000, 0, 8⟩
-- SWIN_CFG (R386, R387)
def SWIN_CFG_CFG (i : Nat) : Fld := ⟨0x60160004 + 0x4 * i, 0, 32⟩
-- SWIN_STATE (R386, R387)
def SWIN_STATE_LVL : Fld := ⟨0x60160014, 0, 32⟩
-- SWIN_RAW (R386, R387)
def SWIN_RAW_LVL : Fld := ⟨0x60160018, 0, 32⟩
-- SWIN_CHG (R386, R387)
def SWIN_CHG_CH : Fld := ⟨0x6016001C, 0, 32⟩
-- SWIN_FLT (R386, R387)
def SWIN_FLT_FLT : Fld := ⟨0x60160020, 0, 32⟩
-- ADC_CTL (R386, R387)
def ADC_CTL_EN : Fld := ⟨0x60160040, 31, 1⟩
def ADC_CTL_TRIG : Fld := ⟨0x60160040, 24, 2⟩
def ADC_CTL_TRIG_CH : Fld := ⟨0x60160040, 16, 5⟩
def ADC_CTL_PER_US : Fld := ⟨0x60160040, 0, 16⟩
-- ADC_EN (R386, R387)
def ADC_EN_IN : Fld := ⟨0x60160044, 0, 16⟩
-- ADC_STAT (R386, R387)
def ADC_STAT_SCANS : Fld := ⟨0x60160048, 16, 16⟩
def ADC_STAT_SKIPPED : Fld := ⟨0x60160048, 8, 8⟩
def ADC_STAT_REF_BAD : Fld := ⟨0x60160048, 1, 1⟩
def ADC_STAT_BUSY : Fld := ⟨0x60160048, 0, 1⟩
-- ADC_RES (R386, R387)
def ADC_RES_SEQ (i : Nat) : Fld := ⟨0x60160080 + 0x4 * i, 16, 16⟩
def ADC_RES_CODE (i : Nat) : Fld := ⟨0x60160080 + 0x4 * i, 0, 12⟩

/-- The map of the SWIN block. -/
def rowsSWIN : List Row := [
  ⟨0x60160000, 1, 0x0, 1, 0x0, 31, 1, .rw, 0⟩,
  ⟨0x60160000, 1, 0x0, 1, 0x0, 8, 4, .rw, 3⟩,
  ⟨0x60160000, 1, 0x0, 1, 0x0, 0, 8, .rw, 5⟩,
  ⟨0x60160004, 4, 0x4, 1, 0x0, 0, 32, .rw, 0⟩,
  ⟨0x60160014, 1, 0x0, 1, 0x0, 0, 32, .ro, 0⟩,
  ⟨0x60160018, 1, 0x0, 1, 0x0, 0, 32, .ro, 0⟩,
  ⟨0x6016001C, 1, 0x0, 1, 0x0, 0, 32, .w1c, 0⟩,
  ⟨0x60160020, 1, 0x0, 1, 0x0, 0, 32, .w1c, 0⟩,
  ⟨0x60160040, 1, 0x0, 1, 0x0, 31, 1, .rw, 0⟩,
  ⟨0x60160040, 1, 0x0, 1, 0x0, 24, 2, .rw, 0⟩,
  ⟨0x60160040, 1, 0x0, 1, 0x0, 16, 5, .rw, 0⟩,
  ⟨0x60160040, 1, 0x0, 1, 0x0, 0, 16, .rw, 1000⟩,
  ⟨0x60160044, 1, 0x0, 1, 0x0, 0, 16, .rw, 0⟩,
  ⟨0x60160048, 1, 0x0, 1, 0x0, 16, 16, .ro, 0⟩,
  ⟨0x60160048, 1, 0x0, 1, 0x0, 8, 8, .ro, 0⟩,
  ⟨0x60160048, 1, 0x0, 1, 0x0, 1, 1, .w1c, 0⟩,
  ⟨0x60160048, 1, 0x0, 1, 0x0, 0, 1, .ro, 0⟩,
  ⟨0x60160080, 16, 0x4, 1, 0x0, 16, 16, .ro, 0⟩,
  ⟨0x60160080, 16, 0x4, 1, 0x0, 0, 12, .ro, 0⟩]

/-! ### DBG -/

-- DBG_CTL (R117, R118)
def DBG_CTL_RESUME : Fld := ⟨0x60170000, 5, 1⟩
def DBG_CTL_HALT : Fld := ⟨0x60170000, 4, 1⟩
def DBG_CTL_MODE_REQ : Fld := ⟨0x60170000, 0, 2⟩
-- DBG_STAT (R117, R118)
def DBG_STAT_TOKEN : Fld := ⟨0x60170004, 12, 1⟩
def DBG_STAT_MP : Fld := ⟨0x60170004, 8, 4⟩
def DBG_STAT_HALTED : Fld := ⟨0x60170004, 4, 4⟩
def DBG_STAT_MODE : Fld := ⟨0x60170004, 0, 2⟩
-- DBG_RLOG (R117, R118)
def DBG_RLOG_OVF : Fld := ⟨0x60170008, 8, 1⟩
def DBG_RLOG_USED : Fld := ⟨0x60170008, 0, 7⟩
-- DBG_BP (R117, R118)
def DBG_BP_ADDR (i : Nat) : Fld := ⟨0x60170010 + 0x4 * i, 2, 30⟩
def DBG_BP_EN (i : Nat) : Fld := ⟨0x60170010 + 0x4 * i, 0, 1⟩

/-- The map of the DBG block. -/
def rowsDBG : List Row := [
  ⟨0x60170000, 1, 0x0, 1, 0x0, 5, 1, .wo, 0⟩,
  ⟨0x60170000, 1, 0x0, 1, 0x0, 4, 1, .w1s, 0⟩,
  ⟨0x60170000, 1, 0x0, 1, 0x0, 0, 2, .rw, 0⟩,
  ⟨0x60170004, 1, 0x0, 1, 0x0, 12, 1, .ro, 0⟩,
  ⟨0x60170004, 1, 0x0, 1, 0x0, 8, 4, .ro, 0⟩,
  ⟨0x60170004, 1, 0x0, 1, 0x0, 4, 4, .ro, 0⟩,
  ⟨0x60170004, 1, 0x0, 1, 0x0, 0, 2, .ro, 0⟩,
  ⟨0x60170008, 1, 0x0, 1, 0x0, 8, 1, .w1c, 0⟩,
  ⟨0x60170008, 1, 0x0, 1, 0x0, 0, 7, .ro, 0⟩,
  ⟨0x60170010, 4, 0x4, 1, 0x0, 2, 30, .rw, 0⟩,
  ⟨0x60170010, 4, 0x4, 1, 0x0, 0, 1, .rw, 0⟩]

/-! ### KMB -/

-- KMB_CMD (R588)
def KMB_CMD_GO : Fld := ⟨0x70000000, 31, 1⟩
def KMB_CMD_OP : Fld := ⟨0x70000000, 16, 8⟩
def KMB_CMD_LEN : Fld := ⟨0x70000000, 0, 11⟩
-- KMB_STAT (R588)
def KMB_STAT_BUSY : Fld := ⟨0x70000004, 31, 1⟩
def KMB_STAT_RESULT : Fld := ⟨0x70000004, 16, 8⟩
def KMB_STAT_RSP_LEN : Fld := ⟨0x70000004, 0, 11⟩
-- KMB_INFO (R588)
def KMB_INFO_OWNER : Fld := ⟨0x70000008, 30, 2⟩
def KMB_INFO_ID_OK : Fld := ⟨0x70000008, 29, 1⟩
def KMB_INFO_TOKEN : Fld := ⟨0x70000008, 28, 1⟩
def KMB_INFO_PHASE : Fld := ⟨0x70000008, 24, 3⟩
def KMB_INFO_DIR : Fld := ⟨0x70000008, 23, 1⟩
def KMB_INFO_DL_DONE : Fld := ⟨0x70000008, 22, 1⟩
def KMB_INFO_FAILS : Fld := ⟨0x70000008, 20, 2⟩
def KMB_INFO_EPOCH : Fld := ⟨0x70000008, 0, 16⟩
-- KMB_VER (R588)
def KMB_VER_VER : Fld := ⟨0x7000000C, 0, 32⟩
-- KMB_TLREV (R588)
def KMB_TLREV_REV : Fld := ⟨0x70000010, 0, 32⟩
-- KMB_SEQ (R588)
def KMB_SEQ_SEQ : Fld := ⟨0x70000014, 0, 32⟩
-- KMB_ARG (R588)
def KMB_ARG_W (i : Nat) : Fld := ⟨0x70000400 + 0x4 * i, 0, 32⟩
-- KMB_RSP (R588)
def KMB_RSP_W (i : Nat) : Fld := ⟨0x70000800 + 0x4 * i, 0, 32⟩

/-- The map of the KMB block. -/
def rowsKMB : List Row := [
  ⟨0x70000000, 1, 0x0, 1, 0x0, 31, 1, .sc, 0⟩,
  ⟨0x70000000, 1, 0x0, 1, 0x0, 16, 8, .rw, 0⟩,
  ⟨0x70000000, 1, 0x0, 1, 0x0, 0, 11, .rw, 0⟩,
  ⟨0x70000004, 1, 0x0, 1, 0x0, 31, 1, .ro, 0⟩,
  ⟨0x70000004, 1, 0x0, 1, 0x0, 16, 8, .ro, 0⟩,
  ⟨0x70000004, 1, 0x0, 1, 0x0, 0, 11, .ro, 0⟩,
  ⟨0x70000008, 1, 0x0, 1, 0x0, 30, 2, .ro, 0⟩,
  ⟨0x70000008, 1, 0x0, 1, 0x0, 29, 1, .ro, 0⟩,
  ⟨0x70000008, 1, 0x0, 1, 0x0, 28, 1, .ro, 0⟩,
  ⟨0x70000008, 1, 0x0, 1, 0x0, 24, 3, .ro, 0⟩,
  ⟨0x70000008, 1, 0x0, 1, 0x0, 23, 1, .ro, 0⟩,
  ⟨0x70000008, 1, 0x0, 1, 0x0, 22, 1, .ro, 0⟩,
  ⟨0x70000008, 1, 0x0, 1, 0x0, 20, 2, .ro, 0⟩,
  ⟨0x70000008, 1, 0x0, 1, 0x0, 0, 16, .ro, 0⟩,
  ⟨0x7000000C, 1, 0x0, 1, 0x0, 0, 32, .ro, 0⟩,
  ⟨0x70000010, 1, 0x0, 1, 0x0, 0, 32, .ro, 0⟩,
  ⟨0x70000014, 1, 0x0, 1, 0x0, 0, 32, .ro, 0⟩,
  ⟨0x70000400, 256, 0x4, 1, 0x0, 0, 32, .rw, 0⟩,
  ⟨0x70000800, 256, 0x4, 1, 0x0, 0, 32, .ro, 0⟩]

/-- The rows of the block that an address lies in (R33, R34). -/
def blockRows (a : Nat) : List Row :=
  match a / 0x10000 with
  | 0x6000 => rowsPRISM
  | 0x6001 => rowsPWR
  | 0x6002 => rowsTBASE
  | 0x6003 => rowsFRAME
  | 0x6004 => rowsUMP
  | 0x6005 => rowsCHT
  | 0x6006 => rowsPCHN
  | 0x6007 => rowsLCP
  | 0x6008 => rowsPSCH
  | 0x6009 => rowsCOV
  | 0x600A => rowsTMR
  | 0x600B => rowsFLD
  | 0x600C => rowsCAN
  | 0x600D => rowsNM
  | 0x600E => rowsLIN
  | 0x600F => rowsETH
  | 0x6010 => rowsSENT
  | 0x6011 => rowsUART
  | 0x6012 => rowsACC
  | 0x6013 => rowsJRNL
  | 0x6014 => rowsMNT
  | 0x6015 => rowsSUB
  | 0x6016 => rowsSWIN
  | 0x6017 => rowsDBG
  | 0x7000 => rowsKMB
  | _ => []

end Sys2Proof.Machine
end

