-- ==== Sys2Proof/Machine/Sources.lean ====
section
/-!
DEFINITION. Sys2Proof/Machine/Sources.lean: the 512 Umpire sources: which are reserved (R524), their default reactions (the
source tables of R116, R161, R230, R260 and the other chapters), their classes (R529) and their targets (R730).
-/
namespace Sys2Proof.Machine

/-- Reserved sources (R524 and the source tables). -/
def srcReserved (s : Nat) : Bool :=
  (11 ≤ s && s ≤ 15) || (27 ≤ s && s ≤ 31) || (62 ≤ s && s ≤ 63) || (82 ≤ s && s ≤ 95) ||
  (244 ≤ s && s ≤ 247) || (254 ≤ s && s ≤ 255) || (270 ≤ s && s ≤ 271) || (285 ≤ s && s ≤ 287) ||
  (294 ≤ s && s ≤ 303) || (330 ≤ s && s ≤ 335) || (421 ≤ s && s ≤ 425) || s == 441 || 458 ≤ s

/-- Sources whose default reaction is FENCE. -/
def srcFence (s : Nat) : Bool :=
  s == 56 || (57 ≤ s && s ≤ 60) || (64 ≤ s && s ≤ 75) || (232 ≤ s && s ≤ 238 && s % 2 == 0) ||
  s == 256 || s == 272 || s == 288 || s == 320 || s == 322 || s == 325 ||
  (336 ≤ s && s ≤ 387 && s % 4 == 3) || s == 410 || s == 442 || (450 ≤ s && s ≤ 453)

/-- The default reaction code of a source (R527 and the source tables). -/
def srcDefault (s : Nat) : Nat :=
  if srcReserved s then 0
  else if srcFence s then 2
  else if s == 24 || s == 47 || s == 54 then 3
  else if s == 455 then 4
  else if s == 0 || s == 1 || s == 2 || s == 4 || s == 10 || s == 21 || s == 240 || s == 242 then 5
  else if s == 9 || s == 25 || s == 52 || s == 53 || s == 456 then 6
  else 1

/-- Class SAFETY: a default of FENCE, LIMP or SAFE (R529). -/
def srcSafety (s : Nat) : Bool :=
  srcDefault s == 2 || srcDefault s == 5 || srcDefault s == 6

/-- The target of a source, as `UMP_SRC_CFGs.TGT` shows it (R730). -/
def srcTarget (s : Nat) : Nat :=
  if srcReserved s then 0
  else if s ≤ 34 then 0
  else if s ≤ 46 then 1 + (s - 35) % 4
  else if s == 48 || s == 49 || s == 56 || s == 61 then 0x008
  else if s ≤ 56 then 0
  else if s ≤ 60 then 1 + (s - 57)
  else if s ≤ 63 then 0
  else if s ≤ 79 then 1 + (s - 64) % 4
  else if s ≤ 95 then 0
  else if s ≤ 231 then 0x100 + (s - 96)
  else if s ≤ 239 then 0x010 + (s - 232) / 2
  else if s ≤ 255 then 0
  else if s ≤ 269 then 0x020
  else if s ≤ 284 then 0x021
  else if s ≤ 290 then 0x038
  else if s ≤ 303 then 0
  else if s ≤ 319 then 0x100 + 136 + (s - 304)
  else if s ≤ 329 then 0x040
  else if s ≤ 387 then 0x050 + (s - 336) / 4
  else if s ≤ 393 then 0x060 + (s - 388)
  else if s ≤ 395 then 0x068 + (s - 394)
  else if s ≤ 405 then 0x070 + (s - 396)
  else if s ≤ 409 then 0x07C + (s - 406)
  else if s ≤ 420 then 0x048
  else if s ≤ 441 then 0
  else if s ≤ 446 then 0x0A0
  else if s ≤ 449 then 0
  else if s ≤ 453 then 1 + (s - 450)
  else 0

/-- The fault flag that a report of a source sets in its block's fault register, as that register's address and bit
("Bit i set when source b + i reports"). -/
def srcFlag (s : Nat) : Option (Fld × Nat) :=
  if s ≤ 15 then some (PRISM_FAULT_SRC, s)
  else if s ≤ 31 then some (PWR_FAULT_SRC, s - 16)
  else if s ≤ 61 then some (FRAME_FAULT_SRC, s - 32)
  else if 240 ≤ s && s ≤ 243 then some (PCHN_FAULT_SRC, s - 240)
  else if 248 ≤ s && s ≤ 253 then some (LCP_FAULT_SRC, s - 248)
  else if 256 ≤ s && s ≤ 271 then some (PSCH_FAULT_SRC, s - 256)
  else if 272 ≤ s && s ≤ 287 then some (COV_FAULT_SRC, s - 272)
  else if 288 ≤ s && s ≤ 303 then some (TMR_FAULT_SRC, s - 288)
  else if 304 ≤ s && s ≤ 335 then some (FLD_FAULT_SRC, s - 304)
  else if 336 ≤ s && s ≤ 387 then some (CAN_FAULT_SRC ((s - 336) / 4), (s - 336) % 4)
  else if 396 ≤ s && s ≤ 405 then some (SENT_FAULT_SRC, s - 396)
  else if 406 ≤ s && s ≤ 409 then some (UART_FAULT_SRC, s - 406)
  else if 410 ≤ s && s ≤ 425 then some (ACC_FAULT_SRC, s - 410)
  else if 442 ≤ s && s ≤ 446 then some (JRNL_FAULT_SRC, s - 442)
  else if 447 ≤ s && s ≤ 453 then some (MNT_FAULT_SRC, s - 447)
  else if 454 ≤ s && s ≤ 457 then some (SUB_FAULT_SRC, s - 454)
  else none

end Sys2Proof.Machine
end

