-- ==== Sys2Proof/Machine/Tab.lean ====
section
/-!
DEFINITION. Sys2Proof/Machine/Tab.lean: finite tables from natural-number keys to values, as plain data in one
canonical form. A table lists only the keys whose value differs from the default, in rising order of key, so equal
tables are equal data. Memory, register fields and every per-unit record of the state are such tables.
-/
namespace Sys2Proof.Machine

/-- A table: pairs of key and value. The default of an unlisted key is given where the table is read or written. -/
abbrev Tab (α : Type) := List (Nat × α)

/-- The value of key `k`, which is `d k` where the table does not list it. -/
def Tab.get {α : Type} (d : Nat → α) : Tab α → Nat → α
  | [], k => d k
  | e :: m, k => if k = e.1 then e.2 else Tab.get d m k

/-- Lists `k` with value `v`, before the first larger key, in place of an entry of `k`. -/
def Tab.ins {α : Type} (k : Nat) (v : α) : Tab α → Tab α
  | [] => [(k, v)]
  | e :: m => if k < e.1 then (k, v) :: e :: m else if k = e.1 then (k, v) :: m else e :: Tab.ins k v m

/-- Drops every entry of `k`. -/
def Tab.del {α : Type} (k : Nat) : Tab α → Tab α
  | [] => []
  | e :: m => if k = e.1 then Tab.del k m else e :: Tab.del k m

/-- Writes `v` at `k`: an entry where `v` differs from the default, none where it does not. -/
def Tab.set {α : Type} [DecidableEq α] (d : Nat → α) (m : Tab α) (k : Nat) (v : α) : Tab α :=
  if v = d k then Tab.del k m else Tab.ins k v m

/-- The canonical form: keys strictly rising and no entry equal to the default. -/
def Tab.wf {α : Type} [DecidableEq α] (d : Nat → α) : Tab α → Bool
  | [] => true
  | [e] => decide (e.2 ≠ d e.1)
  | e :: e' :: m => decide (e.2 ≠ d e.1) && decide (e.1 < e'.1) && Tab.wf d (e' :: m)

/-- Drops the entries whose key fails the test. -/
def Tab.keep {α : Type} (p : Nat → Bool) (m : Tab α) : Tab α := m.filter (fun e => p e.1)

end Sys2Proof.Machine
end

