-- ==== Sys2Proof/Machine/State.lean ====
section
/-!
DEFINITION. Sys2Proof/Machine/State.lean: the state of the device as plain data, its reset value, and the reasons a step can
stop. Every register field that spec/ gives lives in `State.fields` under its own address and lowest bit (the map
is Machine/Regs.lean); the state the spec gives besides (memories, adopted tables, engines, queues, pins of the dies) is typed
here, block by block. Instants and intervals are in time-base units of 5 ns (R638) unless a name says otherwise.
-/
namespace Sys2Proof.Machine

/-- Reasons of a fault. A step of this device raises none of them: everything the spec describes is an effect on the
state (error flags, exceptions of a core, Umpire reports). -/
inductive Fault where
  /-- Raised by no command. Safe: a fault stops the model where the device might go on. -/
  | none
deriving DecidableEq, Repr

/-- Reasons of a refusal. -/
inductive Refusal where
  /-- Raised by an arm of `exec` whose command has no meaning yet. Safe: the model stops. -/
  | notModelled (mnemonic : String)
deriving DecidableEq, Repr

/-! ### Power states (chapter 17) -/

/-- The power states of R656. -/
inductive PState where
  | run | idle | sleep | deep | off
deriving DecidableEq, Repr

/-- The power controller beside its registers (R654–R674). -/
structure Pwr where
  /-- The KL15 comparator (R654). -/
  ign : Bool := false
  /-- Since when it has been low. -/
  ignLow : Option Nat := none
  /-- Start of WAIT, T of DESCENT. -/
  waitAt : Nat := 0
  descAt : Nat := 0
  /-- Filtered level of the `WAKE` ball, latch of an edge mode (R659). -/
  wakeLvl : Bool := false
  wakeLatch : Bool := false
  /-- Levels that were present at the entry to IDLE and have not fallen since (R660), as `PWR_WAKE_EN` numbers them. -/
  old : Nat := 0
  /-- An Umpire report with code 2–6, a stored frame, since the state was entered. -/
  ump : Bool := false
  /-- Wakes of LIN controllers (R478); the electrode whose touch has come (R510); below 5.0 V transceivers and PHYs are silent (R650). -/
  lin : Nat := 0
  touch : Option Nat := none
  mute : Bool := false
  rx : Bool := false
  /-- Frames since the entry to IDLE. -/
  frames : Nat := 0
  /-- Flash programs and erases are suspended (R651); LF drive is off, and since when `VBAT_L` is above 8 V again (R650). -/
  flashOff : Bool := false
  lfOff : Bool := false
  /-- When the time base moved to LF counting; the LF source used: 0 none, 1 LXTAL, 2 LFRC, 3 both (R639, R642). -/
  slpAt : Nat := 0
  lf : Nat := 0
  /-- A substitution was abandoned by the entry (R696). -/
  subLost : Bool := false
  /-- When the last start began (R46). -/
  bootAt : Nat := 0
deriving DecidableEq, Repr

/-- A report raised while the clocks wait (R634): source, unit, detail, forced, instant. -/
structure HeldReport where
  src : Nat
  unit : Nat
  detail : Nat
  forced : Bool
  at_ : Nat
deriving DecidableEq, Repr

/-- The clock unit beside its registers (R620–R644). -/
structure Prism where
  /-- A return to the PLL has been committed (R628). -/
  ret : Bool := false
  /-- Causes that persist: source numbers, with the instant of the last report. -/
  causes : Tab (Option Nat) := []
  /-- Every domain is stopped and waits for HFRC (R633). -/
  waiting : Bool := false
  held : List HeldReport := []
deriving DecidableEq, Repr

/-! ### Cores X0–X3 (chapter 03) -/

/-- The flags of `FL` (R123), in true sense in both passes (R155). -/
structure Flags where
  n : Bool := false
  z : Bool := false
  c : Bool := false
  v : Bool := false
deriving DecidableEq, Repr

/-- A register bank (R119): `g1`–`g31`, `FL`, `LS0`–`LS2`, `LE0`–`LE2`, `LC0`–`LC2`; unlisted registers read 0. -/
structure Bank where
  g : Tab Word := []
  fl : Flags := {}
  ls : Tab Word := []
  le : Tab Word := []
  lc : Tab Word := []
deriving DecidableEq, Repr

/-- The pass a core is running (R74): the task, which pass, instructions retired in it (R112) and its cycles. -/
structure Pass where
  task : Nat
  mirror : Bool
  retired : Nat := 0
  cycles : Nat := 0
deriving DecidableEq, Repr

/-- One core (R119, R123): both banks with their program counters, the control registers, the stop conditions of
R130 (double exception), R131 (`WFI`), R107 (debug halt), and the passes the sequencer has still to start on it. -/
structure Core where
  sBank : Bank := {}
  tBank : Bank := {}
  sPc : Word := 0
  tPc : Word := 0
  /-- `PSR.MPUEN`, `PSR.EXL`, `PSR.IE`; `MODE` and `MP` are those of the running pass. -/
  mpuen : Bool := false
  exl : Bool := false
  ie : Bool := false
  epc : Word := 0
  ecause : Word := 0
  eaddr : Word := 0
  epsr : Word := 0
  escr : Word := 0
  svec : Word := 0
  ipend : BitVec 8 := 0
  imask : Word := 0
  tcause : Word := 0
  tepc : Word := 0
  teaddr : Word := 0
  /-- `CYCLE`, 64 bits, and the frozen high word while one is frozen (R123). -/
  cycle : Nat := 0
  cycleHi : Option Word := none
  mpuBase : Tab Word := []
  mpuLim : Tab Word := []
  mpuAttr : Tab Word := []
  stopped : Bool := false
  waiting : Bool := false
  halted : Bool := false
  /-- The clock is stopped, in IDLE and below (R160). -/
  clockOff : Bool := false
  pass : Option Pass := none
  primQ : List Nat := []
  mirrQ : List Nat := []
deriving DecidableEq, Repr

/-! ### Frames (chapter 02) -/

/-- The outcome of a task in a frame (the outcome table of R65), with its code. -/
inductive TaskOut where
  | none | committed | sigMism | cmtMism | agreeSeq | aborted | skipped | exception | late | cmtOvf | rejected
deriving DecidableEq, Repr

/-- An adopted frame table entry (words 0–11), which of the two state banks is the committed one (R80), and what the device shows of
the task in words 12–14: last outcome with its frame, pass times in 0.1 µs, mismatches and aborts. -/
structure Task where
  en : Bool := false
  pin : Bool := false
  cls : Nat := 0
  core : Nat := 0
  order : Nat := 0
  div : Nat := 0
  phase : Nat := 0
  entry : Nat := 0
  cmtMax : Nat := 0
  wcet : Nat := 0
  stTrue : Nat := 0
  stMirr : Nat := 0
  stLen : Nat := 0
  wkTrue : Nat := 0
  wkMirr : Nat := 0
  wkLen : Nat := 0
  pubBase : Nat := 0
  pubLen : Nat := 0
  gen : Nat := 0
  bank : Bool := false
  out : Nat := 0
  outAt : Nat := 0
  primTime : Nat := 0
  mirrTime : Nat := 0
  mism : Nat := 0
  aborts : Nat := 0
deriving DecidableEq, Repr

/-- A store as it enters a signature lane: true address, byte enables, true data (R86). -/
structure Stored where
  addr : Nat
  be : Nat
  data : Word
deriving DecidableEq, Repr

/-- What one task has done in the frame in progress: where it runs (4 where it has no place), its outcome once it has one, the stores of the
signature lanes and the entries of the commit lane of each pass (R81, R86), and its `AGREE` log (R94–R96). -/
structure TaskRun where
  core : Nat := 4
  out : Option TaskOut := none
  primSig : List Stored := []
  mirrSig : List Stored := []
  primCmt : List (Nat × Word) := []
  mirrCmt : List (Nat × Word) := []
  log : List (Nat × Word) := []
  logUsed : Nat := 0
  agreeBad : Bool := false
  primEnd : Bool := false
  mirrEnd : Bool := false
  primCyc : Nat := 0
  mirrCyc : Nat := 0
deriving DecidableEq, Repr

/-- The frame sequencer's state that no register shows: the timing in force (R51), the tick (R52), the frame in
progress, escalation counts and a debug halt. -/
structure Frame where
  len : Nat := 8
  margin : Nat := 50
  res : Nat := 100
  /-- Tref, k and Ck of R52, and the instant of the next T0 before any halt. -/
  tref : Nat := 0
  k : Nat := 0
  ck : Int := 0
  /-- The tick has a Tref; without one the next T0 is the first latch instant at which frames may start. -/
  grid : Bool := false
  /-- The first frame has started. -/
  started : Bool := false
  /-- The compare of this frame has been made. -/
  compared : Bool := false
  /-- The commit of this frame has been made. -/
  applied : Bool := false
  /-- The commit point of this frame has passed (R164). -/
  closed : Bool := false
  /-- When its maintenance slice began. -/
  sliceAt : Nat := 0
  /-- The degradation level in force for the frame, taken at T0 (R536). -/
  level : Nat := 0
  posts : List Nat := []
  /-- Entries read at the last commit point, for the next T0. -/
  staged : List (Nat × Task) := []
  tasks : Tab Task := []
  /-- Cores of class A and B tasks that were ABORTED and have still to report (R99). -/
  ovrDue : List Nat := []
  runs : Tab TaskRun := []
  /-- Consecutive frames with a mismatch, per core (R90). -/
  mismRun : Tab Nat := []
  ovrRun : Nat := 0
  /-- Bit position of the live check (R92). -/
  livePos : Nat := 0
  /-- When the halt in force began; the time halts have taken out of this frame; a halt touched this frame. -/
  haltFrom : Option Nat := none
  haltTime : Nat := 0
  /-- The phase that a halt interrupted (R107). -/
  haltPhase : Nat := 0
  hadHalt : Bool := false
  /-- Data of consuming sources in the snapshot with `RETAIN` (R72): descriptor index, owner task, and the words, presented again
  until the owner commits. -/
  retain : List (Nat × Nat × List Word) := []
  /-- The first T0 after a return to RUN restarts Tref (R105). -/
  restart : Bool := false
deriving DecidableEq, Repr

/-- The lock of the tick (R54–R60): last reference, its period, the phase error still to be spread, and the counts of the
transitions. -/
structure TickLock where
  /-- A reference message passed to the sequencer and not yet taken (R449): controller and timestamp. -/
  inbox : Option (Nat × Nat) := none
  lastRef : Option Nat := none
  period : Nat := 0
  rest : Int := 0
  /-- Consecutive references with a small error, consecutive references missing, and when ACQUIRING or its last 32 periods began. -/
  good : Nat := 0
  missed : Nat := 0
  acq : Nat := 0
  /-- Correction and frames between references, for the last 16 of them, newest first; those since the last one; frames of
  HOLDOVER. -/
  corrs : List (Int × Nat) := []
  since : Int := 0
  frames : Nat := 0
  holdN : Nat := 0
deriving DecidableEq, Repr

/-- A debugger write held for delivery in REPLAY (R112): core, task, the retired count, and a general register or a byte address
with the value. -/
structure RLog where
  core : Nat
  task : Nat
  count : Nat
  isReg : Bool
  target : Nat
  value : Word
deriving DecidableEq, Repr

/-! ### Umpire (chapter 13) -/

/-- The fault state of a source (R531). -/
inductive SrcState where
  | clear | active | permanent
deriving DecidableEq, Repr

/-- What the Umpire holds of one source beside its registers: state, reaction code applied, units fenced by targets
0x008 and 0x038 (R528), and the instant of its last report. -/
structure Source where
  state : SrcState := .clear
  code : Nat := 0
  units : List Nat := []
  last : Nat := 0
deriving DecidableEq, Repr

/-- The Umpire: the sources, the log ring (four words a record, newest `SEQ` in `UMP_LOG_SEQ`), the causes that hold
`SAFE_N` low, the self-protection latch and the force bits not yet taken. -/
structure Umpire where
  srcs : Tab Source := []
  log : Tab (List Word) := []
  /-- SAFE has been entered; the cause is `UMP_STAT.CAUSE`. -/
  safe : Bool := false
  /-- The Umpire holds `SAFE_N` low: from power-up to the test of the direct path, by R46, in SAFE, or by R541. -/
  safeHeld : Bool := true
  /-- Service mode (R47). -/
  service : Bool := false
deriving DecidableEq, Repr

/-! ### Channel table, switch dies, pulse engine, lighting (chapters 04, 05) -/

/-- Words 0–7 of a channel table entry as adopted into the cache (R175). -/
structure Entry where
  w0 : Word := 0
  w1 : Word := 0
  w2 : Word := 0
  w3 : Word := 0
  w4 : Word := 0
  w5 : Word := 0
  w6 : Word := 0
  w7 : Word := 0
deriving DecidableEq, Repr

/-- A Touchline channel entry (R566), its limits as R211 names them. -/
structure TlEntry where
  gates : Nat := 0
  blocked : Nat := 0
  bstopOk : Nat := 0
  pair : Nat := 63
  ilimMax : Nat := 0
  inrMax : Nat := 0
  rateMax : Nat := 0
  dutyMax : Nat := 0
  onMax : Nat := 0
  offMin : Nat := 0
  eMax : Nat := 0
  pairGap : Nat := 0
  retryMax : Nat := 0
  bstopInit : Nat := 0
deriving DecidableEq, Repr

/-- The running stretch of a channel's PWM bit (R243–R249), in slots: it begins at `start`, the bit is 1 below `onEnd`
and 0 from there to `stop`; then the next stretch begins. -/
structure Pulse where
  start : Nat
  onEnd : Nat
  stop : Nat
deriving DecidableEq, Repr

/-- An open inrush window (R187–R191): when it opened, the drooped time already added, and since when its group
droops. -/
structure Inrush where
  start : Nat
  ext : Nat := 0
  droopFrom : Option Nat := none
deriving DecidableEq, Repr

/-- The Touchline holds of R211. -/
inductive Hold where
  | onTime | energy
deriving DecidableEq, Repr

/-- One channel, index 0–151 for switch-die channels and field outputs: the cached entry and the one that governs from
the next T0, the protection, the Touchline holds, the diagnostics and the measured values. -/
structure Chan where
  entry : Entry := {}
  /-- Read at the last commit point, in force from the next T0 (R165). -/
  shadow : Option Entry := none
  /-- The cache holds an adopted entry; the die holds it since it was last armed (R733, R173); the channel has left its
  Backstop state since then (R221). -/
  cached : Bool := false
  adopted : Bool := false
  fresh : Bool := false
  genAck : Nat := 0
  /-- Field outputs: the entry whose protection values still bind beside the new ones (R397). -/
  old : Option Entry := none
  /-- Field outputs: the T0 of an adoption whose parameter block has not taken effect yet (R397). -/
  pend : Option Nat := none
  /-- The Backstop state in the die's Backstop table (R215) and the level HOLD holds (R214). -/
  bstop : Nat := 0
  held : Nat := 0
  thermal : Bool := false
  latched : Bool := false
  /-- LATCHED arose while the die was unarmed (R733). -/
  latchedUnarmed : Bool := false
  /-- End of the retry wait, or its frozen remainder while THERMAL (R196). -/
  retryEnd : Option Nat := none
  retryLeft : Option Nat := none
  retryCnt : Nat := 0
  cuts : Nat := 0
  inrush : Option Inrush := none
  /-- The next latch at which the output turns on opens a window (R187); the window is then not held back. -/
  arm : Bool := true
  /-- Start of continuous commanded operation (R734). -/
  since : Option Nat := none
  hold : Option Hold := none
  holdFrom : Nat := 0
  /-- Off-to-on transitions of the last second, newest first (`TL_RATE_MAX`). -/
  turnOns : List Nat := []
  /-- When the output last turned off, for `TL_PAIR_GAP`; the member is withheld (R212). -/
  offAt : Option Nat := none
  onAt : Option Nat := none
  withheld : Bool := false
  /-- Chain bit last delivered and output level at the last latch. -/
  bit : Bool := false
  out : Bool := false
  pulse : Option Pulse := none
  /-- The sticky `FLT` bits [14:0], `CNT`, and the bits reported in this frame (R207). -/
  flt : Nat := 0
  fltCnt : Nat := 0
  rptd : Nat := 0
  tlLim : Bool := false
  sawDroop : Bool := false
  /-- The sense path failed its calibration (R208). -/
  senseBad : Bool := false
  stalled : Bool := false
  /-- The reversal brake of R181 ends at this instant. -/
  revEnd : Option Nat := none
  /-- Demagnetisation of the last turn-off has ended at this instant (R205); off windows run since. -/
  demagAt : Option Nat := none
  offHits : Nat := 0
  batHits : Nat := 0
  /-- A signature search is open since this on or off latch (R210). -/
  sigOn : Option Nat := none
  sigOff : Option Nat := none
  latOn : Nat := 0xFFFF
  latOff : Nat := 0xFFFF
  ripplePos : Int := 0
  ripplePer : Nat := 0
  rippleAt : Option Nat := none
  rippleRev : Bool := false
  /-- Clamp energy in mJ of the plateaus of the last second, newest first: instant and energy (R200). -/
  clamps : List (Nat × Nat) := []
  /-- Measured: mean and peak current in mA, junction temperature at T0, its peak, and as last seen, in 1/16 °C. -/
  iMean : Nat := 0
  iPeak : Nat := 0
  tj : Int := 0
  tjPeak : Int := 0
  tjNow : Int := 0
deriving DecidableEq, Repr

/-- Why a die is in BACKSTOP (R219, R238). -/
inductive BackCause where
  | none | watchdog | fence | command | limp | clock | power
deriving DecidableEq, Repr

/-- The image, table or bank a configuration frame loads (R239). -/
structure Load where
  target : Nat
  block : Nat
  data : List Byte
deriving DecidableEq, Repr

/-- One switch die SD0–SD3: the serial watchdog, the frame counts, pending commands, staged banks, limp filter. -/
structure Die where
  wdAt : Nat := 0
  lastLive : Option Nat := none
  valid : Nat := 0
  /-- Instants of forward and return CRC errors in the last 1 ms. -/
  crcAt : List Nat := []
  retAt : List Nat := []
  cause : BackCause := .none
  bstopReq : Bool := false
  resumeReq : Bool := false
  /-- The die resumes by itself after the return from SLEEP (R219). -/
  autoResume : Bool := false
  wdUs : Nat := 2000
  limp : Nat := 0
  routes : Tab Nat := []
  /-- Blocks received in this load; the load of all its tables has ended with a correct CRC; the CRC-32 of the image held. -/
  loads : List Load := []
  loaded : Bool := false
  imageCrc : Nat := 0
  seqStaged : Bool := false
  tlStaged : Bool := false
  /-- The header's `SWAP` bit of this die is set for the next T0 latch (R235, R610). -/
  swapNow : Bool := false
  stagedTl : Tab TlEntry := []
  /-- The die is unpowered (OFF). -/
  unpowered : Bool := false
  hot : Bool := false
  /-- Current-status bits for the status line: last forward segment failed its CRC. -/
  lastBad : Bool := false
deriving DecidableEq, Repr

/-- One supply group (R189, R201). -/
structure Group where
  drooped : Bool := false
  uv : Bool := false
  high : Bool := false
  low : Bool := false
deriving DecidableEq, Repr

/-- The chain master and the pulse engine (R216, R238). -/
structure Chain where
  live : Nat := 0
  liveAt : Nat := 0
  /-- Instant at which a stall of `LIVE` last reported. -/
  stallAt : Nat := 0
  hdrBad : Nat := 0
  /-- The last latch period, and the last one that carried a configuration frame (R239). -/
  latchAt : Nat := 0
  cfgAt : Option Nat := none
deriving DecidableEq, Repr

/-- An LED chain port (R257): consecutive loop-check failures, the omitted segment, the request's start. -/
structure LedPort where
  hdrBad : Nat := 0
  cntBad : Nat := 0
  omitted : Bool := false
  reqAt : Nat := 0
  /-- Output bits the drivers applied at the last LED latch, where 1. -/
  bits : Tab Bool := []
deriving DecidableEq, Repr

/-! ### Position scheduler (chapter 06) -/

/-- A wheel slot (R267, R269): last capture, the interval of the last two, exclusion and its report. -/
structure Wheel where
  last : Option Nat := none
  per : Option Nat := none
  /-- Since when the wheel is excluded; since when neither condition holds; the exclusion has reported. -/
  excl : Option Nat := none
  okSince : Option Nat := none
  told : Bool := false
  /-- The wheel's `EN` as the last tick saw it. -/
  en : Bool := false
deriving DecidableEq, Repr

/-- A latency filter (R299), in 1/16 µs: samples accepted, their sum until `N_MIN`, F, and the run of outliers on one side. -/
structure LatFilter where
  n : Nat := 0
  sum : Int := 0
  f : Int := 0
  outs : List Int := []
  above : Bool := false
  /-- A clamp episode is under way (R300). -/
  clamped : Bool := false
deriving DecidableEq, Repr

/-- An actuation point (R282): entry in force and the one for the next T0, logical state, path, position, filters. -/
structure Point where
  entry : Entry := {}
  shadow : Option Entry := none
  genAck : Nat := 0
  logical : Bool := false
  fallback : Bool := false
  /-- TIME fallback has taken `CMD` at its T0 (R304). -/
  fbSet : Bool := false
  path : Nat := 0
  e : Int := 0
  n : Int := 0
  v : Int := 0
  on : LatFilter := {}
  off : LatFilter := {}
  flt : Nat := 0
  fltCnt : Nat := 0
deriving DecidableEq, Repr

/-- A pending event (R287): its four words, whether its two senses are armed (R291), and whether it has been evaluated. -/
structure Event where
  w0 : Word
  w1 : Word
  w2 : Word
  w3 : Word
  armA : Bool := false
  armB : Bool := false
  placed : Bool := false
deriving DecidableEq, Repr

/-- An event placed at a latch (R294), with its lateness and lead in time-base units. -/
structure Placed where
  latch : Nat
  slot : Nat
  w0 : Word
  late : Nat
  lead : Nat
deriving DecidableEq, Repr

/-- A correction: E, N in mm, heading, accuracy, spread; `abs` for SET (R277). -/
structure Corr where
  abs : Bool
  e : Int
  n : Int
  h : Int
  u : Nat
  spread : Nat
  force : Bool
deriving DecidableEq, Repr

/-- A DELTA being spread (R277): what is left, in internal units, the step per tick, ticks left, final U. -/
structure Spread where
  e : Int
  n : Int
  h : Int
  de : Int
  dn : Int
  dh : Int
  left : Nat
  u : Nat
deriving DecidableEq, Repr

/-- What the windows of R309 show, as latched at the last T0: words 8–15 of each point, pending slots, history, log. -/
structure PschView where
  points : Tab (List Word) := []
  pend : List Nat := []
  hist : Tab (List Word) := []
  fired : Tab (List Word) := []
deriving DecidableEq, Repr

/-- The position scheduler's own state (R263). -/
structure Psch where
  e : Int := 0
  n : Int := 0
  h : Nat := 0
  yaw : Int := 0
  v : Int := 0
  path : Nat := 0
  u : Nat := 0
  wheels : Tab Wheel := []
  rev : Bool := false
  /-- Frames since `PSCH_VFW` was last committed; none before the first commit (R270). -/
  vfwAge : Option Nat := none
  /-- Inputs for the next tick (R265): captures (slot, instant, level of the direction input), SENT codes with their instants,
  signatures (channel, opening, 1/16 µs or missing). -/
  caps : List (Nat × Nat × Bool) := []
  yawIn : List (Nat × Nat) := []
  sigs : List (Nat × Bool × Option Nat) := []
  /-- Runs of missing signatures per channel (R298). -/
  misses : Tab Nat := []
  yawAt : Option Nat := none
  yawRate : Int := 0
  /-- Since when v is 0 in WHEELS (R274). -/
  still : Option Nat := none
  corr : List Corr := []
  spread : Option Spread := none
  corrAt : Option Nat := none
  /-- LOST by the return from SLEEP (R280, R307). -/
  lost : Bool := false
  points : Tab Point := []
  posts : List Nat := []
  events : Tab (Option Event) := []
  placed : List Placed := []
  fired : Tab (List Word) := []
  firedSeq : Nat := 0
  hist : Tab (List Word) := []
  /-- Since when the entry condition of the speed window holds; the window is entered (R302). -/
  dwell : Option Nat := none
  inWin : Bool := false
  /-- A change of `APPLY_OK` decided and not yet at its latch (R265). -/
  applyNext : Option (Nat × Bool) := none
  view : PschView := {}
deriving DecidableEq, Repr

/-! ### Field die (chapter 09) -/

/-- What the uplink shows of a field input (R394, R407). -/
structure InputView where
  raw : Bool := false
  level : Bool := false
  rise : Nat := 0
  fall : Nat := 0
  ups : Nat := 0
  downs : Nat := 0
deriving DecidableEq, Repr

/-- A field input inside FLD (R404, R405, R408, R409): its true state, the run of raw levels opposite to the filtered one
with its first instant, stamps since the last T0, and what the logic die has been sent. -/
structure FieldIn where
  now : InputView := {}
  run : Nat := 0
  runAt : Nat := 0
  /-- The filter restarts from the present raw level at the next sample (R409). -/
  restart : Bool := true
  stampUp : Bool := false
  stampDn : Bool := false
  lost : Bool := false
  seen : InputView := {}
deriving DecidableEq, Repr

/-- The field die and its link (R389–R413). `FLD_STAT` shows the mode. -/
structure Field where
  /-- Barrier power is on. -/
  powered : Bool := false
  /-- The outputs stand in their safe state until RESUME (R411, R413); the safe state comes at the next field latch. -/
  safe : Bool := false
  safeNext : Bool := false
  lastLive : Option Nat := none
  /-- The last restart of the timeout (R391), and the count of consecutive valid frames (R413). -/
  tmoAt : Nat := 0
  valid : Nat := 0
  dnErr : List Nat := []
  upErr : List Nat := []
  hdrBad : Nat := 0
  /-- The frame that governs the next field latch was a valid operate frame. -/
  frameOk : Bool := false
  /-- When the mode was entered; its limit has reported; failed transfers of the load (R583). -/
  modeAt : Nat := 0
  told : Bool := false
  fails : Nat := 0
  /-- A staged Touchline bank and its swap at the next field latch (R401, R612). -/
  stagedTl : Option (Tab TlEntry) := none
  swapNow : Bool := false
  ins : Tab FieldIn := []
deriving DecidableEq, Repr

/-! ### Maintenance arbiter (chapter 15) -/

/-- Who asked for an activity: firmware, a block, the arbiter itself (R603). -/
inductive Asker where
  | firmware | block | arbiter
deriving DecidableEq, Repr

/-- A slot of the arbiter (R601, R618): state code of `MNT_ACTs`, kind, unit, asker, place in request order, instants of the
request and of the start or end. -/
structure Slot where
  state : Nat := 0
  kind : Nat := 0
  unit : Nat := 0
  asker : Asker := .firmware
  ord : Nat := 0
  reqAt : Nat := 0
  ranAt : Nat := 0
deriving DecidableEq, Repr

/-- The arbiter: its slots, the requests so far, when each periodic request was last made (R601). -/
structure Mnt where
  slots : Tab Slot := []
  reqs : Nat := 0
  scrubAt : Nat := 0
  scrubNext : Nat := 0
  bankAt : Tab Nat := []
  /-- Corrected bits per flash block since its last erase (R601 kind 4). -/
  corrected : Tab Nat := []
deriving DecidableEq, Repr

/-! ### Coverage engine (chapter 07) -/

/-- A resident tile (R343, R344, R360): layer 0 coverage, 1 exclusion, 2 rate; a uniform tile holds no blocks. `age` counts
cycles since the last paint or read; `wbAt` is its last write-back, `chg` the cell updates since. -/
structure Tile where
  layer : Nat
  tx : Nat
  ty : Nat
  dirty : Bool := false
  uniform : Bool := true
  damaged : Bool := false
  block : Nat := 0
  value : Nat := 0
  age : Nat := 0
  wbAt : Option Nat := none
  chg : Nat := 0
deriving DecidableEq, Repr

/-- The valid stored copy of a tile of the open field (R350): uniform value, or first block and CRC. -/
structure Copy where
  uniform : Bool
  value : Nat
  block : Nat
  crc : Word
deriving DecidableEq, Repr

/-- The spray state and the painting state of a point (R317, R319, R321): effective state last seen, ground transitions to
come, σ; the start edge, the high-water path; the cells of the previous cycle; the loupe or footprint is off the grid. -/
structure CovPoint where
  openWas : Bool := false
  ahead : List (Nat × Bool) := []
  sigma : Bool := false
  start : Option (Int × Int × Int × Int) := none
  hw : Nat := 0
  prev : List (Nat × Nat) := []
  offGrid : Bool := false
  /-- The point was in automatic mode at the last cycle (R335). -/
  auto : Bool := false
deriving DecidableEq, Repr

/-- What a scheduler tick leaves for the next cycle, per point (R319): whether it paints (R323), σ, the edge L, R in mm and
the path length in mm. -/
structure TickRec where
  pt : Nat
  paints : Bool
  sigma : Bool
  le : Int
  ln : Int
  re : Int
  rn : Int
  path : Nat
deriving DecidableEq, Repr

/-- An edit under way (R339, R340): FILL of a rectangle from cell number `at_`, or INSTALL. -/
structure Edit where
  install : Bool
  layer : Nat
  value : Nat
  x0 : Nat
  y0 : Nat
  x1 : Nat
  y1 : Nat
  src : Nat
  pos : Nat := 0
deriving DecidableEq, Repr

/-- The coverage engine's own state. -/
structure Cov where
  rt : Tab (Option Tile) := []
  points : Tab CovPoint := []
  ticks : List TickRec := []
  edit : Option Edit := none
  /-- Cell increments deferred until a page-in: tile and cell (R346). -/
  log : List (Nat × Nat × Nat) := []
  /-- Query records of the last cycle, of the one before, and when the last completes (R316). -/
  res : Tab (List Word) := []
  resOld : Tab (List Word) := []
  doneAt : Nat := 0
  cycleAt : Nat := 0
  told : Bool := false
  /-- The tiles around which the paging set lies, at the last cycle: layer, tx, ty (R345). -/
  paging : List (Nat × Nat × Nat) := []
  /-- The valid stored tiles of the open field, by `layer * 65536 + ty * 256 + tx`. -/
  dir : Tab (Option Copy) := []
  flushAt : Nat := 0
  /-- The state a FENCE was entered from (R356). -/
  from_ : Nat := 0
deriving DecidableEq, Repr

/-- What the field store remembers across power cycles (R349, R351): the directory half in use and its records, the last
sequence number, freed blocks that wait for erasure, and the order of erasures. -/
structure FieldStore where
  half : Bool := false
  used : Nat := 0
  seq : Nat := 0
  freed : List Nat := []
  erased : Tab Nat := []
  erasures : Nat := 0
deriving DecidableEq, Repr

/-! ### Timer units, switch inputs, ADC (chapter 08) -/

/-- A timer channel (R361–R378). -/
structure TmrChan where
  entry : Entry := {}
  shadow : Option Entry := none
  genAck : Nat := 0
  /-- The instant up to which ticks have been counted, the counter, the prescaled edges since the last that acted. -/
  syncAt : Nat := 0
  cnt : Nat := 0
  psc : Nat := 0
  /-- The period and the compare value in force (R374, R376); the next increment truncates (R377) or clears (R378). -/
  per : Nat := 0
  cmpNow : Nat := 0
  truncNext : Bool := false
  clrNext : Bool := false
  rolls : Nat := 0
  hits : Nat := 0
  /-- The instant of the last match. -/
  matchAt : Option Nat := none
  /-- The filtered level; edges of the selected sense since the previous capture; the capture sequence number. -/
  lvl : Bool := false
  edges : Nat := 0
  seq : Nat := 0
  /-- The visible capture pair, the buffered pair, the freeze (R370, R371). -/
  capLo : Nat := 0
  capHi : Nat := 0
  buf : Option (Nat × Nat) := none
  frozen : Bool := false
  /-- `FLAGS`: 5 NEW, 4 PER_TRUNC, 3 CAP_OVR, 2 SKIP, 1 POST_REJ. -/
  flags : Nat := 0
deriving DecidableEq, Repr

/-- A scan of the ADC under way, and how many samples at the new level each switch input has had (R381, R383). -/
structure Scan where
  adcAt : Option Nat := none
  swin : Tab Nat := []
deriving DecidableEq, Repr

/-! ### CAN controllers and network management (chapters 10, 11) -/

/-- A frame to be sent, as it was staged (R439), with the SOF of its last attempt. -/
structure TxFrame where
  ide : Bool := false
  fdf : Bool := false
  brs : Bool := false
  rtr : Bool := false
  oneshot : Bool := false
  id : Nat := 0
  tag : Nat := 0
  dlc : Nat := 0
  data : List Word := []
  sof : Nat := 0
deriving DecidableEq, Repr

/-- Where a frame in transmission comes from (R442). -/
inductive TxFrom where
  | reference | urgent | keeper | fifo
deriving DecidableEq, Repr

/-- A receive buffer (R432–R435): the adopted entry and the one for the next T0, the sequence number, frames lost at a head,
the buffer of the ring written last, the order of arrival of its frame, and its two `FLT` halves. -/
structure RxBuf where
  entry : Entry := {}
  shadow : Option Entry := none
  genAck : Nat := 0
  seq : Nat := 0
  lost : Nat := 0
  last : Option Nat := none
  stamp : Nat := 0
  rej : Bool := false
deriving DecidableEq, Repr

/-- One CAN controller beside its registers. -/
structure Can where
  fifo : List TxFrame := []
  urgent : Option TxFrame := none
  keeper : List TxFrame := []
  /-- The reference slot (R450). -/
  refSlot : Option TxFrame := none
  /-- The frame in transmission; it was flushed or aborted while being sent (R444). -/
  sending : Option TxFrom := none
  aborted : Bool := false
  /-- Instants of the SOFs counted by R447, newest first; a hold episode is open. -/
  sofs : List Nat := []
  held : Bool := false
  bufs : Tab RxBuf := []
  posts : List Nat := []
  stamps : Nat := 0
  /-- When the last reference was seen, and whether its absence has been reported (R450). -/
  refAt : Nat := 0
  refTold : Bool := false
  /-- The last reference message (R449). -/
  lastRef : Option Nat := none
  /-- A protocol exception waits for 11 recessive bits (R437). -/
  pxWait : Bool := false
  /-- The controller's clock branch is still on HFRC after a return (R628). -/
  onHfrc : Bool := false
deriving DecidableEq, Repr

/-- The network management of one controller beside its registers (R461–R472). -/
structure Nm where
  /-- Rallies sent since the entry to NETWORK, and when the last one was due. -/
  sent : Nat := 0
  rallyAt : Nat := 0
  /-- The rally that entry to NETWORK sends once the controller may transmit carries the wake flag. -/
  wakeFlag : Bool := false
  /-- Start of the network timer, of PREPARE_SLEEP, of the false-wake time. -/
  tmoAt : Nat := 0
  prepAt : Nat := 0
  fwAt : Option Nat := none
  /-- PREPARE_SLEEP has ended; the controller leaves at the next bus idle (R465). -/
  leaving : Bool := false
  /-- The cause of the wake, until the device is in RUN (R472). -/
  level : Bool := false
  /-- When the network last left BUS_SLEEP. -/
  leftAt : Option Nat := none
  /-- A write of `REQ` in the commit under way takes the network out of BUS_SLEEP (R467). -/
  waking : Bool := false
deriving DecidableEq, Repr


/-! ### LIN, Ethernet, SENT, UART (chapter 11) -/

/-- A LIN controller: the schedule base in force, the next slot, the start and length of the running one, the frame in
progress (its identifier), last bus activity, instants of frame errors. -/
structure Lin where
  base : Nat := 0
  slot : Nat := 0
  slotAt : Nat := 0
  slotLen : Nat := 0
  frame : Option Nat := none
  actAt : Nat := 0
  errs : List Nat := []
  /-- The rate at which the responder serves the frame, from its sync field, in bit/s (R477). -/
  rate : Nat := 0
  /-- The frame in progress is the go-to-sleep command of a SLEEP slot. -/
  sleepCmd : Bool := false
deriving DecidableEq, Repr

/-- An Ethernet port: the next descriptors of its rings, frames are being sent, instants of drops. -/
structure Eth where
  rx : Nat := 0
  tx : Nat := 0
  sending : Bool := false
  drops : List Nat := []
deriving DecidableEq, Repr

/-- A SENT receiver: last calibration pulse in 10 ns, instants of invalid frames, when the last valid frame or the last
report of silence was. -/
structure Sent where
  cal : Option Nat := none
  bad : List Nat := []
  heardAt : Nat := 0
deriving DecidableEq, Repr

/-- A received UART byte with its parity and framing errors. -/
structure RxByte where
  b : Byte
  pe : Bool
  fe : Bool
deriving DecidableEq, Repr

/-- A UART: its FIFOs, when the byte being sent began, end of the last stop bit and whether idle was latched since, instants
of parity and framing errors. -/
structure Uart where
  rx : List RxByte := []
  tx : List Byte := []
  txAt : Nat := 0
  stopAt : Option Nat := none
  errs : List Nat := []
deriving DecidableEq, Repr

/-! ### Cab access (chapter 12) -/

/-- A reply that passed its CRC and waits for the keeper's verdict (R501, R503): its slot, token ID, RSSI codes as sent (`LF5`
in the high byte), whether its response matches the enrolled secret, and when its slot ended. -/
structure Reply where
  slot : Nat
  token : Nat
  codes : Nat
  mac : Bool
  at_ : Nat
  sub : Bool
deriving DecidableEq, Repr

/-- An exchange under way (R499–R506): zone, the electrode that triggered it, the challenge, when the window in use opened, the
next slot, the RECHAL in use (slot, bit, whether its first sub-slot collided), the rounds so far, classes of slots as masks,
valid tokens with their codes, replies that wait. -/
structure Exchange where
  zone : Nat
  touch : Option Nat := none
  startAt : Nat := 0
  chal : Nat := 0
  window : Nat := 0
  next : Nat := 0
  rechal : Option (Nat × Nat) := none
  subColl : Bool := false
  rounds : Nat := 0
  coll : Nat := 0
  stuck : Nat := 0
  valid : Nat := 0
  wrong : Nat := 0
  settled : Nat := 0
  found : List (Nat × Nat) := []
  codes : Tab Nat := []
  wait : List Reply := []
deriving DecidableEq, Repr

/-- An electrode (R512): silent exchanges in a row, doublings, end of its suspension. -/
structure Pad where
  silent : Nat := 0
  doubled : Nat := 0
  suspEnd : Option Nat := none
deriving DecidableEq, Repr

/-- The access die. -/
structure Acc where
  exch : Option Exchange := none
  /-- A pending request's zone (R511). -/
  pend : Option Nat := none
  /-- A touch that woke the device and waits for RUN (R510). -/
  waitTouch : Option Nat := none
  lockEnd : Option Nat := none
  authAt : Option Nat := none
  pads : Tab Pad := []
  log : Tab (List Word) := []
  /-- A fall of `IMMO_OK` that has still to report source 419 (R517). -/
  dropDue : Bool := false
deriving DecidableEq, Repr

/-- An enrolled token (R518): its ID; its secret is held by the keeper and shows in no other state. -/
structure Token where
  id : Nat
deriving DecidableEq, Repr

/-- What the keeper holds of access in MRAM (R515, R519): failure count, escalation, remaining lockout as last written, the
enrolled tokens, the enrolment counter. -/
structure AccKept where
  fail : Nat := 0
  esc : Nat := 0
  remain : Nat := 0
  tokens : Tab (Option Token) := []
  life : Nat := 0
deriving DecidableEq, Repr

/-! ### The keeper (chapter 14) -/

/-- What the manifest of a container names (R570–R572): version, floor, a PATCH, sections of kinds 1–4 (as running-image
sector numbers they cover), a Touchline set (revision and floor), a calibration set. -/
structure Manifest where
  version : Nat := 0
  floor : Nat := 0
  patch : Bool := false
  sectors : List Nat := []
  tl : Option (Nat × Nat) := none
  cal : Bool := false
deriving DecidableEq, Repr

/-- The keeper's records in MRAM (R555–R564, R576–R581). Keys are 512-bit numbers; `owner` is none while UNOWNED. The update
phase is 0 NONE, 1 DOWNLOAD, 2 VERIFIED, 3 ACTIVATING, 4 PROBATION. -/
structure Vault where
  pub : Option Nat := none
  owner : Option Nat := none
  epoch : Nat := 0
  imgFloor : Nat := 0
  tlFloor : Nat := 0
  phase : Nat := 0
  reverse : Bool := false
  dlLen : Nat := 0
  dlNext : Nat := 0
  dlDone : Bool := false
  verifyAsked : Bool := false
  fails : Nat := 0
  staged : Manifest := {}
  running : Manifest := {}
  /-- Sectors whose swap the activation journal holds as done (R578). -/
  swapped : Nat := 0
  starts : Nat := 0
  /-- Both copies of a record fail (R564). -/
  damaged : Bool := false
deriving DecidableEq, Repr

/-- A service session (R574). -/
structure Session where
  tool : Nat
  nonce : Nat
  heard : Nat
deriving DecidableEq, Repr

/-- The keeper's own state, lost with its RAM. -/
structure Keeper where
  session : Option Session := none
  /-- The mailbox command under way and when it was issued. -/
  cmd : Option (KmbReq × Nat) := none
  /-- TRNG output is stopped (R550). -/
  trngOff : Bool := false
  /-- A verification runs; the request to answer. -/
  verifying : Bool := false
  verifyFor : Option (Nat × Nat) := none
  /-- Requests that wait for random data: `OP`, tool, `SEQ`, since when (R550). -/
  waitSvc : List (Nat × Nat × Nat × Nat) := []
  /-- SM3 measurements of the SEQ, FLD and ACC images as loaded at this start (R583). -/
  measures : List Nat := []
  /-- A DL_DATA was discarded for its offset and no reply has said so (R575). -/
  offBad : Bool := false
  /-- A download session is open (R574, R696). -/
  dlOpen : Bool := false
  /-- Debug token in force: permissions and end. -/
  perms : Nat := 0
  tokenEnd : Option Nat := none
  /-- Nonces that serve one presentation: those of DBG_NONCE, and the debug port's. -/
  nonces : List Nat := []
  portNonce : Nat := 0
  /-- The reset of R577 is due. -/
  resetAt : Option Nat := none
deriving DecidableEq, Repr

/-! ### Work journal, substitution (chapter 15) -/

/-- A work item (R590); state 0 FREE, 1 ACCEPTED, 2 CLAIMED, 3 DONE. `since` is the full time base at acceptance. -/
structure Item where
  state : Nat := 0
  outcome : Nat := 0
  src : Nat := 0
  kind : Nat := 0
  seq : Nat := 0
  since : Nat := 0
  attempts : Nat := 0
  claimant : Nat := 0
  ttl : Nat := 0
  data : List Word := []
  result : Nat := 0
deriving DecidableEq, Repr

/-- A source record (R589): next sequence number, last acknowledged report (log entry 40: 1 and 0 before the first). -/
structure SrcRec where
  next : Nat := 1
  rpt : Nat := 0
deriving DecidableEq, Repr

/-- What one operation leaves to be made durable (R592): an entry, a source record, then event records (type, outcome or
reason, source, index, item `SEQ`, word 3). -/
structure JWork where
  items : List (Nat × Item) := []
  recs : List (Nat × SrcRec) := []
  events : List (List Nat) := []
  /-- A source to REPLAY. -/
  replay : Option Nat := none
deriving DecidableEq, Repr

/-- The content of the journal partition. -/
structure Book where
  items : Tab Item := []
  recs : Tab SrcRec := []
deriving DecidableEq, Repr

/-- The journal controller: its view, operations taken and not yet durable, per source the sequence number of the last OUTCOME record written,
when each task last committed, reserved bits staged in `JRNL_SUB_HDR`. -/
structure Jrnl where
  view : Book := {}
  queue : List JWork := []
  outNext : Tab Nat := []
  commits : Tab Nat := []
  hdrBad : Bool := false
deriving DecidableEq, Repr

/-- The substitution unit (R606–R614): the command under way (operation, unit, phase: 0 queued at the arbiter, 1 loading, 2 waiting
for its T0, 3 swapping at it), placement in force (task to core; a core of 4
is no place), windows mapped, changes for the next T0. -/
structure Sub where
  op : Nat := 0
  unit : Nat := 0
  phase : Nat := 0
  place : Tab Nat := []
  maps : Tab (Option (Nat × Nat)) := []
  nextMaps : List (Nat × Option (Nat × Nat)) := []
  /-- Placement repeats at the next T0 (R607); cores that must pass CORE_TEST before they carry tasks again (R608). -/
  again : Bool := false
  needTest : Nat := 0
  /-- Tasks shed that source 454 has named, and the level of the last placement. -/
  shed : List Nat := []
  lastLevel : Nat := 0
  /-- A calibration set loaded and not yet swapped in (R611, R612). -/
  calStaged : Tab (List Word) := []
deriving DecidableEq, Repr

/-! ### The device -/

/-- The whole state of the device. -/
structure State where
  /-- The power state. -/
  power : PState := .run
  /-- The logic die is powered and out of reset; while false only the dies' own functions act (R19, R45). -/
  alive : Bool := false
  pwr : Pwr := {}
  prism : Prism := {}
  /-- The commands that wait, first in, first out. -/
  pending : List Instr := []
  /-- The time base (R638), in units of 5 ns. -/
  now : Nat := 0
  /-- Register fields, by `Fld.key`, where they differ from their reset values. -/
  fields : Tab Nat := []
  /-- Boot step 5 has armed the blocks (R9); boot step 3 has written the segment CRCs (R613). -/
  blocksArmed : Bool := false
  segsWritten : Bool := false
  /-- The instruction that acts on the debug port: 0 BYPASS, 1 IDCODE, 2 EXTEST, 3 INTEST, 4 SAMPLE (R585). -/
  dbgPort : Nat := 0
  /-- `_HI` words frozen by a read of their `_LO` register (R646), by address. -/
  frozen : Tab (Option Nat) := []
  /-- Bytes of memory by key: the address, plus 2³² × (n + 1) for core-local SRAM of Xn. -/
  mem : List Host.Cell := []
  /-- Keys of 8-byte words of SRAM that hold a double-bit error (R32). -/
  ded : List Nat := []
  /-- How many free values have been drawn (log entry 3): the MODEL's own field. -/
  drawn : Nat := 0
  cores : Tab Core := []
  frame : Frame := {}
  tick : TickLock := {}
  rlog : List RLog := []
  ump : Umpire := {}
  /-- The gate lines of R23 as the receiving dies see them (`SAFE_N` is low from power-up, R542). -/
  ignOk : Bool := false
  immoOk : Bool := false
  applyOk : Bool := false
  /-- Channels 0–423: switch-die channels, field outputs, field inputs, LED chain outputs. -/
  chans : Tab Chan := []
  /-- Touchline entries in force, channels 0–151. -/
  tl : Tab TlEntry := []
  dies : Tab Die := []
  groups : Tab Group := []
  chain : Chain := {}
  leds : Tab LedPort := []
  /-- Indices posted to CHT_POST and not yet read (R164). -/
  chtPosts : List Nat := []
  /-- Words 8–15 of every channel table entry as latched at the last T0 (R171, R172). -/
  status : Tab (List Word) := []
  psch : Psch := {}
  field : Field := {}
  /-- The active bank of the Touchline pair and of the calibration pair is bank 1 (R568). -/
  tlActive : Bool := false
  calActive : Bool := false
  mnt : Mnt := {}
  /-- The calibration words in force (R612), channels 0–151 and `AIN0`–`AIN15` as 152–167: those of the set, and the live ones
  that CAL_ON trims. -/
  calSet : Tab (List Word) := []
  calLive : Tab (List Word) := []
  cov : Cov := {}
  store : FieldStore := {}
  tmr : Tab TmrChan := []
  /-- Timer channels posted to TMR_POST and not yet read. -/
  tmrPosts : List Nat := []
  /-- Words 8–15 of the timer channel table as latched at the last T0. -/
  tmrStatus : Tab (List Word) := []
  /-- Synchronised levels of CAPT0–CAPT11. -/
  captPins : Nat := 0
  scan : Scan := {}
  cans : Tab Can := []
  nms : Tab Nm := []
  lins : Tab Lin := []
  eths : Tab Eth := []
  sents : Tab Sent := []
  uarts : Tab Uart := []
  acc : Acc := {}
  accKept : AccKept := {}
  vault : Vault := {}
  keeper : Keeper := {}
  /-- The journal partition in MRAM. -/
  book : Book := {}
  jrnl : Jrnl := {}
  sub : Sub := {}
deriving DecidableEq, Repr

/-- The machine right after reset: supplies present, `RESET_N` not yet released (R648, R42), every register at the
value the spec states for reset, memory with nothing listed. Values the spec leaves open are log entries. -/
def State.reset : State := {}

end Sys2Proof.Machine
end

