-- ==== Sys2Proof/Machine/Ops.lean ====
section
/-!
DEFINITION. Sys2Proof/Machine/Ops.lean: the named operations over register fields, memory, time and free values that every
meaning goes through.
-/
namespace Sys2Proof.Machine

/-- The answer of a meaning. -/
abbrev Res := Host.Outcome State Fault Refusal

/-! ### Register fields -/

/-- `i`-th of `n` places of stride `s` at offset `d`; one place where the stride is 0. -/
def placeOf (d s n : Nat) : Bool :=
  if s = 0 then d == 0 else d % s == 0 && decide (d / s < n)

/-- The row's field stands at address `a`. -/
def Row.covers (r : Row) (a : Nat) : Bool :=
  decide (r.base ≤ a) &&
    (let d := a - r.base
     if r.n2 ≤ 1 then placeOf d r.s1 r.n1
     else decide (d / r.s1 < r.n1) && placeOf (d % r.s1) r.s2 r.n2)

/-- Registers that a block leaves out: the selective-wake registers of NM windows 6–12 read 0 and ignore writes
(R494). -/
def absentReg (a : Nat) : Bool :=
  decide (0x600D0600 ≤ a) && decide (a ≤ 0x600D0CFF) && decide (0x40 ≤ a % 0x100) && decide (a % 0x100 ≤ 0x50)

/-- The rows of the fields of the register at `a`. -/
def rowsAt (a : Nat) : List Row :=
  if absentReg a then [] else (blockRows a).filter (fun r => r.covers a)

/-- Reset values that depend on an index: the source configuration (R548), the limp routes (R253). -/
def specialReset (a lo : Nat) : Option Nat :=
  if 0x60041000 ≤ a ∧ a < 0x60041800 then
    let n := (a - 0x60041000) / 4
    if lo = 31 then some (if srcSafety n then 1 else 0)
    else if lo = 28 then some (srcDefault n)
    else if lo = 16 then some (srcTarget n)
    else none
  else if a = 0x60060024 then some 0x98
  else if a = 0x60060028 then some 0xBA
  else if a = 0x6006002C then some 0xDC
  else if a = 0x60060030 then some 0xFE
  else none

/-- The reset value of the field with a given key. -/
def fieldReset (key : Nat) : Nat :=
  let a := key / 32
  let lo := key % 32
  match specialReset a lo with
  | some v => v
  | none =>
    match (rowsAt a).find? (fun r => r.lo == lo) with
    | some r => r.reset
    | none => 0

/-- The value of a register field. -/
def State.get (s : State) (f : Fld) : Nat := Tab.get fieldReset s.fields f.key

/-- Writes a register field as the device does, cut to its width. -/
def State.put (s : State) (f : Fld) (v : Nat) : State :=
  { s with fields := Tab.set fieldReset s.fields f.key (v % 2 ^ f.w) }

/-- A one-bit field read as a truth value. -/
def State.on (s : State) (f : Fld) : Bool := s.get f != 0

/-- Writes a truth value to a one-bit field. -/
def State.flag (s : State) (f : Fld) (b : Bool) : State := s.put f (if b then 1 else 0)

/-- Bit `i` of a field. -/
def State.bit (s : State) (f : Fld) (i : Nat) : Bool := (s.get f).testBit i

/-- Sets bit `i` of a natural number. -/
def setBit (v i : Nat) : Nat := if v.testBit i then v else v + 2 ^ i

/-- Clears bit `i` of a natural number. -/
def clrBit (v i : Nat) : Nat := if v.testBit i then v - 2 ^ i else v

/-- Writes bit `i` of a natural number. -/
def putBit (v i : Nat) (b : Bool) : Nat := if b then setBit v i else clrBit v i

/-- Sets or clears bit `i` of a field. -/
def State.putBit (s : State) (f : Fld) (i : Nat) (b : Bool) : State := s.put f (Machine.putBit (s.get f) i b)

/-- Adds one to a field that wraps. -/
def State.wrap (s : State) (f : Fld) : State := s.put f (s.get f + 1)

/-- Adds `n` to a field that saturates. -/
def State.sat (s : State) (f : Fld) (n : Nat) : State := s.put f (min (s.get f + n) (2 ^ f.w - 1))

/-- Writes a 64-bit value to a pair of 32-bit fields. -/
def State.put64 (s : State) (lo hi : Fld) (v : Nat) : State := (s.put lo v).put hi (v / 2 ^ 32)

/-- The 64-bit value of a pair of 32-bit fields. -/
def State.get64 (s : State) (lo hi : Fld) : Nat := s.get lo + 2 ^ 32 * s.get hi

/-- A field value as a signed number of its width. -/
def signed (w v : Nat) : Int := if 2 * v < 2 ^ w then (v : Int) else (v : Int) - (2 ^ w : Nat)

/-- A signed number as a field value of width `w`. -/
def unsigned (w : Nat) (v : Int) : Nat := (v % ((2 ^ w : Nat) : Int)).toNat

/-- A number held within bounds. -/
def clamp (lo hi v : Nat) : Nat := if v < lo then lo else if v > hi then hi else v

/-- A signed number held within bounds. -/
def clampI (lo hi v : Int) : Int := if v < lo then lo else if v > hi then hi else v

/-- 0 is used as 1. -/
def orOne (v : Nat) : Nat := if v = 0 then 1 else v

/-- Bits `hi`..`lo` of a number. -/
def bits (v hi lo : Nat) : Nat := v / 2 ^ lo % 2 ^ (hi - lo + 1)

/-- Bits `hi`..`lo` of a word. -/
def wbits (w : Word) (hi lo : Nat) : Nat := bits w.toNat hi lo

/-! ### Time and free values -/

/-- Microseconds and milliseconds in time-base units of 5 ns (R638). -/
def us (n : Nat) : Nat := 200 * n
/-- Milliseconds in time-base units. -/
def ms (n : Nat) : Nat := 200000 * n
/-- Seconds in time-base units. -/
def sec (n : Nat) : Nat := 200000000 * n

/-- An event at instant `t` has come: the time base does not go back. -/
def State.at (s : State) (t : Nat) : State := { s with now := max s.now t }

/-- Counts a free value drawn. -/
def State.draw (s : State) : State := { s with drawn := s.drawn + 1 }

/-- The free value that is drawn next, cut to a width. -/
def State.free (s : State) (w : Nat) : Nat := Config.free s.drawn % 2 ^ w

/-! ### Memory -/

/-- What an unlisted byte reads as: the boot ROM's content, 0xFF in erased flash, 0 elsewhere (log entry 1). -/
def memDefault (key : Nat) : Byte :=
  if key < 0x00100000 then Config.rom key
  else if 0x40000000 ≤ key ∧ key < 0x43F80000 then 0xFF
  else 0

/-- The byte at a key. -/
def State.byte (s : State) (key : Nat) : Byte := Tab.get memDefault s.mem key

/-- Writes the byte at a key. -/
def State.setByte (s : State) (key : Nat) (b : Byte) : State :=
  { s with mem := Tab.set memDefault s.mem key b }

/-- The memory is in its canonical form. -/
def memWf (m : List Host.Cell) : Bool := Tab.wf memDefault m

/-- The little-endian word at a key (R5). -/
def State.word (s : State) (key : Nat) : Word :=
  (s.byte (key + 3)) ++ (s.byte (key + 2)) ++ (s.byte (key + 1)) ++ (s.byte key)

/-- The value of the word at a key. -/
def State.wordN (s : State) (key : Nat) : Nat := (s.word key).toNat

/-- Writes a little-endian word. -/
def State.setWord (s : State) (key : Nat) (w : Word) : State :=
  (((s.setByte key (w.extractLsb' 0 8)).setByte (key + 1) (w.extractLsb' 8 8)).setByte (key + 2)
    (w.extractLsb' 16 8)).setByte (key + 3) (w.extractLsb' 24 8)

/-- Writes a word given as a number. -/
def State.setWordN (s : State) (key v : Nat) : State := s.setWord key (BitVec.ofNat 32 v)

/-- Writes a list of words at rising addresses. -/
def State.setWords (s : State) (key : Nat) : List Word → State
  | [] => s
  | w :: ws => (s.setWord key w).setWords (key + 4) ws

/-- Writes a list of bytes at rising addresses. -/
def State.setBytes (s : State) (key : Nat) : List Byte → State
  | [] => s
  | b :: bs => (s.setByte key b).setBytes (key + 1) bs

/-- `n` bytes from a key. -/
def State.bytes (s : State) (key n : Nat) : List Byte := (List.range n).map (fun i => s.byte (key + i))

/-- `n` words from a key. -/
def State.words (s : State) (key n : Nat) : List Word := (List.range n).map (fun i => s.word (key + 4 * i))

/-- Shared SRAM, 0x2000_0000–0x20BF_FFFF. -/
def inShared (a : Nat) : Bool := decide (0x20000000 ≤ a) && decide (a < 0x20C00000)
/-- Core-local SRAM as each core addresses it. -/
def inLocal (a : Nat) : Bool := decide (0x10000000 ≤ a) && decide (a < 0x10100000)
/-- The key of a byte of core-local SRAM of core `c`, or of any other address as it stands (R30). -/
def memKey (c a : Nat) : Nat := if inLocal a then 2 ^ 32 * (c + 1) + a else a

/-! ### The per-unit records -/

/-- Table access with one default for every key. -/
def tget {α : Type} (d : α) (m : Tab α) (k : Nat) : α := Tab.get (fun _ => d) m k
/-- Table write with one default for every key. -/
def tset {α : Type} [DecidableEq α] (d : α) (m : Tab α) (k : Nat) (v : α) : Tab α := Tab.set (fun _ => d) m k v

def State.core (s : State) (c : Nat) : Core := tget {} s.cores c
def State.setCore (s : State) (c : Nat) (v : Core) : State := { s with cores := tset {} s.cores c v }
def State.src (s : State) (n : Nat) : Source := tget {} s.ump.srcs n
def State.setSrc (s : State) (n : Nat) (v : Source) : State :=
  { s with ump := { s.ump with srcs := tset {} s.ump.srcs n v } }
def State.chan (s : State) (i : Nat) : Chan := tget {} s.chans i
def State.setChan (s : State) (i : Nat) (v : Chan) : State := { s with chans := tset {} s.chans i v }
def State.modChan (s : State) (i : Nat) (f : Chan → Chan) : State := s.setChan i (f (s.chan i))
def State.tlOf (s : State) (i : Nat) : TlEntry := tget {} s.tl i
def State.die (s : State) (k : Nat) : Die := tget {} s.dies k
def State.setDie (s : State) (k : Nat) (v : Die) : State := { s with dies := tset {} s.dies k v }
def State.modDie (s : State) (k : Nat) (f : Die → Die) : State := s.setDie k (f (s.die k))
def State.grp (s : State) (g : Nat) : Group := tget {} s.groups g
def State.setGrp (s : State) (g : Nat) (v : Group) : State := { s with groups := tset {} s.groups g v }
def State.task (s : State) (i : Nat) : Task := tget {} s.frame.tasks i
def State.setTask (s : State) (i : Nat) (v : Task) : State :=
  { s with frame := { s.frame with tasks := tset {} s.frame.tasks i v } }
def State.run (s : State) (i : Nat) : TaskRun := tget {} s.frame.runs i
def State.setRun (s : State) (i : Nat) (v : TaskRun) : State :=
  { s with frame := { s.frame with runs := tset {} s.frame.runs i v } }
def State.led (s : State) (p : Nat) : LedPort := tget {} s.leds p
def State.setLed (s : State) (p : Nat) (v : LedPort) : State := { s with leds := tset {} s.leds p v }

/-- Applies a function to the state for every number below `n`, in rising order. -/
def overN (n : Nat) (f : Nat → State → State) (s : State) : State :=
  (List.range n).foldl (fun s i => f i s) s

/-- Applies a function to the state for every element of a list, in order. -/
def forEach {α : Type} (l : List α) (f : α → State → State) (s : State) : State :=
  l.foldl (fun s x => f x s) s

/-- Raises interrupt input `b` on a core (R131). -/
def raiseIrq (c : Nat) (b : Nat) (s : State) : State :=
  let k := s.core c
  s.setCore c { k with ipend := k.ipend ||| BitVec.ofNat 8 (2 ^ b) }

/-- Raises interrupt input `b` on all four cores. -/
def raiseAll (b : Nat) (s : State) : State := overN 4 (fun c s => raiseIrq c b s) s

/-- The power state is RUN (R656). -/
def State.running (s : State) : Bool := s.power == .run

/-- The device is outside RUN, or on its way out of it: wakes present a level (R659). -/
def State.asleep (s : State) : Bool := s.power != .run || s.get PWR_STAT_ENTRY != 0

/-- The clocks of the logic die run: out of reset, in RUN or IDLE (R629), outside a wait of R633. -/
def State.clocks (s : State) : Bool := s.alive && (s.power == .run || s.power == .idle) && !s.prism.waiting

end Sys2Proof.Machine
end

