-- ==== Sys2Proof/Machine/ChanState.lean ====
section
/-!
DEFINITION. Sys2Proof/Machine/ChanState.lean: what the channel table and the switch dies derive from the state: the fields of an
entry (R175), the classes (R177), the values in force under the Touchline (R185, R211, R733), gate lines, and the
channel state and output by the precedence of R197.
-/
namespace Sys2Proof.Machine

/-! ### Entry fields (R175) -/

def Entry.mode (e : Entry) : Nat := wbits e.w0 31 28
def Entry.pgroup (e : Entry) : Nat := wbits e.w0 23 16
def Entry.apEn (e : Entry) : Bool := e.w0.getLsbD 8
def Entry.apId (e : Entry) : Nat := wbits e.w0 7 0
def Entry.per (e : Entry) : Nat := wbits e.w1 23 0
def Entry.duty (e : Entry) : Nat := wbits e.w2 16 0
def Entry.phase (e : Entry) : Nat := wbits e.w3 23 0
def Entry.ilimInr (e : Entry) : Nat := wbits e.w4 31 16
def Entry.ilim (e : Entry) : Nat := wbits e.w4 15 0
def Entry.retryDly (e : Entry) : Nat := orOne (wbits e.w5 31 24)
def Entry.retryMax (e : Entry) : Nat := wbits e.w5 23 16
def Entry.inrushMs (e : Entry) : Nat := wbits e.w5 7 0
def Entry.olTh (e : Entry) : Nat := wbits e.w6 23 16
def Entry.stuckd (e : Entry) : Bool := e.w6.getLsbD 10
def Entry.ond (e : Entry) : Bool := e.w6.getLsbD 9
def Entry.offd (e : Entry) : Bool := e.w6.getLsbD 8
def Entry.tlAuto (e : Entry) : Bool := e.w6.getLsbD 7
def Entry.bstop (e : Entry) : Nat := wbits e.w6 5 4
def Entry.demag (e : Entry) : Nat := wbits e.w6 1 0
def Entry.gen (e : Entry) : Nat := wbits e.w7 15 0

/-- Words 0–7 of an entry from a list of words. -/
def Entry.ofWords (l : List Word) : Entry :=
  { w0 := l.getD 0 0, w1 := l.getD 1 0, w2 := l.getD 2 0, w3 := l.getD 3 0,
    w4 := l.getD 4 0, w5 := l.getD 5 0, w6 := l.getD 6 0, w7 := l.getD 7 0 }

/-- Every reserved field of a switch-channel entry is 0 (R175). -/
def Entry.reservedOk (e : Entry) : Bool :=
  wbits e.w0 27 24 == 0 && wbits e.w0 15 9 == 0 && wbits e.w1 31 24 == 0 && wbits e.w2 31 17 == 0 &&
  wbits e.w3 31 24 == 0 && wbits e.w5 15 8 == 0 && wbits e.w6 31 24 == 0 && wbits e.w6 15 11 == 0 &&
  wbits e.w6 6 6 == 0 && wbits e.w6 3 2 == 0 && wbits e.w7 31 16 == 0

/-! ### Classes and places (R17, R177) -/

/-- The channel classes of R177, and the field outputs. -/
inductive Cls where
  | h | m | l | fo
deriving DecidableEq, Repr

/-- The class of a channel index (R17). -/
def clsOf (i : Nat) : Cls := if i < 8 then .h else if i < 40 then .m else if i < 136 then .l else .fo

/-- The switch die that holds a channel (R17). -/
def dieOf (i : Nat) : Nat := if i < 8 then i / 2 else if i < 40 then (i - 8) / 8 else (i - 40) / 24

/-- The channel at place `j` of the segment of die `k` (R236). -/
def segChan (k j : Nat) : Nat :=
  if j < 2 then 2 * k + j else if j < 10 then 8 + 8 * k + (j - 2) else 40 + 24 * k + (j - 10)

/-- The channels of a die in segment order. -/
def dieChans (k : Nat) : List Nat := (List.range 34).map (segChan k)

/-- The supply group of a channel: 2k for `VBATP_kA` (H, M), 2k + 1 for `VBATP_kB` (L) (R177). -/
def grpOf (i : Nat) : Nat := if i < 40 then 2 * dieOf i else 2 * dieOf i + 1

/-- The limits of a class (R177, R395, R733): current-limit range and step, highest inrush limit, open-load unit, full
scale of the current sense, single clamp pulse in mJ and trailing clamp power in mW. -/
structure ClsLimits where
  lo : Nat
  hi : Nat
  step : Nat
  inr : Nat
  cont : Nat
  ol : Nat
  full : Nat
  clampE : Nat
  clampP : Nat
deriving DecidableEq, Repr

def Cls.limits : Cls → ClsLimits
  | .h => ⟨1000, 30000, 100, 45000, 15000, 32, 64000, 0, 0⟩
  | .m => ⟨250, 9000, 25, 18000, 6000, 8, 25600, 200, 1200⟩
  | .l => ⟨50, 2250, 10, 4500, 1500, 2, 6400, 60, 600⟩
  | .fo => ⟨100, 750, 25, 1500, 500, 2, 1600, 50, 400⟩

/-! ### Values in force -/

/-- The mode of die `k`: 0 BOOT, 1 ARMED, 2 BACKSTOP, 3 SUBSTITUTE (R219). -/
def State.dieMode (s : State) (k : Nat) : Nat := s.get (CHT_DIE_STAT_MODE k)

/-- The owning die of a channel has been armed: a switch die outside BOOT, or FLD outside STARTUP (R197, R399). -/
def State.armed (s : State) (i : Nat) : Bool :=
  if i < 136 then s.dieMode (dieOf i) != 0 && !(s.die (dieOf i)).unpowered
  else s.get FLD_STAT_MODE != 1

/-- A limit of 0 means that no limit of that kind applies (R211). -/
def cap (limit v : Nat) : Nat := if limit = 0 then v else min limit v

/-- `ILIM` in force: the entry's value rounded down to the class step, or R733's, under the Touchline cap (R178, R211). -/
def State.ilimOf (s : State) (i : Nat) : Nat :=
  let c := s.chan i; let l := (clsOf i).limits
  let v := if c.adopted then c.entry.ilim / l.step * l.step else l.cont
  let v := match c.old with
    | some o => min v (o.ilim / l.step * l.step)
    | none => v
  if s.armed i then cap (s.tlOf i).ilimMax v else v

/-- `ILIM_INR` in force, where 0 means equal to `ILIM` (R175, R211). -/
def State.inrOf (s : State) (i : Nat) : Nat :=
  let c := s.chan i; let l := (clsOf i).limits
  let one (e : Entry) := if e.ilimInr = 0 then e.ilim / l.step * l.step else e.ilimInr / l.step * l.step
  let v := if c.adopted then one c.entry else l.inr
  let v := match c.old with
    | some o => min v (one o)
    | none => v
  if s.armed i then cap (s.tlOf i).ilimMax v else v

/-- `INRUSH_MS` in force (R188, R211, R733). -/
def State.inrushMs (s : State) (i : Nat) : Nat :=
  let c := s.chan i
  let v := if c.adopted then c.entry.inrushMs else 20
  let v := match c.old with
    | some o => min v o.inrushMs
    | none => v
  if s.armed i then cap (s.tlOf i).inrMax v else v

/-- `RETRY_MAX` in force; 255 applies only if the cap is 255 or there is none (R211). -/
def State.retryMax (s : State) (i : Nat) : Nat :=
  let c := s.chan i
  let v := if c.adopted then c.entry.retryMax else 3
  let v := match c.old with
    | some o => min v o.retryMax
    | none => v
  if s.armed i then cap (s.tlOf i).retryMax v else v

/-- The retry wait, `RETRY_DLY` × 10 ms (R193). -/
def State.retryWait (s : State) (i : Nat) : Nat :=
  ms (10 * (if (s.chan i).adopted then (s.chan i).entry.retryDly else 10))

/-- `TL_AUTO` in force. -/
def State.tlAuto (s : State) (i : Nat) : Bool := if (s.chan i).adopted then (s.chan i).entry.tlAuto else true

/-- The open-load threshold in mA (R175, R395). -/
def State.olTh (s : State) (i : Nat) : Nat := (s.chan i).entry.olTh * (clsOf i).limits.ol

/-! ### Gate lines (R24–R28) -/

/-- The levels of the four gate lines, bit 3 to bit 0: `SAFE_N`, `APPLY_OK`, `IMMO_OK`, `IGN_OK`. `SAFE_N` is low while
the Umpire holds it low. -/
def State.gates (s : State) : Nat :=
  (if s.ump.safeHeld then 0 else 8) + (if s.applyOk then 4 else 0) + (if s.immoOk then 2 else 0) +
  (if s.ignOk then 1 else 0)

/-- Some gate line that the channel's Touchline entry requires is low (R25). -/
def State.blocked (s : State) (i : Nat) : Bool := ((s.tlOf i).gates &&& (15 - s.gates)) != 0

/-! ### Umpire fences (R534) -/

/-- The target `t` is fenced: a source with that target, or that holds that unit, is ACTIVE or PERMANENT with reaction
FENCE. -/
def State.fenced (s : State) (t : Nat) : Bool :=
  s.ump.srcs.any (fun e => e.2.state != .clear && e.2.code == 2 && (srcTarget e.1 == t || e.2.units.contains t))

/-- A LIMP reaction is in force (R535). -/
def State.limpOn (s : State) : Bool := s.ump.srcs.any (fun e => e.2.state != .clear && e.2.code == 5)

/-- The effective state of actuation point `i`, open or closed (R286, R303, R307): its logical state, held closed while
`APPLY_OK` is low under `APPLY_REQ`, while the scheduler is fenced, and below IDLE. -/
def State.apOpen (s : State) (i : Nat) : Bool :=
  let p : Point := tget {} s.psch.points i
  p.entry.w0.getLsbD 31 && p.logical && (!p.entry.w0.getLsbD 30 || s.applyOk) && !s.fenced 0x020 &&
    (s.power == .run || s.power == .idle)

/-! ### Channel state and output (R197) -/

/-- `CH_STATE` (R176). -/
inductive ChState where
  | off | on | pwm | inrush | cut | latched | thermal | gated | backstop | uvHold | tlHold | low | bridge | partner
  | unarmed | fenced
deriving DecidableEq, Repr

/-- The code of `CH_STATE` (R176). -/
def ChState.code : ChState → Nat
  | .off => 0 | .on => 1 | .pwm => 2 | .inrush => 3 | .cut => 4 | .latched => 5 | .thermal => 6 | .gated => 7
  | .backstop => 8 | .uvHold => 9 | .tlHold => 10 | .low => 11 | .bridge => 12 | .partner => 13 | .unarmed => 14
  | .fenced => 15

/-- The group of the channel, or `VFIELD` for a field output, is below the undervoltage limit (R201, R398). -/
def State.uvOf (s : State) (i : Nat) : Bool := if i < 136 then (s.grp (grpOf i)).uv else (s.grp 8).uv

/-- The die of the channel holds its Backstop states (R173, R219, R221), or FLD its safe states, or what it kept from
before its arming (R399, R410). -/
def State.inBackstop (s : State) (i : Nat) : Bool :=
  if i < 136 then s.dieMode (dieOf i) == 2 || !(s.chan i).fresh
  else s.field.safe || !(s.chan i).fresh

/-- The even member of the channel's bridge, when the channel is an H channel (R179). -/
def evenOf (i : Nat) : Nat := i / 2 * 2

/-- A member of the bridge waits for a retry or is latched, so the whole bridge coasts (R182). -/
def State.bridgeCut (s : State) (i : Nat) : Bool :=
  decide (i < 8) && ((s.chan (evenOf i + 1)).entry.mode == 7) &&
    ((s.chan (evenOf i)).retryEnd.isSome || (s.chan (evenOf i + 1)).retryEnd.isSome ||
     (s.chan (evenOf i)).latched || (s.chan (evenOf i + 1)).latched || (s.chan (evenOf i)).thermal ||
     (s.chan (evenOf i + 1)).thermal)

/-- The commanded state of the cached entry (rank 10 of R197). -/
def State.cmdState (s : State) (i : Nat) : ChState :=
  let c := s.chan i
  if s.bridgeCut i then .partner
  else if c.withheld then .off
  else match c.entry.mode with
    | 1 => if c.inrush.isSome then .inrush else .on
    | 2 => if c.inrush.isSome then .inrush else .pwm
    | 3 => if c.inrush.isSome then .inrush else .low
    | 4 | 5 | 6 => if c.inrush.isSome then .inrush else .bridge
    | 7 => .partner
    | _ => .off

/-- `CH_STATE` of a channel 0–151: the highest row of R197 that applies. -/
def State.chState (s : State) (i : Nat) : ChState :=
  let c := s.chan i
  if !s.armed i then (if c.latched then .latched else .unarmed)
  else if s.uvOf i then .uvHold
  else if c.thermal then .thermal
  else if s.fenced (0x100 + i) then .fenced
  else if c.latched then .latched
  else if c.retryEnd.isSome then .cut
  else if s.blocked i then .gated
  else if s.inBackstop i then .backstop
  else if c.hold.isSome then .tlHold
  else s.cmdState i

/-- The driving states of R734. -/
def ChState.driving : ChState → Bool
  | .inrush | .on | .pwm | .low | .bridge => true
  | _ => false

/-- The hard-wired limp input of a channel while its die is unarmed (R40): `M0`, `M1`, `M8`, `M9`, … on `LIMP0`–`LIMP7`. -/
def wiredLimp (i : Nat) : Option Nat :=
  if 8 ≤ i ∧ i < 40 ∧ (i - 8) % 8 < 2 then some ((i - 8) / 8 * 2 + (i - 8) % 8) else none

/-- The filtered level of limp input `n` at die `k`. -/
def State.limpLevel (s : State) (k n : Nat) : Bool := (s.die k).limp.testBit n

/-- The level of the limp route the die holds for the channel, off without a route (R253, R254). A route is the 4-bit
field `EN`, `SEL` of `PCHN_LIMP_SEL`. -/
def State.limpOf (s : State) (i : Nat) : Bool :=
  let r := tget 0 (s.die (dieOf i)).routes i
  r ≥ 8 && s.limpLevel (dieOf i) (r % 8)

/-- The level of a Backstop or safe state (R214): 0 OFF, 1 ON, 2 HOLD, 3 LIMP. ON is BR_BRAKE on a bridge. -/
def State.bstopLevel (s : State) (i b : Nat) : Bool :=
  match b with
  | 1 => !(decide (i < 8) && (s.chan (evenOf i + 1)).entry.mode == 7)
  | 2 => (s.chan i).held == 1
  | 3 => decide (i < 136) && s.limpOf i
  | _ => false

/-- The level of a blocked state of the Touchline: 0 OFF, 1 ON, 2 LIMP (R566). -/
def State.blockedLevel (s : State) (i : Nat) : Bool :=
  match (s.tlOf i).blocked with
  | 1 => true
  | 2 => decide (i < 136) && s.limpOf i
  | _ => false

/-- The level the die gives the output outside commanded operation, without the chain bit: ranks 1–9 of R197. -/
def State.ownLevel (s : State) (i : Nat) : ChState → Option Bool
  | .unarmed => some (match wiredLimp i with
      | some n => decide (i < 136) && s.limpLevel (dieOf i) n && !(s.chan i).thermal && !(s.chan i).retryEnd.isSome &&
          !(s.die (dieOf i)).unpowered && !s.uvOf i
      | none => false)
  | .gated => some (s.blockedLevel i)
  | .backstop => some (if i < 136 || s.field.safe then s.bstopLevel i (s.chan i).bstop else (s.chan i).held == 1)
  | .uvHold | .thermal | .fenced | .latched | .cut | .tlHold | .off | .partner => some false
  | _ => none

end Sys2Proof.Machine
end

