-- ==== Sys2Proof/Machine/ChanOps.lean ====
section
/-!
DEFINITION. Sys2Proof/Machine/ChanOps.lean: the operations on channels and dies that the Umpire's reactions need too: turning an
output on and off, settling a channel on the state that now applies, entering BACKSTOP, gate lines.
-/
namespace Sys2Proof.Machine

/-- The channel may be on in its present state: driving, or held on by its Touchline, Backstop or limp route. -/
def State.mayBeOn (s : State) (i : Nat) : Bool :=
  match s.ownLevel i (s.chState i) with
  | some b => b
  | none => true

/-- Turns an output on: the turn-on counts for `TL_RATE_MAX` (R211), a window opens where R187 calls for one, and a search
for the opening signature begins on an L or M channel with `AP_EN` (R210). -/
def turnOn (i : Nat) (s : State) : State :=
  let c := s.chan i
  if c.out then s
  else
    let win := c.arm && s.inrushMs i != 0
    let droop := decide (i < 136) && (s.grp (grpOf i)).drooped
    s.setChan i { c with
      out := true, onAt := some s.now, arm := false, demagAt := none,
      turnOns := s.now :: c.turnOns.filter (fun t => s.now < t + sec 1),
      inrush := if win then some ⟨s.now, 0, if droop then some s.now else none⟩ else c.inrush,
      sigOn := if c.entry.apEn && 8 ≤ i && i < 136 then some s.now else none,
      sigOff := none }

/-- The trailing clamp power of a channel in mJ over the last second (R199, R200, R731). -/
def clampSum (c : Chan) (now : Nat) : Nat :=
  (c.clamps.filter (fun e => now < e.1 + sec 1)).foldl (fun a e => a + e.2) 0

/-- The turn-off of this channel clamps: CLAMP always, GUARD while its trailing clamp power is below the rating (R199). -/
def State.clampsNow (s : State) (i : Nat) : Bool :=
  let c := s.chan i
  let d := if c.adopted then c.entry.demag else 1
  decide (8 ≤ i) && (d == 1 || (d == 2 && decide (clampSum c s.now < (clsOf i).limits.clampP)))

/-- Turns an output off; the search for the closing signature begins under a clamp (R210). -/
def turnOff (i : Nat) (s : State) : State :=
  let c := s.chan i
  if c.out then
    s.setChan i { c with
      out := false, offAt := some s.now, demagAt := none,
      sigOn := none,
      sigOff := if c.entry.apEn && 8 ≤ i && i < 136 && s.clampsNow i then some s.now else none }
  else s

/-- Sets an output level. -/
def setOut (i : Nat) (b : Bool) (s : State) : State := if b then turnOn i s else turnOff i s

/-- The channel takes the output of the state that now applies (R197): outside commanded operation at once, in commanded
operation off at once and on at the next latch. A state that keeps it off closes its window and arms the next one
(R187, R198); the time of continuous commanded operation starts or stops (R734). -/
def settle (i : Nat) (s : State) : State :=
  let st := s.chState i
  let s := match s.ownLevel i st with
    | some b => setOut i b s
    | none => s
  let c := s.chan i
  let keep := s.mayBeOn i
  s.setChan i { c with
    arm := c.arm || !keep,
    inrush := if keep then c.inrush else none,
    pulse := if st.driving then c.pulse else c.pulse,
    since := if st.driving then (match c.since with
      | some t => some t
      | none => some s.now) else none }

/-- Settles a list of channels. -/
def settleAll (l : List Nat) (s : State) : State := forEach l settle s

/-- Every protected channel of the switch dies and FLD. -/
def allChans : List Nat := List.range 152

/-- The level HOLD takes (R214): 1 on, 2 low, 0 off; off too where the entry's actuation point is closed. -/
def holdLevel (apOpen : Bool) (e : Entry) : Nat :=
  if e.apEn && !apOpen then 0
  else match e.mode with
    | 1 => 1
    | 2 => if e.duty ≥ 0x8000 then 1 else 0
    | 3 => 2
    | _ => 0

/-- Die `k` enters BACKSTOP (R217, R219): from ARMED or SUBSTITUTE each channel takes its Backstop state, HOLD the level of
its entry in force (R214); a substitution is abandoned (R223). -/
def dieBackstop (k : Nat) (cause : BackCause) (s : State) : State :=
  if s.dieMode k = 1 ∨ s.dieMode k = 3 then
    let s := s.put (CHT_DIE_STAT_MODE k) 2
    let s := s.modDie k (fun d => { d with
      cause := cause, seqStaged := false, tlStaged := false, resumeReq := false, bstopReq := false })
    let s := forEach (dieChans k) (fun i s =>
      s.modChan i (fun c => { c with held := holdLevel (s.apOpen c.entry.apId) c.entry })) s
    settleAll (dieChans k) s
  else s

/-- A gate line has changed: every channel whose die is armed settles (R26, R28). -/
def gatesChanged (s : State) : State := settleAll allChans s

/-- `SAFE_N` falls or is released by the Umpire. -/
def setSafeHeld (b : Bool) (s : State) : State :=
  if s.ump.safeHeld = b then s else gatesChanged { s with ump := { s.ump with safeHeld := b } }

end Sys2Proof.Machine
end

