-- ==== Sys2Proof/Machine/TmrCore.lean ====
section
/-!
DEFINITION. Sys2Proof/Machine/TmrCore.lean: the counter of a timer channel (R364, R365, R374–R378): one increment, the increments
of an interval, and the hold of a fenced unit.
-/
namespace Sys2Proof.Machine

/-! ### Entry fields (R362) -/

def Entry.tMode (e : Entry) : Nat := wbits e.w0 31 28
def Entry.perImm (e : Entry) : Bool := e.w0.getLsbD 27
def Entry.cmpEn (e : Entry) : Bool := e.w0.getLsbD 26
def Entry.addEn (e : Entry) : Bool := e.w0.getLsbD 25
def Entry.edge (e : Entry) : Nat := wbits e.w0 24 23
def Entry.gateLevel (e : Entry) : Bool := e.w0.getLsbD 22
def Entry.clrCap (e : Entry) : Bool := e.w0.getLsbD 21
def Entry.insel (e : Entry) : Nat := wbits e.w0 20 16
def Entry.pscEdge (e : Entry) : Nat := wbits e.w0 15 8
def Entry.filt (e : Entry) : Nat := wbits e.w0 7 0
def Entry.fclk (e : Entry) : Nat := wbits e.w1 27 24
def Entry.psc (e : Entry) : Nat := wbits e.w1 23 0
def Entry.tPer (e : Entry) : Nat := e.w2.toNat
def Entry.cmp (e : Entry) : Nat := e.w3.toNat
def Entry.ivl (e : Entry) : Nat := e.w4.toNat

def State.tmrChan (s : State) (c : Nat) : TmrChan := tget {} s.tmr c
def State.setTmr (s : State) (c : Nat) (x : TmrChan) : State := { s with tmr := tset {} s.tmr c x }

/-- A match (R374): counted, and the interval is added modulo the period in force. -/
def TmrChan.hit (x : TmrChan) (t : Nat) : TmrChan :=
  { x with hits := (x.hits + 1) % 65536, matchAt := some t,
           cmpNow := if x.entry.addEn then (x.cmpNow + x.entry.ivl) % (x.per + 1) else x.cmpNow }

/-- Flag bit `b` of a channel. -/
def TmrChan.mark (x : TmrChan) (b : Nat) : TmrChan := { x with flags := setBit x.flags b }

/-- The counter after one increment, before the compare: a clear takes its place (R378), or a rollover, at which the new
period takes effect (R365, R376, R377). The second part says whether a match is possible. -/
def TmrChan.count (x : TmrChan) : TmrChan × Bool :=
  if x.clrNext then ({ x with cnt := 0, clrNext := false }, false)
  else if x.truncNext || decide (x.per ≤ x.cnt) then
    let y := { x with cnt := 0, rolls := (x.rolls + 1) % 65536, per := x.entry.tPer, truncNext := false }
    (if x.truncNext then y.mark 4 else y, true)
  else ({ x with cnt := x.cnt + 1 }, true)

/-- One increment at instant `t`. -/
def TmrChan.inc (x : TmrChan) (t : Nat) : TmrChan :=
  let y := x.count
  if y.2 && x.entry.cmpEn && y.1.cnt == y.1.cmpNow then y.1.hit t else y.1

/-- How many increments bring nothing but counting: up to the one before a rollover or a match. -/
def TmrChan.quiet (x : TmrChan) : Nat :=
  if x.clrNext || x.truncNext then 0
  else
    let a := x.per - x.cnt
    if x.entry.cmpEn && decide (x.cnt < x.cmpNow) then min a (x.cmpNow - x.cnt - 1) else a

/-- The increments of ticks `first`, `first` + 1, …, `n` of them, where a tick falls every `p` units (R364). -/
def TmrChan.ticks (p : Nat) : Nat → Nat → Nat → TmrChan → TmrChan
  | 0, _, _, x => x
  | fuel + 1, first, n, x =>
    if n = 0 then x
    else
      let q := x.quiet
      if n ≤ q then { x with cnt := x.cnt + n }
      else ({ x with cnt := x.cnt + q }.inc ((first + q) * p)) |>.ticks p fuel (first + q + 1) (n - q - 1)

/-- The channel counts ticks now: FREE, CAPTURE, or GATED at its level (R365). -/
def TmrChan.counting (x : TmrChan) : Bool :=
  x.entry.tMode == 1 || x.entry.tMode == 2 || (x.entry.tMode == 3 && x.lvl == x.entry.gateLevel)

/-- Counts the ticks up to instant `t`; a held channel counts none. -/
def TmrChan.sync (x : TmrChan) (held : Bool) (t : Nat) : TmrChan :=
  if t ≤ x.syncAt then x
  else
    let p := x.entry.psc + 1
    let a := x.syncAt / p
    let n := t / p - a
    let y := if held || !x.counting then x else x.ticks p (n + 1) (a + 1) n
    { y with syncAt := t }

/-- The timer unit of a channel is fenced (R379). -/
def State.tmrHeld (s : State) (c : Nat) : Bool := s.fenced (0x038 + c / 4) || s.fenced (0x030 + c / 4)

/-- The channel as it stands at the present instant. -/
def State.tmrAt (s : State) (c : Nat) : TmrChan := (s.tmrChan c).sync (s.tmrHeld c) s.now

/-- Counts a channel up to the present instant. -/
def tmrSync (c : Nat) (s : State) : State := s.setTmr c (s.tmrAt c)

/-- The four channels of a unit. -/
def unitChans (u : Nat) : List Nat := [4 * u, 4 * u + 1, 4 * u + 2, 4 * u + 3]

/-- A unit restarts as after reset; its cached entries take effect again at the next T0 (R380). -/
def tmrRestart (u : Nat) (s : State) : State :=
  forEach (unitChans u) (fun c s =>
    let x := s.tmrChan c
    let e := x.shadow.getD x.entry
    let fresh : TmrChan := { shadow := if e = {} then none else some e, genAck := x.genAck, syncAt := s.now }
    s.setTmr c fresh) s

end Sys2Proof.Machine
end

