-- ==== Sys2Proof/Machine/Slots.lean ====
section
/-!
DEFINITION. Sys2Proof/Machine/Slots.lean: the slots of the maintenance arbiter (R601, R602, R618): taking a slot for a request.
-/
namespace Sys2Proof.Machine

def State.slot (s : State) (k : Nat) : Slot := tget {} s.mnt.slots k
def State.setSlot (s : State) (k : Nat) (v : Slot) : State := { s with mnt := { s.mnt with slots := tset {} s.mnt.slots k v } }

/-- The slot waits or runs. -/
def Slot.live (x : Slot) : Bool := decide (1 ≤ x.state) && decide (x.state ≤ 4)

/-- The live slot of a kind and unit. -/
def State.liveSlot (s : State) (kind unit : Nat) : Option Nat :=
  (List.range 64).find? (fun k => (s.slot k).live && (s.slot k).kind == kind && (s.slot k).unit == unit)

/-- The slot a new request takes: the lowest EMPTY one, or else the oldest finished one (R618). -/
def State.freeSlot (s : State) : Option Nat :=
  match (List.range 64).find? (fun k => (s.slot k).state == 0) with
  | some k => some k
  | none =>
    let fin := (List.range 64).filter (fun k => decide (5 ≤ (s.slot k).state))
    fin.find? (fun k => fin.all (fun j => decide ((s.slot k).ranAt ≤ (s.slot j).ranAt)))

/-- A request (R602): a kind and unit already live keep their slot. The slot it has, none when no slot can be taken. -/
def mntAsk (kind unit : Nat) (who : Asker) (s : State) : Option Nat × State :=
  match s.liveSlot kind unit with
  | some k => (some k, s)
  | none =>
    match s.freeSlot with
    | some k =>
      let n := s.mnt.reqs + 1
      let s := s.setSlot k { state := 1, kind := kind, unit := unit, asker := who, ord := n, reqAt := s.now }
      (some k, { s with mnt := { s.mnt with reqs := n } })
    | none => (none, s)

/-- A request by a block or the arbiter. -/
def mntRequest (kind unit : Nat) (who : Asker) (s : State) : State := (mntAsk kind unit who s).2

/-- Core `c` must pass CORE_TEST, which SUB requests, before it carries tasks again (R608). -/
def needCoreTest (c : Nat) (s : State) : State :=
  let s := { s with sub := { s.sub with needTest := setBit s.sub.needTest c, again := true } }
  mntRequest 10 c .block s

end Sys2Proof.Machine
end

