-- ==== Sys2Proof/Machine/Fence.lean ====
section
/-!
DEFINITION. Sys2Proof/Machine/Fence.lean: what a reaction of the Umpire does to the units it acts on: the entry of a fence, its
release (R534), LIMP and SAFE (R527, R537). Each block's part is what its own chapter states.
-/
namespace Sys2Proof.Machine

/-- The outcome code of a task (R65). -/
def TaskOut.code : TaskOut → Nat
  | .none => 0 | .committed => 1 | .sigMism => 2 | .cmtMism => 3 | .agreeSeq => 4 | .aborted => 5 | .skipped => 6
  | .exception => 7 | .late => 8 | .cmtOvf => 9 | .rejected => 10

/-- A class A or B task was ABORTED: its core has a report to make (R99), unless a halt touched the frame (R109). -/
def noteAbort (i c : Nat) (o : TaskOut) (s : State) : State :=
  if o = .aborted ∧ (s.task i).cls < 2 ∧ s.frame.hadHalt = false then
    { s with frame := { s.frame with ovrDue := s.frame.ovrDue ++ [c] } }
  else s

/-- Gives a task of this frame an outcome, unless it already has one. -/
def settleTask (i : Nat) (o : TaskOut) (s : State) : State :=
  let r := s.run i
  match r.out with
  | some _ => s
  | none => noteAbort i r.core o (s.setRun i { r with out := some o })

/-- The core leaves its pass and the passes it had still to run; it returns to the S bank (R91, R98, R129). -/
def dropPasses (c : Nat) (s : State) : State :=
  let k := s.core c
  s.setCore c { k with pass := none, primQ := [], mirrQ := [] }

/-- Every task of core `c` in this frame that has no outcome takes `o`. -/
def settleCore (c : Nat) (o : TaskOut) (s : State) : State :=
  forEach (s.frame.runs.filter (fun e => e.2.core == c)) (fun e s => settleTask e.1 o s) s

/-- The frame in progress stops: passes end and every task not yet applied takes outcome ABORTED (R537). -/
def stopFrame (s : State) : State :=
  let s := overN 4 dropPasses s
  let s := if s.frame.applied then s else overN 4 (fun c s => settleCore c .aborted s) s
  { s.put FRAME_STAT_PHASE 6 with frame := { s.frame with applied := true, compared := true } }

/-- SAFE is entered (R537): `SAFE_N` falls, `ALIVE` stops, the frame in progress stops. -/
def enterSafe (cause : Nat) (s : State) : State :=
  if s.ump.safe then s
  else
    let s := { s with ump := { s.ump with safe := true } }
    let s := s.put UMP_STAT_CAUSE cause
    stopFrame (setSafeHeld true s)

/-- LIMP (R527): the switch dies enter BACKSTOP. -/
def enterLimp (s : State) : State := overN 4 (fun k s => dieBackstop k .limp s) s

/-- A fence on a timer unit (R379): its channels are counted up to here and then held. -/
def tmrFence (u : Nat) (s : State) : State :=
  forEach (unitChans u) (fun c s => s.setTmr c ((s.tmrChan c).sync false s.now)) (s.putBit TMR_STAT_FENCED u true)

/-- A fence on FLD (R415, R691): outputs to their safe state at the next field latch; a test ends. -/
def fldFence (s : State) : State :=
  let s := s.flag FLD_STAT_FENCED true
  let s := if s.get FLD_STAT_MODE = 2 then s.put FLD_STAT_MODE 0 else s
  { s with field := { s.field with safeNext := s.field.powered } }

/-- The release of a fence on FLD: RECOVERY (R415). -/
def fldUnfence (s : State) : State :=
  let s := s.flag FLD_STAT_FENCED false
  if s.field.powered && s.get FLD_STAT_MODE == 0 then
    { (s.put FLD_STAT_MODE 3) with field := { s.field with modeAt := s.now, told := false } }
  else s

/-- A fence on the position scheduler (R307): points closed, `APPLY_OK` low. -/
def pschFence (s : State) : State :=
  let s := s.flag PSCH_STAT_FENCED true
  let s := { s with psch := { s.psch with applyNext := none, inWin := false, dwell := none } }
  if s.applyOk then gatesChanged ({ (s.flag PSCH_STAT_APPLY false) with applyOk := false }) else s

/-- The release of a fence on the scheduler (R307): it restarts as after reset and keeps its registers and points. -/
def pschUnfence (s : State) : State :=
  let s := ((s.flag PSCH_STAT_FENCED false).put PSCH_STAT_LOC 0).put PSCH_STAT_SPD 2
  let keep : Tab Point := s.psch.points.map (fun x => (x.1, { x.2 with
    logical := false, fallback := false, fbSet := false, path := 0, e := 0, n := 0, v := 0, on := {}, off := {} }))
  { (s.put PSCH_STAT_YAW 2) with psch := { points := keep } }

/-- A fence on the coverage engine (R356, R358): FENCED; an edit is abandoned; coverage slots not yet placed are freed. -/
def covFence (s : State) : State :=
  let was := s.get COV_STAT_STATE
  let s := (s.put COV_STAT_STATE 7).flag COV_EDIT_STAT_BUSY false
  let keep (x : Nat × Option Event) : Bool :=
    decide (x.1 < min 4096 (s.get PSCH_EV_SPLIT_FW_SLOTS)) || x.2.any (fun ev => ev.placed)
  { s with cov := { s.cov with edit := none, ticks := [], from_ := was },
           psch := { s.psch with events := s.psch.events.filter keep } }

/-- The release of a fence on the engine (R356): OPENING for the same field, IDLE or OFF; residents are dropped and their
unwritten updates counted. -/
def covUnfence (s : State) : State :=
  let n := s.cov.rt.foldl (fun a x => match x.2 with | some t => if t.dirty then a + t.chg else a | none => a) 0
  let f := s.cov.from_
  let next := if f = 0 then 0 else if f = 1 ∨ f = 5 then 1 else 2
  let s := if 2 ≤ f then s.sat COV_STAT_LOST n else s
  let s := ((s.put COV_STAT_STATE next).put COV_MEM_FREE_BLK 2048).put COV_MEM_DIRTY_BLK 0
  { (s.flag COV_STAT_DIRTY false) with cov := { from_ := f } }

def State.can (s : State) (n : Nat) : Can := tget {} s.cans n
def State.setCan (s : State) (n : Nat) (x : Can) : State := { s with cans := tset {} s.cans n x }
def State.modCan (s : State) (n : Nat) (f : Can → Can) : State := s.setCan n (f (s.can n))

/-- The controller enters a state. -/
def canGo (n st : Nat) (s : State) : State := s.put (CAN_STAT_STATE n) st

/-- A frame in transmission is cut short; it stays at the head of its queue (R428). -/
def cutTx (n : Nat) (s : State) : State := s.modCan n (fun x => { x with sending := none, aborted := false })

/-- The controller is fenced (R423, R425). -/
def canFence (n : Nat) (s : State) : State := canGo n 7 (cutTx n s)

/-- The fence is released (R423). -/
def canUnfence (n : Nat) (s : State) : State :=
  canGo n 1 ((s.put (CAN_ECNT_TEC n) 0).put (CAN_ECNT_REC n) 0)

/-- A fence on a LIN controller: recessive, its schedule stops (R491); its release restarts it. -/
def linFence (m : Nat) (s : State) : State :=
  { s.put (LIN_STAT_STATE m) 3 with lins := tset {} s.lins m { tget {} s.lins m with frame := none, sleepCmd := false } }
def linUnfence (m : Nat) (s : State) : State :=
  { s.put (LIN_STAT_STATE m) (if s.on (LIN_CTL_EN m) then 1 else 0) with
      lins := tset {} s.lins m { base := 64 * s.get (LIN_SCHED_BASE m), actAt := s.now } }

/-- A fence on an Ethernet port: the PHY is silent (R491). -/
def ethFence (e : Nat) (s : State) : State :=
  { s.flag (ETH_STAT_LINK e) false with eths := tset {} s.eths e { tget {} s.eths e with sending := false } }

def State.uart (s : State) (u : Nat) : Uart := tget {} s.uarts u
def State.setUart (s : State) (u : Nat) (x : Uart) : State := { s with uarts := tset {} s.uarts u x }

/-- Bits of a UART frame (R488). -/
def State.uartBits (s : State) (u : Nat) : Nat :=
  let p := s.get (UART_CTL_PAR u)
  1 + (if s.on (UART_CTL_DATA7 u) then 7 else 8) + (if p = 1 ∨ p = 2 then 1 else 0) + (if s.on (UART_CTL_STOP2 u) then 2 else 1)

/-- The time of `n` bits of a UART. -/
def State.uartTime (s : State) (u n : Nat) : Nat := n * 200000000 / clamp 300 3000000 (s.get (UART_BAUD_BAUD u))

/-- A UART that has been sending up to the present instant: a byte leaves the FIFO at the end of each frame. -/
def State.uartSent (s : State) (u : Nat) : Uart :=
  let x := s.uart u
  let d := max 1 (s.uartTime u (s.uartBits u))
  let k := min x.tx.length ((s.now - x.txAt) / d)
  { x with tx := x.tx.drop k, txAt := if x.tx.length = k then s.now else x.txAt + k * d }

/-- A UART stops; the byte being sent stays in its FIFO (R491). -/
def uartStop (u : Nat) (s : State) : State := s.setUart u { s.uartSent u with stopAt := none }

/-- `IMMO_OK` falls (R517); a fall while `IGN_OK` is high has source 419 to report. -/
def immoFall (s : State) : State :=
  if s.immoOk then
    let s := gatesChanged { s with immoOk := false }
    if s.pwr.ign then { s with acc := { s.acc with dropDue := true } } else s
  else s

/-- A fence on ACC: LF and UHF off, `IMMO_OK` low (R520). -/
def accFence (s : State) : State :=
  immoFall { s with acc := { s.acc with exch := none, pend := none, authAt := none, lockEnd := none } }

/-- ACC starts or is released from a fence: IDLE, with the lockout restored from MRAM (R513, R515). -/
def accRestore (s : State) : State :=
  let r := s.accKept.remain
  { s with acc := { log := s.acc.log, pads := s.acc.pads, dropDue := s.acc.dropDue, waitTouch := s.acc.waitTouch,
                    lockEnd := if r = 0 then none else some (s.now + r) } }

/-- A fence on the journal controller (R600): operations taken and not yet durable are lost, none of them reported; recovery follows the
release. -/
def jrnlFence (s : State) : State :=
  { (s.flag JRNL_STAT_FENCED true).flag JRNL_STAT_READY false with jrnl := { s.jrnl with queue := [] } }
def jrnlUnfence (s : State) : State := s.flag JRNL_STAT_FENCED false

/-- The entry of a fence on a link. -/
def linkFence (t : Nat) (s : State) : State :=
  if t < 0x05D then canFence (t - 0x050) s
  else if 0x060 ≤ t ∧ t < 0x066 then linFence (t - 0x060) s
  else if t = 0x068 ∨ t = 0x069 then ethFence (t - 0x068) s
  else if 0x07C ≤ t ∧ t < 0x080 then uartStop (t - 0x07C) s
  else s

/-- The release of a fence on a link. -/
def linkUnfence (t : Nat) (s : State) : State :=
  if t < 0x05D then canUnfence (t - 0x050) s
  else if 0x060 ≤ t ∧ t < 0x066 then linUnfence (t - 0x060) s
  else s

/-- The entry of a fence on a target (R528), by each block's own rule. -/
def fenceEnter (t : Nat) (s : State) : State :=
  if 1 ≤ t ∧ t ≤ 4 then
    settleCore (t - 1) .aborted (dropPasses (t - 1) { s with sub := { s.sub with again := true } })
  else if 0x010 ≤ t ∧ t ≤ 0x013 then dieBackstop (t - 0x010) .fence (s.flag (CHT_DIE_STAT_FENCED (t - 0x010)) true)
  else if t = 0x020 then pschFence s
  else if t = 0x021 then covFence s
  else if 0x030 ≤ t ∧ t < 0x040 then tmrFence (t % 8) s
  else if t = 0x040 then fldFence s
  else if t = 0x048 then accFence s
  else if t = 0x0A0 then jrnlFence s
  else if 0x050 ≤ t ∧ t < 0x080 then linkFence t s
  else if 0x100 ≤ t then settle (t - 0x100) s
  else s

/-- The release of a fence at the exit of its last source (R534). -/
def fenceLeave (t : Nat) (s : State) : State :=
  if 1 ≤ t ∧ t ≤ 4 then needCoreTest (t - 1) s
  else if 0x010 ≤ t ∧ t ≤ 0x013 then s.flag (CHT_DIE_STAT_FENCED (t - 0x010)) false
  else if t = 0x020 then pschUnfence s
  else if t = 0x021 then covUnfence s
  else if 0x030 ≤ t ∧ t < 0x040 then tmrRestart (t % 8) (s.putBit TMR_STAT_FENCED (t % 8) false)
  else if t = 0x040 then fldUnfence s
  else if t = 0x048 then accRestore s
  else if t = 0x0A0 then jrnlUnfence s
  else if 0x050 ≤ t ∧ t < 0x080 then linkUnfence t s
  else if 0x100 ≤ t then settle (t - 0x100) s
  else s

end Sys2Proof.Machine
end

