-- ==== Sys2Proof/Machine/Umpire.lean ====
section
/-!
DEFINITION. Sys2Proof/Machine/Umpire.lean: fault collection and reaction (chapter 13): a report, the quiet period, the level, the
log, SAFE, the self-protection; and the commands of the Umpire.
-/
namespace Sys2Proof.Machine

/-! ### Level, pins and the log -/

/-- The level a reaction code contributes (R536). -/
def codeLevel (code : Nat) : Nat := if code = 3 then 1 else if code = 4 then 2 else if code = 5 then 3 else 0

/-- The degradation level: 0–3 for D0–D3, 4 for SAFE; contributions count from the first frame (R536, R539). -/
def State.level (s : State) : Nat :=
  if s.ump.safe then 4
  else if s.frame.started then
    s.ump.srcs.foldl (fun a e => if e.2.state = .clear then a else max a (codeLevel e.2.code)) (s.get UMP_CTL_FLOOR)
  else 0

/-- Sources ACTIVE or PERMANENT. -/
def State.nActive (s : State) : Nat := (s.ump.srcs.filter (fun e => e.2.state != .clear)).length

/-- `FAULT_N` is low (R544). -/
def State.faultLow (s : State) : Bool :=
  !s.on UMP_STAT_BIST || s.ump.service || s.ump.safe ||
    s.ump.srcs.any (fun e => e.2.state != .clear && 2 ≤ e.2.code && e.2.code ≤ 5)

/-- Writes a record of four words into the log ring (R545, R732). -/
def logRecord (n code : Nat) (forced perm ex : Bool) (detail : Nat) (s : State) : State :=
  let seq := s.get UMP_LOG_SEQ_SEQ + 1
  let b (x : Bool) (i : Nat) := if x then 2 ^ i else 0
  let w0 := seq % 2 ^ 16 * 2 ^ 16 + s.now / 2 ^ 32 % 2 ^ 16
  let w1 := s.now % 2 ^ 32
  let w2 := code * 2 ^ 29 + b forced 28 + b perm 27 + b ex 26 + n % 1024 * 2 ^ 16 + s.level * 2 ^ 12
  let rec4 := [BitVec.ofNat 32 w0, BitVec.ofNat 32 w1, BitVec.ofNat 32 w2, BitVec.ofNat 32 detail]
  let s := { s with ump := { s.ump with log := tset [] s.ump.log ((seq - 1) % 256) rec4 } }
  let s := s.put UMP_LOG_SEQ_SEQ seq
  s.put UMP_LOG_STAT_UNCOPIED (min 256 (s.get UMP_LOG_STAT_UNCOPIED + 1))

/-- The reaction code in force of a source: 7 is treated as 6 (R527). -/
def State.react (s : State) (n : Nat) : Nat := min 6 (s.get (UMP_SRC_CFG_REACT n))

/-- The quiet period of a source (R531). -/
def State.quiet (s : State) (n : Nat) : Nat := ms (100 * clamp 1 600 (s.get (UMP_SRC_CFG_QUIET n)))

/-- All four cores are fenced. -/
def State.coresFenced (s : State) : Bool := s.fenced 1 && s.fenced 2 && s.fenced 3 && s.fenced 4

/-- The target a report acts on: the unit that raised it for targets 0x008 and 0x038, else the source's own. -/
def reportTarget (n unit : Nat) : Nat := if srcTarget n = 0x008 ∨ srcTarget n = 0x038 then unit else srcTarget n

/-- The reaction of a source takes hold (R527): FENCE, LIMP or SAFE; SAFE before the first frame waits for it (R539). -/
def react (code tgt : Nat) (was : Bool) (s : State) : State :=
  if code = 2 then (if tgt = 0 ∨ was then s else fenceEnter tgt s)
  else if code = 5 then enterLimp s
  else if code = 6 then (if s.frame.started then enterSafe 1 s else s)
  else s

/-- A report is counted and flagged: the fault flag of its block, `UMP_HIT`, `COUNT`, `FORCED`. -/
def noteReport (n : Nat) (forced : Bool) (s : State) : State :=
  let s := match srcFlag n with
    | some p => s.putBit p.1 p.2 true
    | none => s
  let s := s.putBit (UMP_HIT_HIT (n / 32)) (n % 32) true
  let s := s.sat (UMP_SRC_ST_COUNT n) 1
  s.flag (UMP_SRC_ST_FORCED n) forced

/-- The units a FENCE source holds once `unit` has raised a report (R528). -/
def unitsWith (n code unit : Nat) (l : List Nat) : List Nat :=
  if code = 2 ∧ unit ≠ 0 ∧ (srcTarget n = 0x008 ∨ srcTarget n = 0x038) ∧ l.contains unit = false then l ++ [unit] else l

/-- A report of a CLEAR source makes it PERMANENT: code 6, or the recovery memory is used up (R531, R532). -/
def State.permanent (s : State) (n code : Nat) : Bool :=
  let lim := s.get (UMP_SRC_CFG_REC_LIM n)
  code == 6 || (2 ≤ code && code ≤ 5 && lim < 15 && s.get (UMP_SRC_ST_REC_CNT n) == lim)

/-- A report of a CLEAR source: it becomes ACTIVE or PERMANENT, its reaction is applied, a record is written. -/
def enterSource (n unit detail : Nat) (forced : Bool) (s : State) : State :=
  let code := s.react n
  let tgt := reportTarget n unit
  let was := s.fenced tgt
  let perm := s.permanent n code
  let s := s.setSrc n { state := if perm then .permanent else .active, code := code,
                        units := unitsWith n code unit [], last := s.now }
  let s := react code tgt was s
  if code = 0 then s else logRecord n code forced perm false detail s

/-- A further report of a source that is not CLEAR: its quiet timer restarts; a unit it raises is fenced too (R528). -/
def againSource (n unit : Nat) (s : State) : State :=
  let e := s.src n
  let tgt := reportTarget n unit
  let was := s.fenced tgt
  let s := s.setSrc n { e with units := unitsWith n e.code unit e.units, last := s.now }
  if e.code = 2 ∧ tgt ≠ 0 ∧ was = false then fenceEnter tgt s else s

/-- The interrupt of a report whose code `UMP_NOTIFY` names (R546). -/
def notify (code : Nat) (s : State) : State :=
  if (s.get UMP_NOTIFY_REACT).testBit code then
    overN 4 (fun c s => if (s.get UMP_NOTIFY_CORES).testBit c then raiseIrq c 3 s else s) s
  else s

/-- All four cores fenced enter SAFE (R537). -/
def safeIfNoCore (s : State) : State := if s.frame.started && s.coresFenced then enterSafe 3 s else s

/-- A report reaches the Umpire (R531). `unit` is the target of the unit that raised it, for targets 0x008 and 0x038;
`detail` is word 3 of the record. -/
def reportOnce (n unit detail : Nat) (forced : Bool) (s : State) : State :=
  if srcReserved n || !s.alive || s.power == .deep || s.power == .off then s
  else
    let code := s.react n
    let s := noteReport n forced s
    let s := { s with pwr := { s.pwr with ump := s.pwr.ump || (decide (2 ≤ code) && s.asleep) } }
    let s := if (s.src n).state = .clear then enterSource n unit detail forced s else againSource n unit s
    safeIfNoCore (notify code s)

/-- The report of source 419 that a fall of `IMMO_OK` leaves (R517). -/
def immoReport (s : State) : State :=
  if s.acc.dropDue then reportOnce 419 0 0 false { s with acc := { s.acc with dropDue := false } } else s

/-- The number of the frame in progress. -/
def State.frameNo (s : State) : Nat := s.get64 FRAME_COUNT_LO_COUNT FRAME_COUNT_HI_COUNT

/-- The reports of tasks that were ABORTED (R99), oldest first; a reaction may abort further tasks. -/
def abortReports : Nat → State → State
  | 0, s => s
  | n + 1, s =>
    match s.frame.ovrDue with
    | [] => s
    | c :: l =>
      abortReports n (reportOnce (43 + c) 0 (s.frameNo % 2 ^ 32) false { s with frame := { s.frame with ovrDue := l } })

/-- What reports leave to report: tasks ABORTED, of which a frame has at most 64, and a fall of `IMMO_OK`. -/
def dueReports (s : State) : State := immoReport (abortReports 64 s)

/-- A report with what it brings about: a fence of a core aborts its tasks, one of ACC lowers `IMMO_OK`, and these report in turn. While the
clocks wait it is held with the instant of its decision (R634). -/
def reportFull (n unit detail : Nat) (forced : Bool) (s : State) : State :=
  if s.prism.waiting then { s with prism := { s.prism with held := s.prism.held ++ [⟨n, unit, detail, forced, s.now⟩] } }
  else dueReports (reportOnce n unit detail forced s)

/-- A held report reaches the Umpire when `FABRIC` restarts, with the time base of its decision (R634). -/
def reportHeld (h : HeldReport) (s : State) : State :=
  let now := s.now
  let s := reportFull h.src h.unit h.detail h.forced { s with now := h.at_ }
  { s with now := max now s.now }

/-- A report with detail 0 of a source with a fixed target. -/
def report (n : Nat) (s : State) : State := reportFull n 0 0 false s

/-- The targets a source fences. -/
def fencedBy (n : Nat) (e : Source) : List Nat :=
  if e.code = 2 then (if srcTarget n = 0x008 ∨ srcTarget n = 0x038 then e.units
    else if srcTarget n = 0 then [] else [srcTarget n]) else []

/-- A source leaves ACTIVE (R531, R532, R534): CLEAR, `REC_CNT` + 1 and an exit record for codes 2–5, and the release of
every target it was the last to fence. -/
def exitSource (n : Nat) (s : State) : State :=
  let e := s.src n
  let s := s.setSrc n { e with state := .clear, units := [] }
  let s := if 2 ≤ e.code ∧ e.code ≤ 5 then
      logRecord n e.code (s.on (UMP_SRC_ST_FORCED n)) false true 0 (s.sat (UMP_SRC_ST_REC_CNT n) 1)
    else s
  forEach (fencedBy n e) (fun t s => if s.fenced t then s else fenceLeave t s) s

/-! ### The commands of the Umpire -/

/-- `QUIET_EXPIRY` (R531, R533): no report of the source for its quiet period. -/
def execQuietExpiry (n : Fin 512) (t : Nat) (s : State) : Res :=
  let s := s.at t
  if (s.src n).state = .active ∧ (s.src n).last + s.quiet n ≤ s.now then .next (exitSource n s) else .next s

/-- `REC_CNT_FORGET` (R532): `FORGET_MIN` minutes without a report. -/
def execRecCntForget (n : Fin 512) (t : Nat) (s : State) : Res :=
  let s := s.at t
  let m := s.get UMP_CFG_FORGET_MIN
  if m ≠ 0 ∧ (s.src n).last + sec (60 * m) ≤ s.now then .next (s.put (UMP_SRC_ST_REC_CNT n) 0) else .next s

/-- `SAFE_REQ` (R537): `UMP_CTL.SAFE_REQ` is written. -/
def execSafeReq (s : State) : Res :=
  if s.alive then .next (dueReports (enterSafe 2 (s.flag UMP_CTL_SAFE_REQ true))) else .next s

/-- `UMP_FORCE` (R540): one forced report of a source; a reserved source takes none. The bit reads 1 until the Umpire has
taken the report, which it has at the end of the step. -/
def execUmpForce (n : Fin 512) (s : State) : Res := .next (reportFull n 0 0 true s)

/-- `FLOOR` (R536): the lowest level, from the next T0. -/
def execFloorLevel (v : BitVec 2) (s : State) : Res := .next (s.put UMP_CTL_FLOOR v.toNat)

/-- `SELF_PROTECTION_TRIP` (R541): the direct path latches `SAFE_N` low and SAFE is entered; a record with source 0x3FF
when a clock still runs. -/
def execSelfProtectionTrip (clock : Bool) (s : State) : Res :=
  let s := s.flag UMP_STAT_SELF true
  let s := dueReports (enterSafe 4 (setSafeHeld true s))
  .next (if clock then logRecord 0x3FF 6 false true false 0 s else s)

end Sys2Proof.Machine
end

