-- ==== Sys2Proof/Machine/Psch.lean ====
section
/-!
DEFINITION. Sys2Proof/Machine/Psch.lean: the position scheduler (chapter 06): speed, yaw, position and path at each tick, corrections,
actuation points, events, latency learning, the speed window; and its commands.
-/
namespace Sys2Proof.Machine

/-! ### Arithmetic (R263, R266) -/

/-- Division rounded to the nearest, ties away from zero (R266). -/
def roundDiv (a : Int) (b : Nat) : Int :=
  if 0 ≤ a then (2 * a + b) / (2 * b) else -((2 * (-a) + b) / (2 * b))

/-- sin(r × π/2 ÷ 2³⁰) in Q1.30 for 0 ≤ r ≤ 2³⁰, by its series to the 19th power. -/
def sinQuarter (r : Nat) : Int :=
  let x : Int := (r : Int) * 1727108826179 / 2 ^ 30
  let x2 : Int := x * x / 2 ^ 40
  let step (p : Int × Int) (k : Nat) : Int × Int :=
    let t := -(p.2 * x2 / 2 ^ 40) / ((2 * k : Int) * (2 * k + 1))
    (p.1 + t, t)
  roundDiv (([1, 2, 3, 4, 5, 6, 7, 8, 9].foldl step (x, x)).1) (2 ^ 10)

/-- The sine of a heading in 1/2³² turn, in Q1.30. -/
def sinRef (h : Nat) : Int :=
  let h := h % 2 ^ 32
  let r := h % 2 ^ 30
  match h / 2 ^ 30 with
  | 0 => sinQuarter r
  | 1 => sinQuarter (2 ^ 30 - r)
  | 2 => -sinQuarter r
  | _ => -sinQuarter (2 ^ 30 - r)

/-- The scheduler's sine: within 2⁻²⁴ of the true one, the error itself open (R266; log entry 4). -/
def sinQ (h : Nat) : Int := sinRef h + ((Config.trigErr (h % 2 ^ 32) % 121 : Nat) : Int) - 60

/-- The scheduler's cosine. -/
def cosQ (h : Nat) : Int := sinQ (h + 2 ^ 30)

/-- ω·y for a yaw rate in 1/65536 turn/s and an arm in mm, in 1/256 mm/s (R272, R284). -/
def omegaY (yaw y : Int) : Int := roundDiv (yaw * y * 6746518852) (2 ^ 38)

/-- A value wrapped to 48 bits (path lengths, R263). -/
def wrap48 (v : Int) : Nat := unsigned 48 v

/-- A heading wrapped to 1/2³² turn. -/
def wrap32 (v : Int) : Nat := unsigned 32 v

/-! ### Speed and yaw (R267–R275) -/

def State.wheel (s : State) (w : Nat) : Wheel := tget {} s.psch.wheels w
def State.setWheel (s : State) (w : Nat) (v : Wheel) : State :=
  { s with psch := { s.psch with wheels := tset {} s.psch.wheels w v } }
def State.point (s : State) (i : Nat) : Point := tget {} s.psch.points i
def State.setPoint (s : State) (i : Nat) (p : Point) : State :=
  { s with psch := { s.psch with points := tset {} s.psch.points i p } }

/-- `STOP_MS` in time-base units. -/
def State.stopTime (s : State) : Nat := ms (s.get PSCH_SPD_CFG_STOP_MS)

/-- v_w at instant t, in 1/256 mm/s (R267). -/
def State.wheelSpeed (s : State) (w t : Nat) : Int :=
  match (s.wheel w).last, (s.wheel w).per with
  | some l, some p =>
    let a := t - l
    if a > s.stopTime then 0
    else roundDiv ((s.get (PSCH_WHL_SCALE_SCALE w) : Int) * 781250) (if a ≤ p then max p 1 else a)
  | _, _ => 0

/-- The lateral offset of a wheel, in mm. -/
def State.wheelY (s : State) (w : Nat) : Int := signed 16 (s.get (PSCH_WHL_CFG_Y_MM w))

/-- A wheel is valid: enabled and not excluded (R269). -/
def State.wheelOk (s : State) (w : Nat) : Bool := s.on (PSCH_WHL_CFG_EN w) && (s.wheel w).excl.isNone

/-- The valid wheels. -/
def State.validWheels (s : State) : List Nat := (List.range 4).filter s.wheelOk

/-- The sign of travel (R268). -/
def State.sgn (s : State) : Int := if s.psch.rev then -1 else 1

/-- The term of a wheel in the reference speed (R272). -/
def State.wheelTerm (s : State) (w t : Nat) : Int := s.sgn * s.wheelSpeed w t - omegaY s.psch.yaw (s.wheelY w)

/-- The mean of a list of integers, rounded. -/
def meanI (l : List Int) : Int := if l.isEmpty then 0 else roundDiv (l.foldl (· + ·) 0) l.length

/-- The wheel's part of a capture (R267): a first capture, or one after a gap longer than `STOP_MS`, sets no interval. -/
def wheelInterval (w t : Nat) (s : State) : State :=
  let x := s.wheel w
  match x.last with
  | none => s.setWheel w { x with last := some t, per := none }
  | some l =>
    if t - l > s.stopTime then s.setWheel w { x with last := some t, per := none }
    else s.setWheel w { x with last := some t, per := some (t - l) }

/-- A wheel whose `EN` has been set again starts without captures (R267). -/
def wheelEnable (w : Nat) (s : State) : State :=
  let x := s.wheel w
  let en := s.on (PSCH_WHL_CFG_EN w)
  if en ∧ x.en = false then s.setWheel w { en := true } else s.setWheel w { x with en := en }

/-- The median of the values of a list of two or more, the mean of the middle two of an even count. -/
def medianI (l : List Int) : Int :=
  let m := l.mergeSort (· ≤ ·)
  let n := m.length
  if n % 2 = 1 then m.getD (n / 2) 0 else roundDiv (m.getD (n / 2 - 1) 0 + m.getD (n / 2) 0) 2

/-- The silence or the slip condition of R269 holds for wheel `w` at t. -/
def State.wheelBad (s : State) (w t : Nat) : Bool :=
  let x := s.wheel w
  let others := (s.validWheels).filter (· != w)
  let silent := decide ((match x.last with | some l => t - l | none => t) ≥ sec 2) &&
    others.any (fun o => decide (s.wheelSpeed o t > 1000 * 256))
  let pct := s.get PSCH_SPD_CFG_SLIP_PCT
  let terms := others.map (fun o => s.wheelTerm o t)
  let med := medianI terms
  let slip := pct != 0 && decide (2 ≤ others.length) && decide (500 * 256 ≤ med.natAbs) &&
    decide ((s.wheelTerm w t - med).natAbs * 100 > med.natAbs * pct)
  silent || slip

/-- Exclusion of a wheel (R269): entered while a condition holds, reported when it has lasted 1 s. -/
def wheelExclude (w t : Nat) (s : State) : State :=
  let x := s.wheel w
  if !s.on (PSCH_WHL_CFG_EN w) then s
  else if s.wheelBad w t then
    match x.excl with
    | none => s.setWheel w { x with excl := some t, okSince := none, told := false }
    | some t0 =>
      if x.told = false ∧ t0 + sec 1 ≤ t then report 257 (s.setWheel w { x with okSince := none, told := true })
      else s.setWheel w { x with okSince := none }
  else
    match x.excl, x.okSince with
    | some _, none => s.setWheel w { x with okSince := some t }
    | _, _ => s

/-- Readmission after 1 s without either condition (R269). -/
def wheelReadmit (w t : Nat) (s : State) : State :=
  let x := s.wheel w
  match x.excl, x.okSince with
  | some _, some t0 =>
    if t0 + sec 1 ≤ t ∧ s.wheelBad w t = false then s.setWheel w { x with excl := none, okSince := none, told := false }
    else s
  | _, _ => s

/-- Takes a new direction sign (R268): a change above 300 mm/s reports source 260. -/
def takeSign (rev : Bool) (s : State) : State :=
  if rev = s.psch.rev then s
  else
    let fast := decide (s.psch.v.natAbs > 300 * 256)
    let s := { s with psch := { s.psch with rev := rev } }
    if fast then report 260 s else s

/-- A capture of a wheel channel (R267); under QUAD the lowest-numbered valid wheel samples the direction (R268). -/
def wheelCapture (w t : Nat) (lvl : Bool) (s : State) : State :=
  let s := if s.get PSCH_SPD_CFG_DIR_SRC = 1 ∧ s.validWheels.head? = some w then takeSign (!lvl) s else s
  wheelInterval w t s

/-- The unbiased rate of a raw SENT code (R273). -/
def State.rawRate (s : State) (code : Nat) : Int :=
  roundDiv (((code : Int) - signed 32 (s.get PSCH_YAW_ZERO_ZERO)) * signed 32 (s.get PSCH_YAW_GAIN_GAIN)) 65536

/-- The learned bias (R274). -/
def State.bias (s : State) : Int := signed 32 (s.get PSCH_YAW_BIAS_BIAS)

/-- The zero-rate update applies: `ZRU` non-zero and v 0 in WHEELS for `ZRU` × 100 ms (R274). -/
def State.zruOn (s : State) (t : Nat) : Bool :=
  let z := s.get PSCH_YAW_CFG_ZRU
  match s.psch.still with
  | some t0 => z != 0 && decide (t0 + ms (100 * z) ≤ t)
  | none => false

/-- One zero-rate update by a frame of this code (R274). -/
def zeroRate (code t : Nat) (s : State) : State :=
  if s.zruOn t then
    s.put PSCH_YAW_BIAS_BIAS (unsigned 32 (s.bias + roundDiv (s.rawRate code - s.bias) 64))
  else s

/-- A valid yaw frame (R273, R274). -/
def yawFrame (code t : Nat) (s : State) : State :=
  let s := zeroRate code t s
  { s with psch := { s.psch with yawAt := some t, yawRate := s.rawRate code - s.bias } }

/-- A yaw frame arrived within `TMO_MS` (R275). -/
def State.yawFresh (s : State) (t : Nat) : Bool :=
  match s.psch.yawAt with
  | some a => s.on PSCH_YAW_CFG_EN && decide (t - a ≤ ms (orOne (s.get PSCH_YAW_CFG_TMO_MS)))
  | none => false

/-- Sets the yaw state (0 SENSOR, 1 WHEELS, 2 INVALID) and rate; leaving SENSOR reports source 259 (R275). -/
def setYaw (st : Nat) (rate : Int) (s : State) : State :=
  let lost := s.get PSCH_STAT_YAW == 0 && st != 0
  let s := { (s.put PSCH_STAT_YAW st) with psch := { s.psch with yaw := rate } }
  if lost then report 259 s else s

/-- The yaw state and rate at instant t (R275). -/
def yawUpdate (t : Nat) (s : State) : State :=
  if s.yawFresh t then setYaw 0 s.psch.yawRate s
  else
    let l := s.validWheels.filter (fun w => decide (s.wheelY w > 0))
    let r := s.validWheels.filter (fun w => decide (s.wheelY w < 0))
    if s.get PSCH_YAW_CFG_FB = 1 ∧ l ≠ [] ∧ r ≠ [] then
      let sp (x : List Nat) := meanI (x.map (fun w => s.sgn * s.wheelSpeed w t))
      let dy := meanI (l.map s.wheelY) - meanI (r.map s.wheelY)
      setYaw 1 (roundDiv ((sp l - sp r) * 42722830) (2 ^ 20 * dy.toNat)) s
    else setYaw 2 0 s

/-- The speed state: 0 WHEELS, 1 FIRMWARE, 2 INVALID (R270). -/
def State.speedState (s : State) : Nat :=
  if s.validWheels ≠ [] then 0
  else if s.get PSCH_SPD_CFG_FB = 1 ∧ s.psch.vfwAge.any (fun n => n < 3) then 1
  else 2

/-- The reference speed and speed state at t (R270–R272); entry to INVALID reports source 258. -/
def speedUpdate (t : Nat) (s : State) : State :=
  let st := s.speedState
  let v := match st with
    | 0 => meanI (s.validWheels.map (fun w => s.wheelTerm w t))
    | 1 => signed 32 (s.get PSCH_VFW_V_MM_S) * 256
    | _ => 0
  let still := if st = 0 ∧ v = 0 then some (s.psch.still.getD t) else none
  let lost := st == 2 && s.get PSCH_STAT_SPD != 2
  let s := { (s.put PSCH_STAT_SPD st) with psch := { s.psch with v := v, still := still } }
  let s := s.put PSCH_STAT_WHL_OK (s.validWheels.foldl (fun a w => setBit a w) 0)
  if lost then report 258 s else s

/-! ### Corrections and localisation (R277–R281) -/

/-- Adds to the reference position and heading. -/
def shiftRef (e n h : Int) (s : State) : State :=
  { s with psch := { s.psch with e := s.psch.e + e, n := s.psch.n + n, h := wrap32 ((s.psch.h : Int) + h) } }

/-- Adds a delta to every history entry (R277). -/
def shiftHist (e n h : Int) (s : State) : State :=
  let f (r : List Word) : List Word :=
    [r.getD 0 0, r.getD 1 0 + BitVec.ofInt 32 e, r.getD 2 0 + BitVec.ofInt 32 n,
     BitVec.ofNat 32 (unsigned 16 ((wbits (r.getD 3 0) 31 16 : Int) + h) * 65536 + wbits (r.getD 3 0) 15 0)]
  { s with psch := { s.psch with hist := s.psch.hist.map (fun x => (x.1, f x.2)) } }

/-- A correction is complete at t with accuracy U (R280). -/
def corrDone (u t : Nat) (s : State) : State :=
  { s with psch := { s.psch with
      u := u * 65536, corrAt := some t, spread := none,
      lost := s.psch.lost && decide (u > s.get PSCH_LOC_CFG_U_LIM_MM) } }

/-- One tick of the DELTA being spread; the remainder goes with the last tick (R277). -/
def spreadTick (t : Nat) (s : State) : State :=
  match s.psch.spread with
  | none => s
  | some x =>
    if x.left ≤ 1 then corrDone x.u t (shiftRef x.e x.n x.h s)
    else
      let s := shiftRef x.de x.dn x.dh s
      { s with psch := { s.psch with spread := some { x with
          e := x.e - x.de, n := x.n - x.dn, h := x.h - x.dh, left := x.left - 1 } } }

/-- The rest of a DELTA applied in one step (R278). -/
def spreadRest (t : Nat) (s : State) : State :=
  match s.psch.spread with
  | none => s
  | some x => corrDone x.u t (shiftRef x.e x.n x.h s)

/-- LINE events of the listed points lose their arming (R293). -/
def rearmLines (p : Nat → Bool) (s : State) : State :=
  let f (o : Option Event) : Option Event := o.map (fun ev =>
    if wbits ev.w0 31 30 = 1 ∧ p (wbits ev.w0 7 0) then { ev with armA := false, armB := false } else ev)
  { s with psch := { s.psch with events := s.psch.events.map (fun x => (x.1, f x.2)) } }

/-- A correction takes effect at a tick (R277, R278). -/
def applyCorr (t : Nat) (c : Corr) (s : State) : State :=
  let s := spreadRest t s
  if c.abs then
    let s := { s with psch := { s.psch with
      e := c.e * 65536, n := c.n * 65536, h := wrap32 (c.h * 65536), hist := [] } }
    rearmLines (fun _ => true) (corrDone c.u t s)
  else
    let e := c.e * 65536; let n := c.n * 65536; let h := c.h * 65536
    let s := shiftHist c.e c.n c.h s
    if c.spread = 0 then corrDone c.u t (shiftRef e n h s)
    else
      let k : Int := c.spread
      { s with psch := { s.psch with
          spread := some ⟨e, n, h, e.tdiv k, n.tdiv k, h.tdiv k, c.spread, c.u⟩ } }

/-- The accuracy U in whole mm, saturating (R263). -/
def State.uMm (s : State) : Nat := min 65535 (s.psch.u / 65536)

/-- Localisation: 0 NONE, 1 FIXED, 2 DR, 3 LOST (R280). -/
def State.locOf (s : State) (t : Nat) : Nat :=
  match s.psch.corrAt with
  | none => 0
  | some a =>
    if s.psch.lost || decide (s.psch.u / 65536 > s.get PSCH_LOC_CFG_U_LIM_MM) then 3
    else if t - a < ms (s.get PSCH_CORR_CFG_GNSS_TMO_MS) then 1 else 2

/-- Takes the localisation state at t; entry to DR reports 262, entry to LOST reports 263 (R280). -/
def locUpdate (t : Nat) (s : State) : State :=
  let old := s.get PSCH_STAT_LOC
  let new := s.locOf t
  let s := s.put PSCH_STAT_LOC new
  if new = old then s else if new = 2 then report 262 s else if new = 3 then report 263 s else s

/-! ### Points -/

/-- A field of an actuation point entry (R282). -/
def Entry.apEnable (e : Entry) : Bool := e.w0.getLsbD 31
def Entry.applyReq (e : Entry) : Bool := e.w0.getLsbD 30
def Entry.fallback (e : Entry) : Nat := wbits e.w0 29 28
def Entry.timeCtrl (e : Entry) : Bool := e.w0.getLsbD 27
def Entry.cmd (e : Entry) : Bool := e.w0.getLsbD 26
def Entry.learn (e : Entry) : Bool := e.w0.getLsbD 25
def Entry.armX (e : Entry) : Int := e.w1.toInt
def Entry.armY (e : Entry) : Int := e.w2.toInt

/-- The state of the latch used by TIME control or TIME fallback. -/
def Point.timeNow (p : Point) : Bool := p.entry.timeCtrl || (p.fallback && p.entry.fallback == 2)

/-- Point faults (R282): bit and count. -/
def apFault (i b : Nat) (s : State) : State :=
  let p := s.point i
  s.setPoint i { p with flt := setBit p.flt b, fltCnt := min 255 (p.fltCnt + 1) }

/-- The position of a point from the reference state (R265's pseudocode). -/
def placePoint (p : Point) (s : State) : Point :=
  let sn := sinQ s.psch.h; let cs := cosQ s.psch.h
  { p with
    e := s.psch.e + roundDiv (p.entry.armX * sn) (2 ^ 14) - roundDiv (p.entry.armY * cs) (2 ^ 14),
    n := s.psch.n + roundDiv (p.entry.armX * cs) (2 ^ 14) + roundDiv (p.entry.armY * sn) (2 ^ 14) }

/-- Distance of one tick at a speed: 1/65536 mm from 1/256 mm/s over 100 µs. -/
def tickDist (v : Int) : Int := roundDiv (v * 16) 625

/-- One point at a tick (R284). -/
def pointTick (i : Nat) (s : State) : State :=
  let p := s.point i
  if p.entry.apEnable then
    let v := s.psch.v + omegaY s.psch.yaw p.entry.armY
    s.setPoint i (placePoint { p with v := v, path := wrap48 ((p.path : Int) + tickDist v) } s)
  else s

/-- The fallback condition of R304. -/
def State.fbCond (s : State) : Bool :=
  s.get PSCH_STAT_LOC == 0 || s.get PSCH_STAT_LOC == 3 || s.get PSCH_STAT_SPD == 2

/-- A point enters fallback (R304): with CLOSE its logical state closes. -/
def pointFallback (i : Nat) (s : State) : State :=
  let p := s.point i
  if p.entry.apEnable && s.fbCond && !p.fallback then
    apFault i 0 (s.setPoint i { p with fallback := true, fbSet := false, logical := p.logical && p.entry.fallback != 1 })
  else s

/-- The enabled points. -/
def State.enabledPoints (s : State) : List Nat :=
  (s.psch.points.filter (fun x => x.2.entry.apEnable)).map (fun x => x.1)

/-! ### Latency learning (R298–R301) -/

/-- F after an accepted sample: the mean until `N_MIN`, then the exponential filter (R299). -/
def LatFilter.accept (f : LatFilter) (nMin k : Nat) (x : Int) : LatFilter :=
  if f.n < nMin then
    { f with n := f.n + 1, sum := f.sum + x, f := (f.sum + x) / ((f.n : Int) + 1), outs := [] }
  else { f with f := f.f + (x - f.f) / (2 ^ k : Nat), outs := [] }

/-- A sample is an outlier (R299). -/
def LatFilter.outlier (f : LatFilter) (nMin pct : Nat) (x : Int) : Bool :=
  pct != 0 && decide (nMin ≤ f.n) && decide ((x - f.f).natAbs * 100 > f.f.natAbs * pct)

/-- The filter after a sample, and whether eight outliers replaced F (R299). -/
def LatFilter.sample (f : LatFilter) (e : Entry) (x : Int) : LatFilter × Bool :=
  let nMin := orOne (wbits e.w5 15 8)
  if f.outlier nMin (wbits e.w5 23 16) x then
    let up := decide (f.f < x)
    let outs := if f.outs.isEmpty || up == f.above then f.outs ++ [x] else [x]
    if outs.length = 8 then ({ f with f := outs.foldl (· + ·) 0 / 8, outs := [] }, true)
    else ({ f with outs := outs, above := up }, false)
  else (f.accept nMin (wbits e.w5 3 0) x, false)

/-- Puts a filter back as the opening or the closing one of a point. -/
def Point.withFilter (p : Point) (opening : Bool) (f : LatFilter) : Point :=
  if opening then { p with on := f } else { p with off := f }

/-- The opening or the closing filter of a point. -/
def Point.filter (p : Point) (opening : Bool) : LatFilter := if opening then p.on else p.off

/-- A signature of a channel: a sample of the point it names (R298, R299). `raw` is in 1/16 µs, none when not found. -/
def latencySample (ch : Nat) (opening : Bool) (raw : Option Nat) (s : State) : State :=
  let c := s.chan ch
  let i := c.entry.apId
  let p := s.point i
  if !(c.entry.apEn && p.entry.learn) then s
  else match raw with
    | none =>
      let m := tget 0 s.psch.misses ch + 1
      let s := { s with psch := { s.psch with misses := tset 0 s.psch.misses ch m } }
      if m = 16 then report 268 (apFault i 4 s) else s
    | some x =>
      let s := { s with psch := { s.psch with misses := tset 0 s.psch.misses ch 0 } }
      if c.sawDroop || s.blocked ch || c.retryEnd.isSome || s.inBackstop ch then s
      else
        let r := (p.filter opening).sample p.entry x
        let s := s.setPoint i (p.withFilter opening r.1)
        if r.2 then apFault i 2 s else s

/-- The channels that name a point. -/
def State.chansOf (s : State) (i : Nat) : List Nat :=
  (List.range 136).filter (fun c => (s.chan c).entry.apEn && (s.chan c).entry.apId == i)

/-- The latency before the clamp, in 1/16 µs: the seed without learning or before `N_MIN` samples, else F + `ADD`, within
0 to 65,535 µs (R299). -/
def Point.rawLat (p : Point) (opening : Bool) : Int :=
  let f := p.filter opening
  let seed := if opening then wbits p.entry.w4 31 16 else wbits p.entry.w4 15 0
  let add := if opening then signed 16 (wbits p.entry.w3 31 16) else signed 16 (wbits p.entry.w3 15 0)
  if p.entry.learn && decide (orOne (wbits p.entry.w5 15 8) ≤ f.n) then clampI 0 (65535 * 16) (f.f + add * 16)
  else seed * 16

/-- The highest `LO` and the lowest `HI` of the Touchline bands of the channels of a point, without those of 0 and 0
(R300), in µs. -/
def State.band (s : State) (i : Nat) (opening : Bool) : Option (Nat × Nat) :=
  let b (c : Nat) := if opening then (s.get (PSCH_TL_LAT_ON_LO c), s.get (PSCH_TL_LAT_ON_HI c))
    else (s.get (PSCH_TL_LAT_OFF_LO c), s.get (PSCH_TL_LAT_OFF_HI c))
  ((s.chansOf i).map b).foldl (fun a x =>
    if x = (0, 0) then a else match a with
      | none => some x
      | some y => some (max y.1 x.1, min y.2 x.2)) none

/-- The latency in force, in 1/16 µs (R299, R300). -/
def State.latOf (s : State) (i : Nat) (opening : Bool) : Nat :=
  let v := ((s.point i).rawLat opening).toNat
  match s.band i opening with
  | none => v
  | some (lo, hi) => min (max v (lo * 16)) (hi * 16)

/-- A clamp that acts sets `LAT_CLAMP` and reports source 267 once per episode (R300). -/
def latClamp (i : Nat) (opening : Bool) (s : State) : State :=
  let p := s.point i
  let f := p.filter opening
  let acts := decide (((p.rawLat opening).toNat) ≠ s.latOf i opening)
  let s := s.setPoint i (p.withFilter opening { f with clamped := acts })
  if acts && !f.clamped then report 267 (apFault i 3 s) else s

/-! ### Events (R287–R297) -/

def Event.kind (e : Event) : Nat := wbits e.w0 31 30
def Event.sense (e : Event) : Nat := wbits e.w0 29 28
def Event.action (e : Event) : Nat := wbits e.w0 27 26
def Event.leadOn (e : Event) : Bool := e.w0.getLsbD 25
def Event.imm (e : Event) : Bool := e.w0.getLsbD 24
def Event.tag (e : Event) : Nat := wbits e.w0 23 16
def Event.ap (e : Event) : Nat := wbits e.w0 7 0

def State.event (s : State) (k : Nat) : Option Event := tget none s.psch.events k
def State.setEvent (s : State) (k : Nat) (e : Option Event) : State :=
  { s with psch := { s.psch with events := tset none s.psch.events k e } }

/-- Firmware slots: 0 to `FW_SLOTS` − 1 (R287). -/
def State.fwSlots (s : State) : Nat := min 4096 (s.get PSCH_EV_SPLIT_FW_SLOTS)

/-- Gap and closing rate of one sense of an event (R289), in 1/65536 mm and 1/256 mm/s, or in 5 ns and 1 for TIME. `fwd`
selects FORWARD or TO_LEFT. -/
def State.gap (s : State) (ev : Event) (fwd : Bool) (t : Nat) : Int × Int :=
  let p := s.point ev.ap
  match ev.kind with
  | 0 =>
    let g := signed 48 (wrap48 ((ev.w1.toNat : Int) * 65536 - p.path))
    if fwd then (g, p.v) else (-g, -p.v)
  | 1 =>
    let a := wbits ev.w3 31 16 * 65536
    let sa := sinQ a; let ca := cosQ a
    let de := p.e - ev.w1.toInt * 65536; let dn := p.n - ev.w2.toInt * 65536
    let d := roundDiv (dn * sa - de * ca) (2 ^ 30)
    let vf := p.v
    let vl := omegaY s.psch.yaw p.entry.armX
    let sh := sinQ s.psch.h; let ch := cosQ s.psch.h
    let ve := roundDiv (vf * sh + vl * ch) (2 ^ 30)
    let vn := roundDiv (vf * ch - vl * sh) (2 ^ 30)
    let r := roundDiv (vn * sa - ve * ca) (2 ^ 30)
    if fwd then (-d, r) else (d, -r)
  | _ => ((ev.w1.toNat + 2 ^ 32 * ev.w2.toNat : Int) - t, 1)

/-- The lead of an event in 1/16 µs (R290). -/
def State.leadOf (s : State) (ev : Event) : Nat :=
  if ev.leadOn && ev.action ≤ 1 then s.latOf ev.ap (ev.action == 0) else 0

/-- c⁺·L: in 1/65536 mm for DIST and LINE, in 5 ns units for TIME. -/
def leadDist (ev : Event) (c : Int) (l : Nat) : Int :=
  if c ≤ 0 then 0 else if ev.kind = 2 then roundDiv ((l : Int) * 25) 2 else roundDiv (c * l) 62500

/-- t_f = t + (g − c·L) ÷ c (R291). -/
def fireTime (ev : Event) (t : Nat) (g c : Int) (l : Nat) : Int :=
  (t : Int) + (if ev.kind = 2 then g else roundDiv (g * 781250) c.toNat) - roundDiv ((l : Int) * 25) 2

/-- The crossing point of a LINE event lies on its segment (R292). -/
def State.onSegment (s : State) (ev : Event) (g c : Int) : Bool :=
  let len := wbits ev.w3 15 0
  if ev.kind ≠ 1 ∨ len = 0 then true
  else
    let p := s.point ev.ap
    let a := wbits ev.w3 31 16 * 65536
    let sa := sinQ a; let ca := cosQ a
    let vl := omegaY s.psch.yaw p.entry.armX
    let sh := sinQ s.psch.h; let ch := cosQ s.psch.h
    let ve := roundDiv (p.v * sh + vl * ch) (2 ^ 30)
    let vn := roundDiv (p.v * ch - vl * sh) (2 ^ 30)
    let qe := p.e + (if c > 0 then roundDiv (ve * g) c.toNat else 0)
    let qn := p.n + (if c > 0 then roundDiv (vn * g) c.toNat else 0)
    let pr := roundDiv ((qe - ev.w1.toInt * 65536) * sa + (qn - ev.w2.toInt * 65536) * ca) (2 ^ 30)
    decide (0 ≤ pr) && decide (pr ≤ (len : Int) * 100 * 65536)

/-- One sense of an event at a tick (R291, R292): whether it is armed after the tick, and the firing time if it fires. -/
def State.evalSense (s : State) (ev : Event) (fwd : Bool) (armed : Bool) (t : Nat) : Bool × Option Int :=
  let gc := s.gap ev fwd t
  let l := s.leadOf ev
  let ahead := decide (gc.1 - leadDist ev gc.2 l > 0)
  let armed := armed || ahead || ev.imm
  let tf := if ahead then (if gc.2 > 0 then some (fireTime ev t gc.1 gc.2 l) else none) else some (t : Int)
  match tf with
  | some f =>
    if armed && (decide (f < (t : Int) + 24000) || !ahead) then
      if s.onSegment ev gc.1 gc.2 then (armed, some f) else (ahead, none)
    else (armed, none)
  | none => (armed, none)

/-- The ground velocity V_E, V_N of a point in 1/256 mm/s (R284). -/
def State.groundVel (s : State) (p : Point) : Int × Int :=
  let vl := omegaY s.psch.yaw p.entry.armX
  let sh := sinQ s.psch.h; let ch := cosQ s.psch.h
  (roundDiv (p.v * sh + vl * ch) (2 ^ 30), roundDiv (p.v * ch - vl * sh) (2 ^ 30))

/-- Events of this kind are evaluated for the point (R286, R304). -/
def State.evaluated (s : State) (ev : Event) : Bool :=
  let p := s.point ev.ap
  p.entry.apEnable && (!p.fallback || (match p.entry.fallback with
    | 0 => ev.kind != 1
    | 1 => false
    | _ => ev.kind == 2))

/-- The latch nearest to an instant, ties to the later one (R294). -/
def nearLatch (f : Int) : Nat := ((f + 200) / 400).toNat * 400

/-- Places a firing event (R294). -/
def placeEvent (k : Nat) (ev : Event) (f : Int) (t : Nat) (s : State) : State :=
  let first : Int := t + 4000
  let at' := max f first
  let late := (first - f).toNat
  let s := s.setEvent k (some { ev with placed := true })
  let s := { s with psch := { s.psch with placed := s.psch.placed ++
    [⟨nearLatch at', k, ev.w0, late, (s.leadOf ev * 25) / 2⟩] } }
  if late > us (s.get PSCH_EV_CFG_LATE_TOL_US) then report 264 (apFault ev.ap 1 s) else s

/-- One pending event at a tick. -/
def eventTick (k t : Nat) (s : State) : State :=
  match s.event k with
  | none => s
  | some ev =>
    if ev.placed || !s.evaluated ev then s
    else
      let a := if ev.sense = 1 then (ev.armA, none) else s.evalSense ev true ev.armA t
      let b := if ev.sense = 0 then (ev.armB, none) else s.evalSense ev false ev.armB t
      let ev' := { ev with armA := a.1, armB := b.1 }
      match a.2, b.2 with
      | some f, _ => placeEvent k ev' f t s
      | none, some f => placeEvent k ev' f t s
      | none, none => s.setEvent k (some ev')

/-- Writes a fired record (R296). -/
def firedRecord (x : Placed) (nochange : Bool) (s : State) : State :=
  let seq := s.psch.firedSeq + 1
  let tol := us (s.get PSCH_EV_CFG_LATE_TOL_US)
  let w2 := x.slot * 2 ^ 20 + wbits x.w0 27 26 * 2 ^ 18 + (if nochange then 2 ^ 17 else 0) +
    (if x.late > tol then 2 ^ 16 else 0) + wbits x.w0 7 0 * 256 + wbits x.w0 23 16
  let w3 := min 65535 (x.late / 200) * 65536 + min 65535 (x.lead / 200)
  let r := [BitVec.ofNat 32 seq, BitVec.ofNat 32 x.latch, BitVec.ofNat 32 w2, BitVec.ofNat 32 w3]
  { s with psch := { s.psch with firedSeq := seq % 2 ^ 32, fired := tset [] s.psch.fired ((seq - 1) % 256) r } }

/-- An event of the group fires on its point (R297): the slot is freed unless a later event stands in it, the record
written, the logical state moved to `target`. -/
def fireOne (x : Placed) (target : Nat → Option Bool) (s : State) : State :=
  let i := wbits x.w0 7 0
  let p := s.point i
  let act := wbits x.w0 27 26
  let want := act == 0
  let timeCtl := p.entry.timeCtrl
  let nochange := act < 2 && (timeCtl || p.logical == want)
  let s := match s.event x.slot with
    | some ev => if ev.placed then s.setEvent x.slot none else s
    | none => s
  let s := firedRecord x nochange s
  match target i with
  | some b => if timeCtl || act ≥ 2 then s else s.setPoint i { s.point i with logical := b }
  | none => s

/-- The events of one latch (R297): for a point with both an OPEN and a CLOSE the result is closed. -/
def fireLatch (l : List Placed) (s : State) : State :=
  let target (i : Nat) : Option Bool :=
    let m := l.filter (fun x => wbits x.w0 7 0 == i)
    if m.any (fun x => wbits x.w0 27 26 == 1) then some false
    else if m.any (fun x => wbits x.w0 27 26 == 0) then some true else none
  forEach l (fun x s => fireOne x target s) s

/-- Fires every placed event whose latch has come, latch by latch (R295). -/
def fireDue (t : Nat) : Nat → State → State
  | 0, s => s
  | k + 1, s =>
    match (s.psch.placed.filter (fun x => x.latch ≤ t)).map (fun x => x.latch) with
    | [] => s
    | a :: rest =>
      let m := rest.foldl min a
      let now := s.psch.placed.filter (fun x => x.latch == m)
      let s := { s with psch := { s.psch with placed := s.psch.placed.filter (fun x => x.latch != m) } }
      fireDue t k (fireLatch now s)

/-! ### The speed window (R302, R303) -/

/-- The conditions of `APPLY_OK` apart from the window. -/
def State.applyBase (s : State) : Bool :=
  s.on PSCH_CTL_APPLY_EN && s.get PSCH_STAT_SPD != 2 && !s.fenced 0x020 &&
    (decide (s.psch.v > 0) || s.on PSCH_WIN_CFG_REV_OK)

/-- Vtop (R302), in mm/s. -/
def State.vTop (s : State) : Nat :=
  let m := s.get PSCH_WIN_V_V_MAX
  cap (s.get PSCH_TL_WIN_V_CAP) m

/-- The window and the decision on `APPLY_OK` at a tick (R302); the change takes effect at the first latch at or after
t + 20 µs (R265). -/
def applyDecide (t : Nat) (s : State) : State :=
  let v := s.psch.v.natAbs
  let lo := s.get PSCH_WIN_V_V_MIN * 256
  let hi := s.vTop * 256
  let hy := s.get PSCH_WIN_CFG_HYST * 256
  let inner := decide (lo + hy ≤ v) && decide (v + hy ≤ hi)
  let outer := decide (lo ≤ v) && decide (v ≤ hi) && s.get PSCH_WIN_V_V_MAX != 0
  let dwell := if inner then some (s.psch.dwell.getD t) else none
  let entered := match dwell with
    | some t0 => decide (t0 + ms (10 * s.get PSCH_WIN_CFG_DWELL) ≤ t)
    | none => false
  let inWin := outer && (s.psch.inWin || entered)
  let want := inWin && s.applyBase
  let cur := match s.psch.applyNext with
    | some p => p.2
    | none => s.applyOk
  { s with psch := { s.psch with
      dwell := dwell, inWin := inWin,
      applyNext := if want = cur then s.psch.applyNext else some ((t + 4000 + 399) / 400 * 400, want) } }

/-- `APPLY_OK` takes a level: the line, `PSCH_STAT.APPLY`, and the channels that require it (R26, R27). -/
def setApply (b : Bool) (s : State) : State :=
  if s.applyOk = b then s else gatesChanged ({ (s.flag PSCH_STAT_APPLY b) with applyOk := b })

/-- A change of `APPLY_OK` whose latch has come (R303). -/
def applyDue (t : Nat) (s : State) : State :=
  match s.psch.applyNext with
  | some p => if p.1 ≤ t then setApply p.2 { s with psch := { s.psch with applyNext := none } } else s
  | none => s

/-! ### The tick (R264) -/

/-- The scheduler runs: enabled, not fenced, in RUN or IDLE (R307). -/
def State.pschRuns (s : State) : Bool :=
  s.clocks && s.on PSCH_CTL_EN && !s.fenced 0x020

/-- Inputs that arrived since the last tick take effect (R265). -/
def pschInputs (s : State) : State :=
  let caps := s.psch.caps; let yaws := s.psch.yawIn; let sigs := s.psch.sigs
  let s := { s with psch := { s.psch with caps := [], yawIn := [], sigs := [] } }
  let s := overN 4 wheelEnable s
  let s := forEach caps (fun x s => wheelCapture x.1 x.2.1 x.2.2 s) s
  let s := forEach yaws (fun x s => yawFrame x.1 x.2 s) s
  forEach sigs (fun x s => latencySample x.1 x.2.1 x.2.2 s) s

/-- Advances the reference state by one tick (R265, R281). -/
def pschAdvance (s : State) : State :=
  let dh := roundDiv (s.psch.yaw * 429497) 65536
  let hm := wrap32 ((s.psch.h : Int) + dh / 2)
  let d := tickDist s.psch.v
  let de := roundDiv (d * sinQ hm) (2 ^ 30)
  let dn := roundDiv (d * cosQ hm) (2 ^ 30)
  let k := if s.get PSCH_STAT_YAW = 2 then 4 else 1
  let u := min (2 ^ 48 - 1) (s.psch.u + (roundDiv ((d.natAbs : Int) * s.get PSCH_LOC_CFG_DRIFT * k) 65536).toNat)
  let s := shiftRef de dn dh s
  { s with psch := { s.psch with path := wrap48 ((s.psch.path : Int) + d), u := u } }

/-- The history entry of each millisecond (R276). -/
def histWrite (t : Nat) (s : State) : State :=
  if t % 200000 = 0 then
    let r : List Word := [BitVec.ofNat 32 t, BitVec.ofInt 32 (s.psch.e / 65536), BitVec.ofInt 32 (s.psch.n / 65536),
      BitVec.ofNat 32 (s.psch.h / 65536 * 65536 + s.uMm)]
    { s with psch := { s.psch with hist := tset [] s.psch.hist (t / 200000 % 256) r } }
  else s

/-- The corrections committed since the last tick, in order, else one tick of the one being spread (R265, R278). -/
def pschCorrections (t : Nat) (s : State) : State :=
  let l := s.psch.corr
  let s := { s with psch := { s.psch with corr := [] } }
  spreadTick t (forEach l (fun c s => applyCorr t c s) s)

/-- Speed, direction, exclusion and yaw at the tick. -/
def pschMotion (t : Nat) (s : State) : State :=
  let s := if s.get PSCH_SPD_CFG_DIR_SRC ≠ 1 then takeSign (s.on PSCH_DIR_REV) s else s
  let s := overN 4 (fun w s => wheelReadmit w t (wheelExclude w t s)) s
  speedUpdate t (yawUpdate t s)

/-- Points and events of the tick. -/
def pschPoints (t : Nat) (s : State) : State :=
  let l := s.enabledPoints
  let s := forEach l (fun i s => pointFallback i (pointTick i s)) s
  let s := forEach l (fun i s => latClamp i false (latClamp i true s)) s
  let slots := (s.psch.events.filter (fun x => x.2.isSome)).map (fun x => x.1)
  forEach slots (fun k s => eventTick k t s) s

/-- One tick of the scheduler at instant `t` (R264, R265). -/
def pschTick (t : Nat) (s : State) : State :=
  let s := pschMotion t (pschInputs s)
  let s := histWrite t (locUpdate t (pschAdvance (pschCorrections t s)))
  applyDecide t (pschPoints t (applyDue t s))

/-! ### The other commands -/

/-- `WHEEL_EXCLUDE` (R269). -/
def execWheelExclude (w : Fin 4) (t : Nat) (s : State) : Res :=
  let s := s.at t
  if s.pschRuns then .next (wheelExclude w t s) else .next s

/-- `WHEEL_READMIT` (R269). -/
def execWheelReadmit (w : Fin 4) (t : Nat) (s : State) : Res :=
  let s := s.at t
  if s.pschRuns then .next (wheelReadmit w t s) else .next s

/-- `WHEEL_STOP` (R267): `STOP_MS` after its last capture the wheel's speed is 0, and the next capture counts as a first. -/
def execWheelStop (w : Fin 4) (t : Nat) (s : State) : Res :=
  let s := s.at t
  let x := s.wheel w
  match x.last with
  | some l => if t - l > s.stopTime then .next (s.setWheel w { x with per := none }) else .next s
  | none => .next s

/-- `YAW_LOST` (R275). -/
def execYawLost (t : Nat) (s : State) : Res :=
  let s := s.at t
  if s.pschRuns && !s.yawFresh t then .next (yawUpdate t s) else .next s

/-- `ZERO_RATE_UPDATE` (R274). -/
def execZeroRateUpdate (t : Nat) (code : Nat) (s : State) : Res :=
  let s := s.at t
  if s.pschRuns then .next (zeroRate code t s) else .next s

/-- `LOC_DR` (R280). -/
def execLocDr (t : Nat) (s : State) : Res :=
  let s := s.at t
  if s.pschRuns then .next (locUpdate t s) else .next s

/-- A committed DELTA is rejected (R279): a step above `CORR_MAX_MM` without `FORCE`, or localisation NONE with no SET on
the way to the next tick. -/
def State.deltaBad (s : State) (e n : Int) (force : Bool) : Bool :=
  let m := s.get PSCH_CORR_CFG_CORR_MAX_MM
  (!force && (decide (e.natAbs > m) || decide (n.natAbs > m))) ||
    (s.psch.corrAt.isNone && !s.psch.corr.any (fun c => c.abs))

/-- A correction is queued for the next tick (R265). -/
def queueCorr (c : Corr) (s : State) : State := { s with psch := { s.psch with corr := s.psch.corr ++ [c] } }

/-- `DELTA` (R277, R279). -/
def execDelta (e n : Int) (h : Int) (u : Nat) (spread : BitVec 8) (force : Bool) (s : State) : Res :=
  if s.deltaBad e n force then .next (report 261 s)
  else .next (queueCorr ⟨false, e, n, h, u, spread.toNat, force⟩ s)

/-- `SET` (R277). -/
def execSetCorr (e n : Int) (h : BitVec 16) (u : Nat) (s : State) : Res :=
  .next (queueCorr ⟨true, e, n, h.toNat, u, 0, false⟩ s)

/-- `AP_POST` (R283): the index is marked for reading at the commit point (R282, R164). -/
def execApPost (i : Fin 256) (s : State) : Res :=
  .next { s with psch := { s.psch with posts := if s.psch.posts.contains i.val then s.psch.posts
    else s.psch.posts ++ [i.val] } }

/-- `AP_CLR` (R282): `PSCH_AP_CLR.FLT` clears the point's sticky word. -/
def execApClr (i : Fin 256) (s : State) : Res :=
  .next (s.setPoint i { s.point i with flt := 0, fltCnt := 0 })

/-- An event descriptor breaks R288. -/
def eventBad (w0 : Word) : Bool :=
  wbits w0 31 30 == 3 || wbits w0 29 28 == 3 || wbits w0 27 26 == 3 || (wbits w0 31 30 == 2 && wbits w0 29 28 != 0) ||
    wbits w0 15 8 != 0

/-- An event post is refused (R288). -/
def rejectEvent (slot : Nat) (s : State) : State :=
  report 265 ((s.flag PSCH_POST_STAT_EV_REJ true).put PSCH_POST_STAT_EV_SLOT slot)

/-- `EVENT_POST` (R288): words that a kind does not use are reserved and 0 (R287). -/
def execEventPost (slot : Fin 4096) (w0 w1 w2 w3 : Word) (s : State) : Res :=
  let kind := wbits w0 31 30
  let spare := (kind == 0 && (w2 != 0 || w3 != 0)) || (kind == 2 && w3 != 0)
  if eventBad w0 || spare || decide (s.fwSlots ≤ slot.val) then .next (rejectEvent slot s)
  else .next (s.setEvent slot (some { w0 := w0, w1 := w1, w2 := w2, w3 := w3 }))

/-- `EVENT_CANCEL` (R287, R288). -/
def execEventCancel (slot : Fin 4096) (s : State) : Res :=
  if s.fwSlots ≤ slot.val then .next (rejectEvent slot s) else .next (s.setEvent slot none)

/-- `CANCEL_AP` (R287): frees every firmware slot of one point. -/
def execCancelAp (i : Fin 256) (s : State) : Res :=
  let keep (x : Nat × Option Event) : Bool := !(decide (x.1 < s.fwSlots) &&
    (match x.2 with | some ev => ev.ap == i.val | none => true))
  .next { s with psch := { s.psch with events := s.psch.events.filter keep } }

/-- `APPLY_WINDOW_ENTRY` (R302). -/
def execApplyWindowEntry (t : Nat) (s : State) : Res :=
  let s := s.at t
  if s.pschRuns then .next (applyDecide t s) else .next s

/-- `PSCH_EN` (R309): ticks run; only a reset clears the bit. -/
def execPschEn (s : State) : Res := .next (s.flag PSCH_CTL_EN true)

/-! ### The point table at the commit point and at T0 (R282, R283, R285, R305) -/

/-- A post breaks R283. -/
def apEntryBad (e : Entry) : Bool :=
  wbits e.w0 24 0 != 0 || e.fallback == 3 || decide (e.armX.natAbs > 100000) || decide (e.armY.natAbs > 100000) ||
    wbits e.w5 3 0 == 0 || decide (wbits e.w5 3 0 > 8) || decide (wbits e.w5 23 16 > 100) ||
    wbits e.w5 31 24 != 0 || wbits e.w5 7 4 != 0 || wbits e.w7 31 16 != 0

/-- The base of the point table. -/
def State.apBase (s : State) : Nat := 64 * s.get PSCH_AP_BASE_BASE

/-- Reads one posted point entry (R164, R283). -/
def apRead (i : Nat) (s : State) : State :=
  let e := Entry.ofWords (s.words (s.apBase + 64 * i) 8)
  if apEntryBad e then
    report 269 (apFault i 5 ((s.flag PSCH_POST_STAT_AP_REJ true).put PSCH_POST_STAT_AP_INDEX i))
  else s.setPoint i { s.point i with shadow := some e }

/-- The commit point of the point table. -/
def apCommitPoint (s : State) : State :=
  let l := s.psch.posts
  forEach l apRead { s with psch := { s.psch with posts := [] } }

/-- A point's entry governs from this T0 (R165, R285, R297, R304). -/
def apAdopt (i : Nat) (s : State) : State :=
  let p := s.point i
  match p.shadow with
  | none => s
  | some e =>
    let arm := decide (e.w1 ≠ p.entry.w1) || decide (e.w2 ≠ p.entry.w2)
    let q := { p with entry := e, shadow := none, genAck := e.gen,
                      logical := if e.timeCtrl || (p.fallback && e.fallback == 2) then e.cmd else p.logical }
    let q := if arm then placePoint q s else q
    let s := s.setPoint i q
    if arm then rearmLines (fun j => j == i) s else s

/-- A point leaves fallback at the first T0 at which the conditions no longer hold (R305): its held events are armed
anew; in TIME fallback the logical state is `CMD` at the next T0 after the entry (R304). -/
def apFallbackT0 (i : Nat) (s : State) : State :=
  let p := s.point i
  if p.fallback && !s.fbCond then
    let f (x : Nat × Option Event) : Nat × Option Event := (x.1, x.2.map (fun ev =>
      if ev.ap = i then { ev with armA := false, armB := false } else ev))
    let evs := s.psch.events.map f
    let s := { s with psch := { s.psch with events := evs } }
    s.setPoint i { p with fallback := false }
  else if p.fallback && p.entry.fallback == 2 && !p.fbSet then
    s.setPoint i { p with fbSet := true, logical := p.entry.cmd }
  else s

/-- Words 8–15 of a point (R283). -/
def State.apWords (s : State) (i : Nat) : List Word :=
  let p := s.point i
  let pend := min 255 ((s.psch.events.filter (fun x => match x.2 with | some ev => ev.ap == i | none => false)).length)
  let gated := p.entry.apEnable && p.entry.applyReq && !s.applyOk
  let b (x : Bool) (k : Nat) := if x then 2 ^ k else 0
  [BitVec.ofNat 32 (b (s.apOpen i) 31 + b p.logical 30 + b gated 29 + b p.timeNow 28 + pend * 65536),
   BitVec.ofInt 32 (p.e / 65536), BitVec.ofInt 32 (p.n / 65536), BitVec.ofNat 32 (p.path / 65536),
   BitVec.ofInt 32 (p.v.tdiv 256),
   BitVec.ofNat 32 (s.latOf i true / 16 * 65536 + s.latOf i false / 16),
   BitVec.ofNat 32 p.genAck, BitVec.ofNat 32 (p.fltCnt * 2 ^ 24 + p.flt)]

/-- The scheduler's part of a T0: adoption, fallback exit, the reference window and the state windows (R309, R263). -/
def pschT0 (s : State) : State :=
  let ids := s.psch.points.map (fun x => x.1)
  let s := forEach ids (fun i s => apFallbackT0 i (apAdopt i s)) s
  let s := { s with psch := { s.psch with vfwAge := s.psch.vfwAge.map (· + 1) } }
  let s := s.put PSCH_REF_E_MM (unsigned 32 (s.psch.e / 65536))
  let s := s.put PSCH_REF_N_MM (unsigned 32 (s.psch.n / 65536))
  let s := s.put PSCH_REF_H_H (s.psch.h / 65536)
  let s := s.put PSCH_REF_YAW_YAW (unsigned 32 s.psch.yaw)
  let s := s.put PSCH_REF_V_V (unsigned 32 (s.psch.v.tdiv 256))
  let s := s.put PSCH_REF_PATH_PATH (s.psch.path / 65536)
  let s := s.put PSCH_REF_U_U s.uMm
  let s := s.put PSCH_FIRED_SEQ_SEQ s.psch.firedSeq
  let pend := (s.psch.events.filter (fun x => x.2.isSome)).map (fun x => x.1)
  let s := s.put PSCH_EV_STAT_FW_PEND (pend.filter (fun k => k < s.fwSlots)).length
  let s := s.put PSCH_EV_STAT_COV_PEND (pend.filter (fun k => s.fwSlots ≤ k)).length
  { s with psch := { s.psch with view :=
      { points := ids.map (fun i => (i, s.apWords i)), pend := pend, hist := s.psch.hist, fired := s.psch.fired } } }

/-- Writes words 8–15 of every point back into the table (R282). -/
def apWriteBack (s : State) : State :=
  if s.apBase = 0 then s
  else overN 256 (fun i s => s.setWords (s.apBase + 64 * i + 32) (s.apWords i)) s

end Sys2Proof.Machine
end

