-- ==== Sys2Proof/Machine/CanCore.lean ====
section
/-!
DEFINITION. Sys2Proof/Machine/CanCore.lean: the queues, records, receive buffers and error states of a CAN controller
(R423–R450), as operations that the commands and the network management share.
-/
namespace Sys2Proof.Machine

/-- The controller's state, as `CAN_STAT.STATE` codes it. -/
def State.canState (s : State) (n : Nat) : Nat := s.get (CAN_STAT_STATE n)

/-- The clock of the controller runs (R455, R629); in service mode only `CAN12` runs (R454). -/
def State.canRuns (s : State) (n : Nat) : Bool :=
  s.clocks && !s.bit PRISM_GATE_CAN n && (!s.ump.service || n == 12)

/-! ### Transmit records (R445) -/

/-- Writes the record of a frame that leaves a queue: outcome 0 SENT, 1 ABORTED, 2 ONESHOT_FAIL, 3 REPLACED. -/
def txRecord (n : Nat) (f : TxFrame) (outcome : Nat) (urg : Bool) (s : State) : State :=
  let seq := (s.get (CAN_TXEV_SEQ_SEQ n) + 1) % 2 ^ 32
  let s := s.put (CAN_TXEV_SEQ_SEQ n) seq
  let a := 64 * s.get (CAN_TXEV_BASE_BASE n) + 16 * ((seq + 2 ^ 32 - 1) % 64)
  let w1 := f.tag * 2 ^ 24 + outcome * 2 ^ 20 + (if urg then 2 ^ 19 else 0)
  if inShared a then
    s.setWords a [BitVec.ofNat 32 seq, BitVec.ofNat 32 w1, BitVec.ofNat 32 f.sof, BitVec.ofNat 32 (f.sof / 2 ^ 32)]
  else s

/-- The FIFO entry in transmission, if one is; the others. -/
def Can.busyFifo (x : Can) : List TxFrame := if x.sending = some .fifo then x.fifo.take 1 else []
def Can.idleFifo (x : Can) : List TxFrame := if x.sending = some .fifo then x.fifo.drop 1 else x.fifo

/-- FLUSH (R444): every FIFO entry not in transmission leaves with outcome ABORTED; the one in transmission is not retried. -/
def canFlush (n : Nat) (s : State) : State :=
  let x := s.can n
  let s := forEach x.idleFifo (fun f s => txRecord n f 1 false s) s
  s.setCan n { x with fifo := x.busyFifo, aborted := x.aborted || x.sending == some .fifo }

/-- URG_ABORT (R444). -/
def canUrgAbort (n : Nat) (s : State) : State :=
  let x := s.can n
  match x.urgent with
  | none => s
  | some f =>
    if x.sending = some .urgent then s.setCan n { x with aborted := true }
    else (txRecord n f 1 true s).setCan n { x with urgent := none }

/-- The queues of a controller that leaves the bus for BUS_SLEEP are discarded (R465). -/
def canDiscard (n : Nat) (s : State) : State := canUrgAbort n (canFlush n (cutTx n s))

/-! ### Pushing (R439–R441) -/

/-- The frame in the staging registers. -/
def State.staged (s : State) (n : Nat) : TxFrame :=
  { ide := s.on (CAN_TX_ID_IDE n), fdf := s.on (CAN_TX_ID_FDF n), brs := s.on (CAN_TX_ID_BRS n),
    rtr := s.on (CAN_TX_FRM_RTR n), oneshot := s.on (CAN_TX_FRM_ONESHOT n), id := s.get (CAN_TX_ID_ID n),
    tag := s.get (CAN_TX_FRM_TAG n), dlc := s.get (CAN_TX_FRM_DLC n),
    data := (List.range 16).map (fun i => BitVec.ofNat 32 (s.get (CAN_TX_DATA_W n i))) }

/-- A push that R439 rejects. -/
def State.txBad (s : State) (n : Nat) (f : TxFrame) : Bool :=
  (f.fdf && !s.on (CAN_CTL_FD_EN n)) || (f.rtr && f.fdf) || (f.brs && !f.fdf) || (!f.ide && decide (0x7FF < f.id)) ||
    (n == 12 && decide (0x1F7E0000 ≤ f.id) && decide (f.id ≤ 0x1F7E00FF))

/-- A report of source 338 + 4n. -/
def queueReport (n : Nat) (s : State) : State := report (338 + 4 * n) s

/-- The network of the controller is in BUS_SLEEP and no request of this commit takes it out (R466, R467). -/
def State.busAsleep (s : State) (n : Nat) : Bool := s.get (NM_STAT_STATE n) == 1 && !(tget {} s.nms n).waking

/-- PUSH of a frame to the FIFO (R440, R466). -/
def canPush (n : Nat) (f : TxFrame) (s : State) : State :=
  let x := s.can n
  if s.txBad n f then queueReport n (s.flag (CAN_FLAGS_TX_BAD n) true)
  else if s.busAsleep n then txRecord n f 1 false s
  else if 64 ≤ x.fifo.length then queueReport n (s.flag (CAN_FLAGS_TX_FULL n) true)
  else s.setCan n { x with fifo := x.fifo ++ [f] }

/-- URGENT (R441, R466). -/
def canUrgent (n : Nat) (f : TxFrame) (s : State) : State :=
  let x := s.can n
  if s.txBad n f then queueReport n (s.flag (CAN_FLAGS_TX_BAD n) true)
  else if s.busAsleep n then txRecord n f 1 true s
  else match x.urgent with
    | none => s.setCan n { x with urgent := some f }
    | some g =>
      if x.sending = some .urgent then s.flag (CAN_FLAGS_URG_REJ n) true
      else (txRecord n g 3 true s).setCan n { x with urgent := some f }

/-- A write of `CAN_TX_CMD` (R457): FLUSH and URG_ABORT act on what was queued before, then the push. -/
def canTxCmd (n v : Nat) (s : State) : State :=
  let s := if v.testBit 8 then canFlush n s else s
  let s := if v.testBit 9 then canUrgAbort n s else s
  if v % 4 = 1 then canPush n (s.staged n) s
  else if v % 4 = 2 then canUrgent n (s.staged n) s
  else s

/-! ### Receive buffers (R432–R435) -/

def State.rxBuf (s : State) (n b : Nat) : RxBuf := tget {} (s.can n).bufs b
def State.setRxBuf (s : State) (n b : Nat) (y : RxBuf) : State :=
  s.modCan n (fun x => { x with bufs := tset {} x.bufs b y })

def Entry.rxEn (e : Entry) : Bool := e.w0.getLsbD 31
def Entry.rxOvw (e : Entry) : Bool := e.w0.getLsbD 30
def Entry.ring (e : Entry) : Nat := wbits e.w0 22 16

/-- The address of word `w` of table entry `b`, of its data. -/
def State.mbAddr (s : State) (n b w : Nat) : Nat := 64 * s.get (CAN_MB_BASE_BASE n) + 64 * b + 4 * w
def State.rxdAddr (s : State) (n b : Nat) : Nat := 64 * s.get (CAN_RXD_BASE_BASE n) + 64 * b

/-- The device writes a word of a receive buffer entry; the tables lie in shared SRAM. -/
def mbWrite (n b w v : Nat) (s : State) : State :=
  let a := s.mbAddr n b w
  if inShared a then s.setWordN a v else s

/-- The buffer holds an unread frame (R434). -/
def State.rxNew (s : State) (n b : Nat) : Bool := s.bit (CAN_RX_NEW_NEW n (b / 32)) (b % 32)

/-- Frees a buffer (R434): clears `NEW` in `CAN_RX_NEWw` and in word 8. -/
def rxAck (n b : Nat) (s : State) : State :=
  let s := s.putBit (CAN_RX_NEW_NEW n (b / 32)) (b % 32) false
  let a := s.mbAddr n b 8
  if inShared a then s.setWordN a (s.wordN a % 2 ^ 31) else s

/-- `MB_POST`: the entry is read at the commit point. -/
def mbPost (n b : Nat) (s : State) : State :=
  s.modCan n (fun x => if x.posts.contains b then x else { x with posts := x.posts ++ [b] })

/-- The entry that will govern buffer `b`: of `news` if it was posted, else the one read or adopted before. -/
def State.mbNext (s : State) (n : Nat) (news : List (Nat × Entry)) (b : Nat) : Entry :=
  match news.find? (fun p => p.1 == b) with
  | some p => p.2
  | none => (s.rxBuf n b).shadow.getD (s.rxBuf n b).entry

/-- A post breaks R432. -/
def mbBad (view : Nat → Entry) (b : Nat) : Bool :=
  let e := view b
  let heads := (List.range b).filter (fun h => (view h).rxEn && decide (b ≤ h + (view h).ring))
  let members := (List.range e.ring).map (fun i => b + 1 + i)
  wbits e.w0 29 23 != 0 || wbits e.w0 15 0 != 0 || e.w1 != 0 || e.w2 != 0 || e.w3 != 0 || e.w4 != 0 || e.w5 != 0 ||
    e.w6 != 0 || wbits e.w7 31 16 != 0 || decide (127 < b + e.ring) ||
    members.any (fun m => !(view m).rxEn || (view m).ring != 0) ||
    (!heads.isEmpty && (!e.rxEn || e.ring != 0)) ||
    (e.ring != 0 && (List.range b).any (fun h => (view h).ring != 0 && decide (b ≤ h + (view h).ring)))

/-- Word 15 of an entry. -/
def rxFltWord (y : RxBuf) : Nat := if y.rej then 2 ^ 13 else 0

/-- Takes or rejects one posted entry (R164, R432). -/
def mbTake (n : Nat) (news : List (Nat × Entry)) (p : Nat × Entry) (s : State) : State :=
  let y := s.rxBuf n p.1
  if mbBad (s.mbNext n news) p.1 then
    let s := ((s.flag (CAN_POST_STAT_REJ n) true).put (CAN_POST_STAT_REJ_INDEX n) p.1).flag (CAN_FLAGS_POST_REJ n) true
    mbWrite n p.1 15 (2 ^ 13) (s.setRxBuf n p.1 { y with rej := true })
  else s.setRxBuf n p.1 { y with shadow := some p.2 }

/-- The commit point of a controller's receive buffer table. -/
def mbCommitPoint (n : Nat) (s : State) : State :=
  let l := (s.can n).posts
  if l.isEmpty || s.bit PRISM_GATE_CAN n then s
  else
    let news := l.map (fun b => (b, Entry.ofWords (s.words (s.mbAddr n b 0) 8)))
    forEach news (mbTake n news) (s.modCan n (fun x => { x with posts := [] }))

/-- T0: entries read at the commit point govern, with `GEN_ACK` echoed (R165). -/
def mbFrame (n : Nat) (s : State) : State :=
  forEach (s.can n).bufs (fun p s => match p.2.shadow with
    | some e =>
      let s := s.setRxBuf n p.1 { p.2 with entry := e, shadow := none, genAck := e.gen, rej := false }
      mbWrite n p.1 15 0 (mbWrite n p.1 14 e.gen s)
    | none => s) s

/-! ### Error states (R423) -/

/-- ACTIVE, PASSIVE or BUS_OFF follows TEC and REC. -/
def canLevel (n : Nat) (s : State) : State :=
  let tec := s.get (CAN_ECNT_TEC n)
  let rec' := s.get (CAN_ECNT_REC n)
  let st := s.canState n
  if st ≠ 2 ∧ st ≠ 3 then s
  else if 255 < tec then
    report (336 + 4 * n) ((cutTx n (canGo n 4 s)).flag (CAN_FLAGS_BO n) true)
  else if 128 ≤ tec ∨ 128 ≤ rec' then
    if st = 2 then report (337 + 4 * n) ((canGo n 3 s).flag (CAN_FLAGS_EP n) true) else s
  else canGo n 2 s

/-- The controller joins the bus: 11 recessive bits (R423). -/
def canJoin (n : Nat) (s : State) : State := canLevel n (canGo n 2 s)

end Sys2Proof.Machine
end

