-- ==== Sys2Proof/Machine/Nm.lean ====
section
/-!
DEFINITION. Sys2Proof/Machine/Nm.lean: network management, bus sleep and bus wake (R458–R473), and their commands.
-/
namespace Sys2Proof.Machine

def State.nm (s : State) (n : Nat) : Nm := tget {} s.nms n
def State.setNm (s : State) (n : Nat) (x : Nm) : State := { s with nms := tset {} s.nms n x }
def State.modNm (s : State) (n : Nat) (f : Nm → Nm) : State := s.setNm n (f (s.nm n))

/-- The network state: 0 OFF, 1 BUS_SLEEP, 2 NETWORK, 3 READY_SLEEP, 4 PREPARE_SLEEP. -/
def State.nmState (s : State) (n : Nat) : Nat := s.get (NM_STAT_STATE n)

/-- The rally message (R459), tagged 0xA0. -/
def State.rally (s : State) (n : Nat) : TxFrame :=
  let b1 := (if s.on (NM_CTL_REQ n) then 1 else 0) + (if (s.nm n).wakeFlag then 2 else 0)
  { ide := s.on (NM_RALLY_ID_IDE n), id := s.get (NM_RALLY_ID_ID n), tag := 0xA0, dlc := 2,
    data := [BitVec.ofNat 32 (s.get (NM_CTL_NODE n) + 256 * b1)] }

/-- Places a rally in the FIFO: at the end, or first after a wake by request (R463, R467). -/
def sendRally (n : Nat) (first : Bool) (s : State) : State :=
  let x := s.can n
  if 64 ≤ x.fifo.length then s.flag (NM_FLAGS_RALLY_DROP n) true
  else
    let l := if first then s.rally n :: x.fifo else x.fifo ++ [s.rally n]
    (s.setCan n { x with fifo := l }).modNm n (fun y => { y with sent := y.sent + 1 })

/-- NETWORK ends once `REPEAT` rallies have been sent and `REQ` is 0 (R461). -/
def nmRelease (n : Nat) (s : State) : State :=
  if s.nmState n = 2 ∧ s.on (NM_CTL_REQ n) = false ∧ orOne (s.get (NM_CTL_REPEAT n)) ≤ (s.nm n).sent then
    (s.put (NM_STAT_STATE n) 3).modNm n (fun y => { y with tmoAt := s.now, fwAt := none })
  else s

/-- Entry to NETWORK: a rally at once (R462). -/
def nmNetwork (n : Nat) (first : Bool) (s : State) : State :=
  let s := (s.put (NM_STAT_STATE n) 2).modNm n (fun y => { y with
    sent := 0, rallyAt := s.now, fwAt := none, leaving := false })
  nmRelease n (sendRally n first s)

/-- A departure from BUS_SLEEP (R467, R472): its cause and time are recorded and the controller integrates. -/
def nmDepart (n cause : Nat) (s : State) : State :=
  let s := (s.put (NM_WAKE_CAUSE n) cause).put64 (NM_WAKE_TS_LO_T n) (NM_WAKE_TS_HI_T n) s.now
  let s := s.modNm n (fun y => { y with leftAt := some s.now, wakeFlag := decide (cause = 1), leaving := false })
  if s.canState n = 8 then canGo n 1 s else s

/-- BUS_SLEEP is entered (R465): the queues are discarded, the controller leaves the bus. -/
def nmSleep (n : Nat) (s : State) : State :=
  let s := canDiscard n ((s.put (NM_STAT_STATE n) 1).flag (NM_FLAGS_SLEPT n) true)
  let s := s.modNm n (fun y => { y with leaving := false, wakeFlag := false, fwAt := none })
  let st := s.canState n
  if st = 1 ∨ st = 2 ∨ st = 3 ∨ st = 6 then canGo n 8 s else s

/-- The block of network `n` runs: everywhere but in SLEEP, DEEP and OFF (R491). -/
def State.nmRuns (s : State) : Bool := s.clocks

/-- `NM_CTL.EN` takes a value (R458, R461). -/
def nmEnable (n : Nat) (en : Bool) (s : State) : State :=
  let was := s.on (NM_CTL_EN n)
  let s := s.flag (NM_CTL_EN n) en
  if en ∧ was = false then nmSleep n s
  else if en = false ∧ was then
    let s := (s.put (NM_STAT_STATE n) 0).setNm n {}
    if s.canState n = 8 then canGo n 1 s else s
  else s

/-- `REQ` is 1 in the state of the network (R461, R467, R470). -/
def nmRequested (n : Nat) (s : State) : State :=
  let st := s.nmState n
  if st = 1 then nmNetwork n true (nmDepart n 1 s)
  else if st = 3 ∨ st = 4 then
    let same := (s.nm n).fwAt == some s.now
    let s := if same then (s.put (NM_WAKE_CAUSE n) 1).modNm n (fun y => { y with wakeFlag := true }) else s
    nmNetwork n false s
  else s

/-- A write of `REQ` (R461, R471). -/
def nmReq (n : Nat) (req : Bool) (s : State) : State :=
  let s := s.flag (NM_CTL_REQ n) req
  if req then
    let s := (s.put (NM_STAT_FW_CNT n) 0).flag (NM_STAT_FW_LOCK n) false
    nmRequested n s
  else nmRelease n s

/-- `NM_EN` (R461). -/
def execNmEn (n : Fin 13) (en : Bool) (t : Nat) (s : State) : Res :=
  let s := s.at t
  if s.nmRuns then
    let s := nmEnable n en s
    .next (if en && s.on (NM_CTL_REQ n) then nmRequested n s else s)
  else .next s

/-- `NM_REQ` (R461, R467, R471). -/
def execNmReq (n : Fin 13) (req : Bool) (t : Nat) (s : State) : Res :=
  let s := s.at t
  if s.nmRuns then .next (nmReq n req s) else .next s

/-- A received rally (R460, R461, R470). -/
def nmRally (n node : Nat) (s : State) : State :=
  if s.nmState n = 0 then s
  else
    let s := (s.put (NM_STAT_LAST_NODE n) node).wrap (NM_STAT_RALLY_RX n)
    let st := s.nmState n
    if st = 4 then nmNetwork n false s
    else if st = 3 then
      match (s.nm n).fwAt with
      | some a =>
        let from' := max s.now (a + ms (s.get (NM_FW_FW_TMO_MS n)))
        (s.put (NM_STAT_FW_CNT n) 0).modNm n (fun y => { y with fwAt := none, tmoAt := from' })
      | none => s.modNm n (fun y => { y with tmoAt := max y.tmoAt s.now })
    else s

/-- A frame is a rally (R460). -/
def State.isRally (s : State) (n : Nat) (f : BusFrame) : Bool :=
  let m := s.get (NM_RX_MASK_MASK n)
  f.ide == s.on (NM_RX_ID_IDE n) && f.id.toNat &&& m == s.get (NM_RX_ID_ID n) &&& m && decide (2 ≤ f.data.length)

/-- `RALLY_TIMER` (R462, R463). -/
def execRallyTimer (n : Fin 13) (t : Nat) (s : State) : Res :=
  let s := s.at t
  if s.nmRuns && s.nmState n == 2 && decide ((s.nm n).rallyAt + ms (orOne (s.get (NM_CTL_RALLY_MS n))) ≤ s.now) then
    .next (nmRelease n (sendRally n false (s.modNm n (fun y => { y with rallyAt := s.now }))))
  else .next s

/-- PREPARE_SLEEP is entered. -/
def nmPrepare (n : Nat) (s : State) : State :=
  (s.put (NM_STAT_STATE n) 4).modNm n (fun y => { y with prepAt := s.now, leaving := false, fwAt := none })

/-- `NETWORK_TIMER_EXPIRY` (R461). -/
def execNetworkTimerExpiry (n : Fin 13) (t : Nat) (s : State) : Res :=
  let s := s.at t
  let x := s.nm n
  if s.nmRuns && s.nmState n == 3 && x.fwAt.isNone && decide (x.tmoAt + ms (s.get (NM_TMR_TMO_MS n)) ≤ s.now) then
    .next (nmPrepare n s)
  else .next s

/-- `PREPARE_SLEEP_EXPIRY` (R465): bus-wake detection is armed; the controller leaves at the next bus idle. -/
def execPrepareSleepExpiry (n : Fin 13) (t : Nat) (s : State) : Res :=
  let s := s.at t
  if s.nmRuns && s.nmState n == 4 && decide ((s.nm n).prepAt + ms (s.get (NM_TMR_WAIT_MS n)) ≤ s.now) then
    .next (s.modNm n (fun y => { y with leaving := true }))
  else .next s

/-- `BUS_LEAVE` (R465). -/
def execBusLeave (n : Fin 13) (t : Nat) (s : State) : Res :=
  let s := s.at t
  if s.nmRuns && s.nmState n == 4 && (s.nm n).leaving && (s.can n).sending.isNone then .next (nmSleep n s) else .next s

/-- The transceiver of the controller can wake its network on this (R468, R491). -/
def State.wakesOn (s : State) (n : Nat) (k : WakeKind) : Bool :=
  let sel := decide (n ≤ 5) && s.on (NM_SW_ID_EN n)
  (match k with
   | .pattern => !sel
   | .frame => sel
   | .errors => sel && s.get (NM_SW_FRM_FEC n) == 32) &&
    (match s.power with
     | .deep => sel
     | .off => false
     | _ => true)

/-- A bus wake (R461, R468, R472): in the `PERIPH` cycle of a local request it only sets `BUS_WAKE`. -/
def busWake (n : Nat) (k : WakeKind) (s : State) : State :=
  if s.nmState n = 1 ∧ s.wakesOn n k ∧ s.on (NM_STAT_FW_LOCK n) = false then
    let s := s.flag (NM_FLAGS_BUS_WAKE n) true
    let s := nmDepart n (match k with | .pattern => 2 | .frame => 3 | .errors => 4) s
    (s.put (NM_STAT_STATE n) 3).modNm n (fun y => { y with fwAt := some s.now, level := s.asleep })
  else if (s.nm n).leftAt = some s.now ∧ s.get (NM_WAKE_CAUSE n) = 1 then s.flag (NM_FLAGS_BUS_WAKE n) true
  else s

/-- `BUS_WAKE` (R468). -/
def execBusWake (n : Fin 13) (k : WakeKind) (t : Nat) (s : State) : Res :=
  let s := s.at t
  if s.alive && s.power != .off then .next (busWake n k s) else .next s

/-- A frame matches as the wake-up frame (R469). -/
def State.isWuf (s : State) (n : Nat) (f : BusFrame) : Bool :=
  let m := s.get (NM_SW_MASK_MASK n)
  let dm := s.get (NM_SW_DATA0_M n) + 2 ^ 32 * s.get (NM_SW_DATA1_M n)
  let d := (f.data.take 8).foldr (fun b a => b.toNat + 256 * a) 0
  f.ide == s.on (NM_SW_ID_IDE n) && f.id.toNat &&& m == s.get (NM_SW_ID_ID n) &&& m &&
    (!s.on (NM_SW_FRM_DLC_CHK n) || f.dlc.toNat == s.get (NM_SW_FRM_DLC n)) && (dm == 0 || d &&& dm != 0)

/-- `WAKE_UP_FRAME` (R469): the selective-wake decoder has decoded a frame, or failed to. -/
def execWakeUpFrame (n : Fin 6) (t : Nat) (ok : Bool) (f : BusFrame) (s : State) : Res :=
  let s := s.at t
  if !s.alive || s.power == .off || !s.on (NM_SW_ID_EN n) || s.nmState n != 1 then .next s
  else if ok && f.fdf then .next s
  else
    let c := s.get (NM_SW_FRM_FEC n)
    if !ok then
      let s := s.put (NM_SW_FRM_FEC n) (min 32 (c + 1))
      .next (if c = 31 then busWake n .errors s else s)
    else
      let s := s.put (NM_SW_FRM_FEC n) (c - 1)
      .next (if s.isWuf n f then busWake n .frame s else s)

/-- `FALSE_WAKE` (R470, R471). -/
def execFalseWake (n : Fin 13) (t : Nat) (s : State) : Res :=
  let s := s.at t
  let due := (s.nm n).fwAt.any (fun a => decide (a + ms (s.get (NM_FW_FW_TMO_MS n)) ≤ s.now))
  if s.nmRuns && s.nmState n == 3 && due then
    let c := min 255 (s.get (NM_STAT_FW_CNT n) + 1)
    let lim := s.get (NM_FW_FW_LIM n)
    let s := nmPrepare n ((s.put (NM_STAT_FW_CNT n) c).flag (NM_FLAGS_FALSE_WAKE n) true)
    .next (if lim ≠ 0 ∧ lim ≤ c then (s.flag (NM_STAT_FW_LOCK n) true).flag (NM_FLAGS_FW_LOCKED n) true else s)
  else .next s

/-- A wake of the device from a source other than these networks clears their locks (R471). -/
def nmForeignWake (nets : List Nat) (s : State) : State :=
  overN 13 (fun n s => if nets.contains n then s else (s.put (NM_STAT_FW_CNT n) 0).flag (NM_STAT_FW_LOCK n) false) s

end Sys2Proof.Machine
end

