-- ==== Sys2Proof/Machine/Can.lean ====
section
/-!
DEFINITION. Sys2Proof/Machine/Can.lean: the commands of the CAN controllers (chapter 10).
-/
namespace Sys2Proof.Machine

/-! ### Timing and states (R421–R424) -/

/-- A value lies within bounds. -/
def within (lo hi v : Nat) : Bool := decide (lo ≤ v) && decide (v ≤ hi)

/-- The timing registers keep R421 and R422. -/
def State.timingOk (s : State) (n : Nat) : Bool :=
  let nb := s.get (CAN_NBT_NBRP n) + 1
  let n1 := s.get (CAN_NBT_NTSEG1 n) + 1
  let n2 := s.get (CAN_NBT_NTSEG2 n) + 1
  let db := s.get (CAN_DBT_DBRP n) + 1
  let d1 := s.get (CAN_DBT_DTSEG1 n) + 1
  let d2 := s.get (CAN_DBT_DTSEG2 n) + 1
  within 2 256 n1 && within 2 128 n2 && within 1 n2 (s.get (CAN_NBT_NSJW n) + 1) &&
    within 80 640 (nb * (1 + n1 + n2)) && decide (8 ≤ 1 + n1 + n2) &&
    within 1 16 d2 && within 1 d2 (s.get (CAN_DBT_DSJW n) + 1) &&
    within 10 80 (db * (1 + d1 + d2)) && decide (5 ≤ 1 + d1 + d2) &&
    (decide (80 ≤ db * (1 + d1 + d2)) || s.on (CAN_TDC_TDC_EN n))

/-- Clearing of `INIT` (R421): a controller in INIT checks its timing; one that fails stays in INIT, and `INIT` reads 1. -/
def canInitClear (n : Nat) (s : State) : State :=
  if s.canState n = 0 ∧ s.on (CAN_CTL_INIT n) then
    if s.timingOk n then canGo n 1 (s.flag (CAN_CTL_INIT n) false)
    else report (337 + 4 * n) (s.flag (CAN_FLAGS_CFG_ERR n) true)
  else s.flag (CAN_CTL_INIT n) false

/-- `INIT_CLEAR` (R421). -/
def execInitClear (n : Fin 13) (s : State) : Res := if s.canRuns n then .next (canInitClear n s) else .next s

/-- Setting of `INIT` (R423): at once from BUS_OFF and RECOVERING, else at the next bus idle. -/
def canInitSet (n : Nat) (s : State) : State :=
  let s := s.flag (CAN_CTL_INIT n) true
  if s.canState n = 4 ∨ s.canState n = 5 then canGo n 0 s else s

/-- `INIT_SET` (R423). -/
def execInitSet (n : Fin 13) (s : State) : Res := if s.canRuns n then .next (canInitSet n s) else .next s

/-- `ROM_SET` (R423, R427). -/
def execRomSet (n : Fin 13) (s : State) : Res :=
  if s.canRuns n then .next (s.flag (CAN_CTL_ROM n) true) else .next s

/-- Clearing of `ROM` (R423). -/
def canRomClear (n : Nat) (s : State) : State :=
  let s := s.flag (CAN_CTL_ROM n) false
  if s.canState n = 6 then canGo n 1 s else s

/-- `ROM_CLEAR` (R423). -/
def execRomClear (n : Fin 13) (s : State) : Res := if s.canRuns n then .next (canRomClear n s) else .next s

/-- `BUS_IDLE` (R423, R427, R628): a pending INIT or ROM entry completes; the clock branch follows a return to the PLL. -/
def execBusIdle (n : Fin 13) (t : Nat) (s : State) : Res :=
  let s := s.at t
  if !s.canRuns n then .next s
  else
    let s := s.modCan n (fun x => { x with onHfrc := false })
    let st := s.canState n
    if s.on (CAN_CTL_INIT n) && st != 0 && st != 7 then .next (canGo n 0 (cutTx n s))
    else if s.on (CAN_CTL_ROM n) && (st == 1 || st == 2 || st == 3) then .next (canGo n 6 (cutTx n s))
    else .next s

/-- `RECOVER` in BUS_OFF (R424). -/
def canRecover (n : Nat) (s : State) : State :=
  if s.canState n = 4 then (canGo n 5 s).put (CAN_STAT_RCNT n) 0 else s

/-- `RECOVER` (R424). -/
def execRecover (n : Fin 13) (s : State) : Res := if s.canRuns n then .next (canRecover n s) else .next s

/-- `INTEGRATION_COMPLETE` (R423): 11 recessive bits; they also end the wait of a protocol exception (R437). -/
def execIntegrationComplete (n : Fin 13) (t : Nat) (s : State) : Res :=
  let s := s.at t
  if !s.canRuns n then .next s
  else
    let s := s.modCan n (fun x => { x with pxWait := false })
    .next (if s.canState n = 1 then canJoin n s else s)

/-- `RECOVERY_COMPLETE` (R423, R424). -/
def execRecoveryComplete (n : Fin 13) (t : Nat) (s : State) : Res :=
  let s := s.at t
  if s.canRuns n && s.canState n == 5 then
    let s := ((s.put (CAN_STAT_RCNT n) 128).put (CAN_ECNT_TEC n) 0).put (CAN_ECNT_REC n) 0
    .next (canGo n 2 s)
  else .next s

/-! ### Errors (R423, R427) -/

/-- The queue the frame in transmission came from loses its frame. -/
def popTx (n : Nat) (s : State) : State :=
  s.modCan n (fun x => match x.sending with
    | some .reference => { x with refSlot := none, sending := none, aborted := false }
    | some .urgent => { x with urgent := none, sending := none, aborted := false }
    | some .keeper => { x with keeper := x.keeper.drop 1, sending := none, aborted := false }
    | some .fifo => { x with fifo := x.fifo.drop 1, sending := none, aborted := false }
    | none => x)

/-- The frame in transmission. -/
def Can.current (x : Can) : Option TxFrame :=
  match x.sending with
  | some .reference => x.refSlot
  | some .urgent => x.urgent
  | some .keeper => x.keeper.head?
  | some .fifo => x.fifo.head?
  | none => none

/-- The attempt failed (R443, R444): a flushed frame leaves as ABORTED, a one-shot frame as ONESHOT_FAIL, any other keeps its
place. -/
def txFail (n : Nat) (s : State) : State :=
  let x := s.can n
  match x.current with
  | none => s
  | some f =>
    let urg := x.sending == some .urgent
    if x.aborted then popTx n (txRecord n f 1 urg s)
    else if f.oneshot then popTx n (txRecord n f 2 urg s)
    else cutTx n s

/-- The error counters after an error that counts `k` (R423, by ISO 11898-1). -/
def countError (n : Nat) (tx : Bool) (k : Nat) (s : State) : State :=
  if tx then s.put (CAN_ECNT_TEC n) (min 256 (s.get (CAN_ECNT_TEC n) + k))
  else s.put (CAN_ECNT_REC n) (min 255 (s.get (CAN_ECNT_REC n) + k))

/-- A detected error: its code, the counters unless in ROM, and the state that follows from them. -/
def busError (n code : Nat) (tx dataPhase : Bool) (k : Nat) (s : State) : State :=
  let s := if dataPhase then s.put (CAN_STAT_DLEC n) code else s.put (CAN_STAT_LEC n) code
  if s.canState n = 6 then s
  else canLevel n (countError n tx k (if tx then txFail n s else s))

/-- What an error counts (ISO 11898-1): 8 for a transmitter; 1 or 8 for a receiver; 0 where the standard excepts it. -/
def errorStep (tx : Bool) (weight : Nat) : Nat := if weight = 0 then 0 else if tx || weight == 2 then 8 else 1

/-- The controller takes part in the traffic. -/
def State.onBus (s : State) (n : Nat) : Bool :=
  s.canRuns n && (s.canState n == 2 || s.canState n == 3 || s.canState n == 6)

/-- `BUS_ERROR` (R423). -/
def execBusError (n : Fin 13) (t : Nat) (tx : Bool) (code : Fin 7) (dataPhase : Bool) (weight : Fin 3) (s : State) : Res :=
  let s := s.at t
  if !s.onBus n || code == 0 || (tx && (s.can n).sending.isNone) then .next s
  else .next (busError n code tx dataPhase (errorStep tx weight) s)

/-- `TXD_DOMINANT_TIMEOUT` (R456). -/
def execTxdDominantTimeout (n : Fin 13) (t : Nat) (s : State) : Res :=
  let s := s.at t
  if s.canRuns n then .next (report (339 + 4 * n) s) else .next s

/-- `TRANSCEIVER_OVER_TEMPERATURE` (R456, R493). -/
def execTransceiverOverTemperature (l : Link) (t : Nat) (s : State) : Res :=
  let s := s.at t
  match l with
  | .can n => .next (report (339 + 4 * n) s)
  | .lin m => .next (report (388 + m) s)
  | .eth e => .next (report (394 + e) s)

/-! ### Transmission (R442–R448) -/

/-- The period P of the time service. -/
def State.refPer (s : State) (n : Nat) : Nat := us (clamp 1000 1000000 (s.get (CAN_REF_CTL_PER_US n)))

/-- The SOFs of the last 100 ms. -/
def recentSofs (x : Can) (now : Nat) : List Nat := x.sofs.filter (fun a => decide (now < a + ms 100))

/-- The Touchline holds the urgent slot and the FIFO (R447). -/
def State.rateHeld (s : State) (n : Nat) : Bool :=
  let l := recentSofs (s.can n) s.now
  let m := s.get (CAN_TL_RATE_MAX_100MS n)
  let g := s.get (CAN_TL_RATE_MIN_GAP_US n)
  (m != 0 && decide (m ≤ l.length)) ||
    (g != 0 && (s.can n).sofs.head?.any (fun a => decide (s.now < a + us g)))

/-- SAFE holds them (R448), or the network does (R464, R466). -/
def State.gateHeld (s : State) (n : Nat) : Bool :=
  (s.on (CAN_TL_CTL_SAFE_HOLD n) && s.ump.safeHeld) || s.nmState n == 1 || s.nmState n == 4

/-- The frame offered at an opportunity (R442), where the holds allow it. -/
def State.offer (s : State) (n : Nat) (hold : Bool) : Option TxFrom :=
  let x := s.can n
  let quiet := s.nmState n == 1 || s.nmState n == 4
  if x.refSlot.isSome && s.get (CAN_STAT_ROLE n) == 2 && !quiet then some .reference
  else if x.urgent.isSome && !hold then some .urgent
  else if !x.keeper.isEmpty && s.nmState n != 1 then some .keeper
  else if !x.fifo.isEmpty && !hold then some .fifo
  else none

/-- The first hold of an episode (R447). -/
def holdEpisode (n : Nat) (s : State) : State :=
  let x := s.can n
  if x.held then s
  else queueReport n ((s.setCan n { x with held := true }).flag (CAN_FLAGS_TL_HOLD n) true)

/-- The SOF of an attempt is stamped, and counted for the urgent slot and the FIFO. -/
def startTx (n : Nat) (o : TxFrom) (s : State) : State :=
  let x := s.can n
  let f (g : TxFrame) : TxFrame := { g with sof := s.now }
  let sofs := s.now :: recentSofs x s.now
  s.setCan n (match o with
    | .reference => { x with refSlot := x.refSlot.map f, sending := some o }
    | .keeper => { x with keeper := (x.keeper.take 1).map f ++ x.keeper.drop 1, sending := some o }
    | .urgent => { x with urgent := x.urgent.map f, sending := some o, sofs := sofs, held := false }
    | .fifo => { x with fifo := (x.fifo.take 1).map f ++ x.fifo.drop 1, sending := some o, sofs := sofs, held := false })

/-- `TRANSMIT_START` (R442, R447, R448): an opportunity to start a frame. -/
def execTransmitStart (n : Fin 13) (t : Nat) (s : State) : Res :=
  let s := s.at t
  let x := s.can n
  if !s.onBus n || s.pwr.mute || s.canState n == 6 || x.sending.isSome || x.pxWait then .next s
  else
    let rate := s.rateHeld n && (x.urgent.isSome || !x.fifo.isEmpty) && !s.gateHeld n
    let hold := s.rateHeld n || s.gateHeld n
    let s := if rate then holdEpisode n s else s
    match s.offer n hold with
    | some o => .next (startTx n o s)
    | none => .next s

/-- `FRAME_SENT` (R422, R423, R445, R450): the operand is the measured transmitter loop delay. -/
def execFrameSent (n : Fin 13) (t : Nat) (tdcv : BitVec 7) (s : State) : Res :=
  let s := s.at t
  let x := s.can n
  match x.current with
  | none => .next s
  | some f =>
    if !s.onBus n then .next s
    else
      let s := if f.fdf && f.brs && s.on (CAN_TDC_TDC_EN n) then s.put (CAN_TDC_TDCV n) tdcv.toNat else s
      let s := canLevel n (s.put (CAN_ECNT_TEC n) (s.get (CAN_ECNT_TEC n) - 1))
      let s := popTx n s
      if x.sending = some .reference then
        let s := s.modCan n (fun y => { y with refAt := s.now, refTold := false })
        .next (s.wrap (CAN_REF_STAT_CYCLE n))
      else .next (txRecord n f 0 (x.sending == some .urgent) s)

/-- `ARBITRATION_LOST` (R442, R443, R450): the operand says whether it was lost to a reference message. -/
def execArbitrationLost (n : Fin 13) (t : Nat) (toRef : Bool) (s : State) : Res :=
  let s := s.at t
  if !s.onBus n || (s.can n).sending.isNone then .next s
  else
    let s := txFail n s
    if toRef && s.get (CAN_STAT_ROLE n) == 2 then
      .next ((s.put (CAN_STAT_ROLE n) 1).modCan n (fun x => { x with refSlot := none }))
    else .next s

/-- `PUSH` (R439, R440): the staged frame is appended to the FIFO. -/
def execPush (n : Fin 13) (s : State) : Res :=
  if s.bit PRISM_GATE_CAN n then .next s else .next (canPush n (s.staged n) s)

/-- `URGENT` (R439, R441). -/
def execUrgent (n : Fin 13) (s : State) : Res :=
  if s.bit PRISM_GATE_CAN n then .next s else .next (canUrgent n (s.staged n) s)

/-- `FIFO_FLUSH` (R444). -/
def execFifoFlush (n : Fin 13) (s : State) : Res := if s.bit PRISM_GATE_CAN n then .next s else .next (canFlush n s)

/-- `URG_ABORT` (R444). -/
def execUrgAbort (n : Fin 13) (s : State) : Res := if s.bit PRISM_GATE_CAN n then .next s else .next (canUrgAbort n s)

/-- `MB_POST` (R432). -/
def execMbPost (n : Fin 13) (b : Fin 128) (s : State) : Res :=
  if s.bit PRISM_GATE_CAN n then .next s else .next (mbPost n b s)

/-- `RX_ACK` (R434). -/
def execRxAck (n : Fin 13) (b : Fin 128) (s : State) : Res :=
  if s.bit PRISM_GATE_CAN n then .next s else .next (rxAck n b s)

/-! ### Reception (R429–R437) -/

/-- PGN of a 29-bit identifier (R431). -/
def pgnOf (id : Nat) : Nat := if bits id 23 16 ≥ 240 then bits id 25 8 else bits id 25 16 * 256

/-- Filter `i` matches a frame (R430, R431). -/
def State.filterHit (s : State) (n i : Nat) (f : BusFrame) : Bool :=
  let id := f.id.toNat
  let code := s.get (CAN_FLT_W1_CODE n i)
  let mask := s.get (CAN_FLT_W2_MASK n i)
  f.ide == s.on (CAN_FLT_W0_IDE n i) &&
    (match s.get (CAN_FLT_W0_TYPE n i) with
     | 1 => id &&& mask == code &&& mask
     | 2 =>
       let pm := bits mask 25 8
       let da := s.get (CAN_FLT_W3_DA n i)
       f.ide && pgnOf id &&& pm == bits code 25 8 &&& pm &&
         bits id 7 0 &&& bits mask 7 0 == bits code 7 0 &&& bits mask 7 0 &&
         (!s.on (CAN_FLT_W3_DA_CHK n i) || decide (240 ≤ bits id 23 16) || bits id 15 8 == da || bits id 15 8 == 0xFF)
     | 3 => decide (code ≤ id) && decide (id ≤ mask)
     | _ => false)

/-- The first matching filter (R429). -/
def State.firstFilter (s : State) (n : Nat) (f : BusFrame) : Option Nat :=
  (List.range 64).find? (fun i => s.filterHit n i f)

/-- A frame is lost on the ring headed by `b` (R433). -/
def rxLost (n b : Nat) (s : State) : State :=
  let y := s.rxBuf n b
  let l := min 65535 (y.lost + 1)
  let s := mbWrite n b 13 l (s.setRxBuf n b { y with lost := l })
  queueReport n ((s.wrap (CAN_RX_CNT_LOST n)).flag (CAN_FLAGS_RX_LOST n) true)

/-- Writes a frame into buffer `b` (R435). -/
def rxStore (n b flt : Nat) (f : BusFrame) (s : State) : State :=
  let y := s.rxBuf n b
  let seq := (y.seq + 1) % 65536
  let x := s.can n
  let s := s.setCan n { x with stamps := x.stamps + 1 }
  let s := { s with pwr := { s.pwr with rx := s.pwr.rx || s.power == PState.idle } }
  let s := s.setRxBuf n b { y with seq := seq, stamp := x.stamps + 1 }
  let s := s.putBit (CAN_RX_NEW_NEW n (b / 32)) (b % 32) true
  let bt (v : Bool) (k : Nat) := if v then 2 ^ k else 0
  let d := s.rxdAddr n b
  let s := if inShared d then s.setBytes d (f.data.take 64 ++ List.replicate (64 - f.data.length) 0) else s
  let s := mbWrite n b 9 (bt f.ide 31 + bt f.fdf 30 + bt f.brs 29 + f.id.toNat) s
  let s := mbWrite n b 10 (bt f.esi 31 + bt f.rtr 30 + min 64 f.data.length * 256 + f.dlc.toNat) s
  let s := mbWrite n b 12 (f.sof / 2 ^ 32) (mbWrite n b 11 f.sof s)
  mbWrite n b 8 (2 ^ 31 + flt * 65536 + seq) s

/-- The buffers of the ring headed by `b`, from the one after the one written last (R433). -/
def State.ringOrder (s : State) (n b : Nat) : List Nat :=
  let len := (s.rxBuf n b).entry.ring + 1
  let first := match (s.rxBuf n b).last with
    | some k => k + 1
    | none => b
  (List.range len).map (fun i => b + (first + i - b) % len)

/-- The oldest unread frame of a list of buffers. -/
def State.oldestOf (s : State) (n : Nat) (l : List Nat) : Option Nat :=
  l.find? (fun k => l.all (fun j => decide ((s.rxBuf n k).stamp ≤ (s.rxBuf n j).stamp)))

/-- Routes a frame to buffer `b` (R433). -/
def rxRoute (n b flt : Nat) (f : BusFrame) (s : State) : State :=
  let e := (s.rxBuf n b).entry
  if !e.rxEn then rxLost n b s
  else
    let ring := s.ringOrder n b
    let put (k : Nat) (s : State) : State :=
      let s := rxStore n k flt f s
      s.setRxBuf n b { s.rxBuf n b with last := some k }
    match ring.find? (fun k => !s.rxNew n k) with
    | some k => put k s
    | none =>
      if e.rxOvw then
        match s.oldestOf n ring with
        | some k => put k (rxLost n b s)
        | none => s
      else rxLost n b s

/-- The acceptance filters (R429). -/
def rxFilter (n : Nat) (f : BusFrame) (s : State) : State :=
  match s.firstFilter n f with
  | none => s.wrap (CAN_RX_CNT_NOMATCH n)
  | some i => if s.on (CAN_FLT_W0_REJ n i) then s else rxRoute n (s.get (CAN_FLT_W0_BUF n i)) i f s

/-- A frame is a reference message of the time service (R449). -/
def State.isRef (s : State) (n : Nat) (f : BusFrame) : Bool :=
  s.on (CAN_REF_CTL_EN n) && f.ide == s.on (CAN_REF_ID_IDE n) && f.id.toNat / 8 == s.get (CAN_REF_ID_ID n) / 8

/-- A reference message (R449, R450, R451): stamped, its cycle count taken, passed to the frame sequencer; one of higher
priority makes a master a follower. -/
def rxReference (n : Nat) (f : BusFrame) (s : State) : State :=
  let x := s.can n
  let s := match x.lastRef with
    | some a => s.put (CAN_REF_INT_T n) (min (2 ^ 32 - 1) (f.sof - a))
    | none => s
  let s := s.put64 (CAN_REF_TS_LO_T n) (CAN_REF_TS_HI_T n) f.sof
  let s := s.put (CAN_REF_STAT_CYCLE n) ((f.data.getD 0 0).toNat % 64)
  let s := s.setCan n { x with lastRef := some f.sof, refAt := f.sof, refTold := false }
  let s := if n = 12 ∨ n ≠ s.get FRAME_LOCK_CAN then s else { s with tick := { s.tick with inbox := some (n, f.sof) } }
  if s.get (CAN_STAT_ROLE n) = 2 ∧ f.id.toNat < s.get (CAN_REF_ID_ID n) then
    (s.put (CAN_STAT_ROLE n) 1).modCan n (fun y => { y with refSlot := none })
  else s

/-- REC after a valid frame (R423, by ISO 11898-1): above 127 it takes a value from 119 to 127. -/
def rxGood (n : Nat) (s : State) : State :=
  let st := s.canState n
  let r := s.get (CAN_ECNT_REC n)
  if st ≠ 2 ∧ st ≠ 3 then s
  else if 127 < r then canLevel n ((s.put (CAN_ECNT_REC n) (119 + s.free 32 % 9)).draw)
  else canLevel n (s.put (CAN_ECNT_REC n) (r - 1))

/-- The keeper filter of `CAN12` takes the frame (R453). -/
def keeperTakes (n : Nat) (f : BusFrame) : Bool :=
  n == 12 && f.ide && decide (0x1F7E0000 ≤ f.id.toNat) && decide (f.id.toNat ≤ 0x1F7E007F)

/-- A valid frame: references, rallies, filters. -/
def rxFrame (n : Nat) (f : BusFrame) (s : State) : State :=
  let s := rxGood n s
  if keeperTakes n f then s
  else
    let s := if s.isRef n f then rxReference n f s else s
    let s := if s.isRally n f then nmRally n (f.data.getD 0 0).toNat s else s
    rxFilter n f s

/-- The controller receives (R425): it does not in INIT, FENCED and SLEEP, nor before it has integrated. -/
def State.canHears (s : State) (n : Nat) : Bool :=
  let st := s.canState n
  s.canRuns n && !s.pwr.mute && within 2 6 st && !(s.can n).pxWait

/-- `FRAME_RECEIVE` (R429, R437, R449, R453, R460). -/
def execFrameReceive (n : Fin 13) (t : Nat) (f : BusFrame) (s : State) : Res :=
  let s := s.at t
  if !s.canHears n then .next s
  else if f.fdf && !s.on (CAN_CTL_FD_EN n) then .next (busError n 2 false false 1 s)
  else if f.fdf && f.resBad then
    if s.on (CAN_CTL_PXD n) then .next (busError n 2 false false 1 s)
    else
      let s := s.modCan n (fun x => { x with pxWait := true })
      .next (report (337 + 4 * n) (s.flag (CAN_FLAGS_PXE n) true))
  else .next (rxFrame n f s)

/-! ### The time service (R449, R450) -/

/-- A write of `CAN_REF_CTL.EN`: the role is FOLLOWER when it is set, 0 when it is cleared. -/
def canRefEn (n : Nat) (en : Bool) (s : State) : State :=
  if en then
    if s.get (CAN_STAT_ROLE n) = 0 then
      (s.put (CAN_STAT_ROLE n) 1).modCan n (fun x => { x with refAt := s.now, refTold := false })
    else s
  else (s.put (CAN_STAT_ROLE n) 0).modCan n (fun x => { x with refSlot := none, lastRef := none })

/-- `REFERENCE_SLOT` (R450): a master places its message at each time-base multiple of P. -/
def execReferenceSlot (n : Fin 13) (t : Nat) (s : State) : Res :=
  let due := t % s.refPer n == 0
  let s := s.at t
  if s.canRuns n && s.get (CAN_STAT_ROLE n) == 2 && due then
    let f : TxFrame := { ide := s.on (CAN_REF_ID_IDE n), id := s.get (CAN_REF_ID_ID n), dlc := 1,
                         data := [BitVec.ofNat 32 (s.get (CAN_REF_STAT_CYCLE n))] }
    .next (s.modCan n (fun x => { x with refSlot := some f }))
  else .next s

/-- `REF_MISS` (R450): no reference for 1.5 P. -/
def execRefMiss (n : Fin 13) (t : Nat) (s : State) : Res :=
  let s := s.at t
  let x := s.can n
  if s.canRuns n && s.on (CAN_REF_CTL_EN n) && !x.refTold && decide (2 * x.refAt + 3 * s.refPer n ≤ 2 * s.now) then
    let s := (s.setCan n { x with refTold := true }).flag (CAN_FLAGS_REF_MISS n) true
    let s := if s.on (CAN_REF_CTL_PM n) then s.put (CAN_STAT_ROLE n) 2 else s
    .next (report (337 + 4 * n) s)
  else .next s

end Sys2Proof.Machine
end

