-- ==== Sys2Proof/Machine/Links.lean ====
section
/-!
DEFINITION. Sys2Proof/Machine/Links.lean: the LIN, Ethernet, SENT and UART links (R474–R493) and their commands.
-/
namespace Sys2Proof.Machine

def State.lin (s : State) (m : Nat) : Lin := tget {} s.lins m
def State.setLin (s : State) (m : Nat) (x : Lin) : State := { s with lins := tset {} s.lins m x }
def State.eth (s : State) (e : Nat) : Eth := tget {} s.eths e
def State.setEth (s : State) (e : Nat) (x : Eth) : State := { s with eths := tset {} s.eths e x }
def State.sent (s : State) (r : Nat) : Sent := tget {} s.sents r
def State.setSent (s : State) (r : Nat) (x : Sent) : State := { s with sents := tset {} s.sents r x }

/-- The links' clocks run (R491). -/
def State.linksRun (s : State) : Bool := s.clocks

/-- Adds an event to those of the last `w` units; `lim` of them report, and the count starts anew. -/
def countIn (w lim now : Nat) (l : List Nat) : List Nat × Bool :=
  let l := now :: l.filter (fun a => decide (now < a + w))
  if lim ≤ l.length then ([], true) else (l, false)

/-! ### LIN (R474–R478) -/

/-- The state of a LIN controller: 0 OFF, 1 OPERATE, 2 SLEEP, 3 FENCED. -/
def State.linState (s : State) (m : Nat) : Nat := s.get (LIN_STAT_STATE m)

/-- The controller starts, or restarts its schedule at slot 0 (R478). -/
def linStart (m : Nat) (s : State) : State :=
  (s.put (LIN_STAT_STATE m) 1).setLin m { base := 64 * s.get (LIN_SCHED_BASE m), actAt := s.now, errs := (s.lin m).errs }

/-- `LIN_CTL.EN` takes a value. -/
def linEnable (m : Nat) (en : Bool) (s : State) : State :=
  let was := s.on (LIN_CTL_EN m)
  let s := s.flag (LIN_CTL_EN m) en
  if s.linState m = 3 ∨ was = en then s
  else if en then linStart m s
  else (s.put (LIN_STAT_STATE m) 0).setLin m {}

/-- The bit rate, within 1,000 to 20,000 bit/s. -/
def State.linBaud (s : State) (m : Nat) : Nat := clamp 1000 20000 (s.get (LIN_CTL_BAUD m))

/-- A frame error (R493): counted, coded, 8 within 1 s report. -/
def linError (m code : Nat) (s : State) : State :=
  let s := (s.put (LIN_STAT_LEC m) code).wrap (LIN_STAT_ERR m)
  let x := s.lin m
  let r := countIn (sec 1) 8 s.now x.errs
  let s := s.setLin m { x with errs := r.1 }
  if r.2 then report (388 + m) s else s

/-- The schedule slot at index `k`: type, identifier, length in ms (R475). -/
def State.linSlot (s : State) (base k : Nat) : Nat × Nat × Nat :=
  let w := s.wordN (base + 4 * k)
  (bits w 31 30, bits w 21 16, bits w 15 0)

/-- Starts the slot at index `k`. -/
def linRunSlot (m base k : Nat) (s : State) : State :=
  let d := s.linSlot base k
  let x := s.lin m
  let id := if d.1 = 2 then 0x3C else d.2.1
  s.setLin m { x with base := base, slot := (k + 1) % 64, slotAt := s.now, slotLen := ms d.2.2, frame := some id,
                      sleepCmd := decide (d.1 = 2), actAt := s.now }

/-- `LIN_SLOT` (R475): a commander starts the next slot; END restarts the schedule at slot 0. -/
def execLinSlot (m : Fin 6) (t : Nat) (s : State) : Res :=
  let s := s.at t
  let x := s.lin m
  if !s.linksRun || s.linState m != 1 || !s.on (LIN_CTL_CMDR m) || decide (s.now < x.slotAt + x.slotLen) then .next s
  else
    let base := 64 * s.get (LIN_SCHED_BASE m)
    let s := if x.frame.isSome then report (388 + m) (s.flag (LIN_STAT_SLOT_OVR m) true) else s
    let k := if base = x.base then x.slot else 0
    let ty (j : Nat) : Nat := (s.linSlot base j).1
    if ty k = 1 ∨ ty k = 2 then .next (linRunSlot m base k s)
    else if ty 0 = 1 ∨ ty 0 = 2 then .next (linRunSlot m base 0 s)
    else .next (s.setLin m { s.lin m with base := base, slot := 0, frame := none })

/-- The address of a frame descriptor. -/
def State.linDesc (s : State) (m id : Nat) : Nat := 64 * s.get (LIN_BUF_BASE_BASE m) + 16 * id

/-- Direction of a descriptor: 1 publish, 2 subscribe, else ignore (R476). -/
def State.linDir (s : State) (m id : Nat) : Nat :=
  let w := s.wordN (s.linDesc m id)
  if within 1 8 (w % 16) then bits w 31 30 else 0

/-- The device writes data of a subscribed frame, and the result with the sequence number. -/
def linWrite (m id result : Nat) (data : List Byte) (s : State) : State :=
  let a := s.linDesc m id
  let dir := s.linDir m id
  if !inShared a || (dir != 1 && dir != 2) then s
  else
    let s := if dir = 2 ∧ result = 0 then s.setBytes (a + 4) (data.take 8) else s
    s.setWordN (a + 12) (result * 2 ^ 24 + (s.wordN (a + 12) + 1) % 65536)

/-- The go-to-sleep command (R475). -/
def goToSleep (id : Nat) (data : List Byte) : Bool := id == 0x3C && data == 0 :: List.replicate 7 0xFF

/-- `LIN_FRAME` (R476, R478): the frame in progress completes; operands: its result, the data on the bus. -/
def execLinFrame (m : Fin 6) (t : Nat) (result : Fin 8) (data : List Byte) (s : State) : Res :=
  let s := s.at t
  let x := s.lin m
  match x.frame with
  | none => .next s
  | some id =>
    if !s.linksRun || s.pwr.mute || s.linState m != 1 then .next s
    else
      let s := s.setLin m { x with frame := none, sleepCmd := false, actAt := s.now }
      let s := if x.sleepCmd then s else linWrite m id result data s
      let s := if result = 0 then s else linError m result s
      .next (if x.sleepCmd || (result == 0 && goToSleep id data) then s.put (LIN_STAT_STATE m) 2 else s)

/-- `LIN_BREAK` (R477): operands: dominant bits of the break, rate of the sync field in bit/s, the identifier and whether
its parity holds. -/
def execLinBreak (m : Fin 6) (t : Nat) (dominant rate : Nat) (id : BitVec 6) (parity : Bool) (s : State) : Res :=
  let s := s.at t
  if !s.linksRun || s.pwr.mute || s.linState m != 1 || s.on (LIN_CTL_CMDR m) || decide (dominant < 11) then .next s
  else
    let b := s.linBaud m
    let s := s.setLin m { s.lin m with actAt := s.now, frame := none, rate := rate }
    if !within (86 * b) (114 * b) (100 * rate) then .next (linError m 7 s)
    else if !parity then .next (linError m 3 s)
    else .next (s.setLin m { s.lin m with frame := some id.toNat })

/-- `LIN_INACTIVITY` (R478). -/
def execLinInactivity (m : Fin 6) (t : Nat) (s : State) : Res :=
  let s := s.at t
  if s.linksRun && s.linState m == 1 && decide ((s.lin m).actAt + sec 4 ≤ s.now) then
    .next ((s.put (LIN_STAT_STATE m) 2).setLin m { s.lin m with frame := none })
  else .next s

/-- A wake pulse is sent (R478). -/
def linWake (m : Nat) (s : State) : State :=
  if s.linState m = 2 then linStart m s
  else s.setLin m { s.lin m with actAt := s.now }

/-- `LIN_WAKE` (R478). -/
def execLinWake (m : Fin 6) (t : Nat) (s : State) : Res :=
  let s := s.at t
  if s.linksRun && (s.linState m == 1 || s.linState m == 2) then .next (linWake m s) else .next s

/-- `WAKE_RX` (R478): a dominant level of `dur` units on a sleeping bus. -/
def execWakeRx (m : Fin 6) (t dur : Nat) (s : State) : Res :=
  let s := s.at t
  if s.alive && s.linState m == 2 && decide (us 150 ≤ dur) && (s.linksRun || s.power == .sleep) then
    let s := s.flag (LIN_STAT_WAKE_RX m) true
    let s := if s.asleep then { s with pwr := { s.pwr with lin := setBit s.pwr.lin m } } else s
    .next (if s.linksRun then linStart m s else s)
  else .next s

/-- `LIN_DOMINANT_TIMEOUT` (R493). -/
def execLinDominantTimeout (m : Fin 6) (t : Nat) (s : State) : Res :=
  let s := s.at t
  if s.linksRun && s.on (LIN_CTL_EN m) then .next (report (388 + m) s) else .next s

/-! ### Ethernet (R479–R483) -/

/-- The port runs: enabled, not gated, not fenced, not on HFRC (R491, R625, R629). -/
def State.ethRuns (s : State) (e : Nat) : Bool :=
  s.linksRun && !s.pwr.mute && s.on (ETH_CTL_EN e) && !s.bit PRISM_GATE_ETH e && !s.fenced (0x068 + e) && s.get PRISM_STAT_SRC == 0

/-- `ETH_TX_PUSH` (R480): the device sends the descriptors it holds in ring order. -/
def execEthTxPush (e : Fin 2) (s : State) : Res :=
  if s.ethRuns e then .next (s.setEth e { s.eth e with sending := true }) else .next s

/-- Addresses of the next descriptors. -/
def State.ethTxDesc (s : State) (e : Nat) : Nat := 64 * s.get (ETH_TX_BASE_BASE e) + 16 * (s.eth e).tx
def State.ethRxDesc (s : State) (e : Nat) : Nat := 64 * s.get (ETH_RX_BASE_BASE e) + 16 * (s.eth e).rx

/-- `ETH_FRAME_SENT` (R480, R482): `ts` is the time base at the end of the SFD. -/
def execEthFrameSent (e : Fin 2) (t ts : Nat) (s : State) : Res :=
  let s := s.at t
  let a := s.ethTxDesc e
  let w1 := s.wordN (a + 4)
  if !s.ethRuns e || !(s.eth e).sending || !inShared a || !w1.testBit 31 then .next s
  else
    let s := s.setWords (a + 4) [BitVec.ofNat 32 (2 ^ 29 + w1 % 2048), BitVec.ofNat 32 ts, BitVec.ofNat 32 (ts / 2 ^ 32)]
    let s := s.setEth e { s.eth e with tx := ((s.eth e).tx + 1) % 64 }
    let more := (s.wordN (s.ethTxDesc e + 4)).testBit 31
    .next (s.setEth e { s.eth e with sending := more })

/-- The destination address, as its six bytes. -/
def ethDest (l : List Byte) : List Byte := l.take 6

/-- The frame is for this port (R482, R483). -/
def State.ethAccepts (s : State) (e : Nat) (l : List Byte) : Bool :=
  let d := ethDest l
  let n := d.foldr (fun b a => b.toNat + 256 * a) 0
  let mac := s.get (ETH_MAC_LO_B e) + 2 ^ 32 * s.get (ETH_MAC_HI_B e)
  let h := bits (Config.crc32 d).toNat 31 26
  let bc := d == List.replicate 6 0xFF
  let mc := (d.getD 0 0).getLsbD 0 && !bc
  let hash := if h < 32 then s.bit (ETH_HASH_LO_H e) h else s.bit (ETH_HASH_HI_H e) (h - 32)
  n == mac || (bc && s.on (ETH_CTL_BCAST e)) || (mc && hash) || s.on (ETH_CTL_PROMISC e) ||
    (s.on (ETH_CTL_PTP_EN e) && d == [0x01, 0x80, 0xC2, 0x00, 0x00, 0x0E])

/-- The frame is one the port supports (R479): its length with the FCS, and not a PAUSE frame. -/
def ethSupported (l : List Byte) : Bool :=
  let ty := (l.getD 12 0).toNat * 256 + (l.getD 13 0).toNat
  decide (14 ≤ l.length) && decide (l.length + 4 ≤ if ty = 0x8100 then 1522 else 1518) && ty != 0x8808

/-- A frame that finds no descriptor (R480, R493). -/
def ethDrop (e : Nat) (s : State) : State :=
  let s := s.wrap (ETH_STAT_RX_DROP e)
  let x := s.eth e
  let r := countIn (sec 1) 16 s.now x.drops
  let s := s.setEth e { x with drops := r.1 }
  if r.2 then report (394 + e) s else s

/-- Writes a frame to the next receive descriptor (R480, R482). -/
def ethStore (e ts : Nat) (l : List Byte) (s : State) : State :=
  let a := s.ethRxDesc e
  let w1 := s.wordN (a + 4)
  if !inShared a || !w1.testBit 31 then ethDrop e s
  else
    let n := s.get (ETH_CTL_RXBUF e)
    let buf := s.wordN a / 4 * 4
    let cut := decide (n < l.length)
    let s := if inShared buf then s.setBytes buf (l.take n) else s
    let w := (if cut then 2 ^ 30 else 0) + 2 ^ 29 + min n l.length % 2048
    let s := s.setWords (a + 4) [BitVec.ofNat 32 w, BitVec.ofNat 32 ts, BitVec.ofNat 32 (ts / 2 ^ 32)]
    s.setEth e { s.eth e with rx := ((s.eth e).rx + 1) % 64 }

/-- `ETH_FRAME_RECEIVE` (R480, R482, R483): operands: time base at the end of the SFD, the bytes without the FCS. -/
def execEthFrameReceive (e : Fin 2) (t ts : Nat) (bytes : List Byte) (s : State) : Res :=
  let s := s.at t
  if s.ethRuns e && s.on (ETH_STAT_LINK e) && ethSupported bytes && s.ethAccepts e bytes then
    .next (ethStore e ts bytes s)
  else .next s

/-- The link of a port is lost. -/
def ethDown (e : Nat) (s : State) : State :=
  (s.flag (ETH_STAT_LINK e) false).setEth e { s.eth e with sending := false }

/-- `ETH_LINK_LOST` (R493). -/
def execEthLinkLost (e : Fin 2) (t : Nat) (s : State) : Res :=
  let s := s.at t
  if s.on (ETH_STAT_LINK e) then
    let s := ethDown e s
    .next (if s.alive && s.power == .run then report (394 + e) s else s)
  else .next s

/-- `ETH_LINK_UP` (R496): operand: the signal quality. -/
def execEthLinkUp (e : Fin 2) (t : Nat) (sqi : BitVec 3) (s : State) : Res :=
  let s := s.at t
  if s.ethRuns e then .next ((s.flag (ETH_STAT_LINK e) true).put (ETH_STAT_SQI e) sqi.toNat) else .next s

/-! ### SENT (R484–R487) -/

/-- The receiver runs (R491). -/
def State.sentRuns (s : State) (r : Nat) : Bool := s.linksRun && s.on (SENT_CFG_EN r) && !s.fenced (0x070 + r)

/-- Number of data nibbles. -/
def State.fastN (s : State) (r : Nat) : Nat := clamp 1 6 (s.get (SENT_CFG_FAST_N r))

/-- The error of a frame, 0 for a valid one (R485): `cal` in 10 ns, `nibs` the status and data nibbles in measured ticks. -/
def State.sentCheck (s : State) (r cal : Nat) (nibs : List Nat) (crc : Bool) : Nat :=
  let t56 := 56 * clamp 300 9000 (s.get (SENT_CFG_TICK r))
  let diff (a b : Nat) : Nat := (a - b) + (b - a)
  if 5 * diff cal t56 > t56 then 1
  else if (s.sent r).cal.any (fun p => decide (64 * diff cal p > p)) then 2
  else if nibs.any (fun x => !within 12 27 x) then 3
  else if nibs.length ≠ s.fastN r + 1 then 5
  else if !crc then 4
  else 0

/-- A SENT error: counted and coded. -/
def sentError (r code : Nat) (s : State) : State := (s.put (SENT_STAT_LEC r) code).wrap (SENT_STAT_ERR r)

/-- Data nibbles of a frame placed from [23:20] downwards (R486). -/
def packNibbles (l : List Nat) : Nat := ((l ++ List.replicate (6 - l.length) 0).take 6).foldl (fun a x => a * 16 + x) 0

/-- The scheduler's yaw input takes a valid frame (R273, R265): data 1, data 2 or both. -/
def sentYaw (r ts nib : Nat) (s : State) : State :=
  if s.on PSCH_YAW_CFG_EN ∧ s.get PSCH_YAW_CFG_SENT = r then
    let code := match s.get PSCH_YAW_CFG_FIELD with
      | 1 => nib % 4096
      | 2 => nib
      | _ => nib / 4096
    { s with psch := { s.psch with yawIn := s.psch.yawIn ++ [(code, ts)] } }
  else s

/-- A serial message has been assembled (R487): format, identifier, data, and whether its CRC holds. -/
def sentSerial (r : Nat) (m : SentSerial) (s : State) : State :=
  if m.crc then
    let s := (s.put (SENT_SER_FMT r) m.fmt.val).put (SENT_SER_ID r) m.id.toNat
    (s.put (SENT_SER_DATA r) m.data.toNat).wrap (SENT_STAT_SER_SEQ r)
  else sentError r 6 s

/-- An invalid frame: 8 within 100 ms report (R493). -/
def sentBad (r code : Nat) (s : State) : State :=
  let s := sentError r code s
  let x := s.sent r
  let c := countIn (ms 100) 8 s.now x.bad
  let s := s.setSent r { x with bad := c.1 }
  if c.2 then report (396 + r) s else s

/-- `SENT_FRAME` (R485–R487): `edge` is the time base of the falling edge that ends the calibration pulse. -/
def execSentFrame (r : Fin 10) (t edge cal : Nat) (nibs : List Nat) (crc : Bool) (ser : Option SentSerial) (s : State) : Res :=
  let s := s.at t
  if !s.sentRuns r then .next s
  else
    let code := s.sentCheck r cal nibs crc
    let s := s.setSent r { s.sent r with cal := if code = 1 then none else some cal }
    if code ≠ 0 then .next (sentBad r code s)
    else
      let nib := packNibbles ((nibs.drop 1).map (fun x => x - 12))
      let s := (s.put (SENT_FAST_ST r) (nibs.getD 0 12 - 12)).put (SENT_FAST_NIB r) nib
      let s := ((s.put (SENT_FAST_TS_T r) edge).wrap (SENT_STAT_SEQ r)).setSent r { s.sent r with heardAt := s.now }
      let s := sentYaw r edge nib s
      match ser with
      | some m => .next (if s.on (SENT_CFG_SER_EN r) then sentSerial r m s else s)
      | none => .next s

/-- `SENT_SILENCE` (R493). -/
def execSentSilence (r : Fin 10) (t : Nat) (s : State) : Res :=
  let s := s.at t
  if s.sentRuns r && decide ((s.sent r).heardAt + ms 100 ≤ s.now) then
    .next (report (396 + r) (s.setSent r { s.sent r with heardAt := s.now }))
  else .next s

/-! ### UARTs (R488–R490) -/

/-- The UART runs (R491). -/
def State.uartRuns (s : State) (u : Nat) : Bool := s.linksRun && s.on (UART_CTL_EN u) && !s.fenced (0x07C + u)

/-- The transmit FIFO as it stands at the present instant. -/
def State.uartNow (s : State) (u : Nat) : Uart := if s.uartRuns u then s.uartSent u else { s.uart u with txAt := s.now }

/-- A UART error flag is set and its source reports. -/
def uartOvf (u : Nat) (f : Fld) (s : State) : State := report (406 + u) (s.flag f true)

/-- Parity and framing errors of a byte: 8 within 1 s report (R493). -/
def uartErrors (u : Nat) (pe fe : Bool) (s : State) : State :=
  if !pe && !fe then s
  else
    let s := if pe then s.flag (UART_FLAGS_PE u) true else s
    let s := if fe then s.flag (UART_FLAGS_FE u) true else s
    let x := s.uart u
    let r := countIn (sec 1) 8 s.now x.errs
    let s := s.setUart u { x with errs := r.1 }
    if r.2 then report (406 + u) s else s

/-- `UART_RX_BYTE` (R489): `t` is the end of the last stop bit. -/
def execUartRxByte (u : Fin 4) (t : Nat) (b : Byte) (pe fe : Bool) (s : State) : Res :=
  let s := s.at t
  if !s.uartRuns u then .next s
  else
    let p := s.get (UART_CTL_PAR u)
    let pe := pe && (p == 1 || p == 2)
    let b := if s.on (UART_CTL_DATA7 u) then b &&& 0x7F else b
    let s := uartErrors u pe fe s
    let x : Uart := { s.uart u with stopAt := some s.now }
    if 512 ≤ x.rx.length then .next (uartOvf u (UART_FLAGS_RX_OVF u) (s.setUart u x))
    else .next (s.setUart u { x with rx := x.rx ++ [⟨b, pe, fe⟩] })

/-- The word a read of `UART_RXD` gives. -/
def State.uartRxd (s : State) (u : Nat) : Nat :=
  match (s.uart u).rx with
  | [] => 0
  | r :: _ => 2 ^ 31 + (if r.pe then 2 ^ 30 else 0) + (if r.fe then 2 ^ 29 else 0) + r.b.toNat

/-- A read of `UART_RXD` consumes one byte (R489). -/
def uartTake (u : Nat) (s : State) : State := s.setUart u { s.uart u with rx := (s.uart u).rx.drop 1 }

/-- `UART_RXD` (R489). -/
def execUartRxd (u : Fin 4) (s : State) : Res := .next (uartTake u s)

/-- A write of `UART_TXD` (R489): bytes beyond the room of the FIFO are discarded. -/
def uartSend (u n : Nat) (b : Nat) (s : State) : State :=
  let x := s.uartNow u
  let l : List Byte := ((List.range n).map (fun i => BitVec.ofNat 8 (b / 256 ^ i)))
  let room := 256 - x.tx.length
  let s := s.setUart u { x with tx := x.tx ++ l.take room }
  if room < n then uartOvf u (UART_FLAGS_TX_OVF u) s else s

/-- `UART_TXD` (R489). -/
def execUartTxd (u : Fin 4) (n : Fin 4) (b : BitVec 24) (t : Nat) (s : State) : Res :=
  .next (uartSend u n b.toNat (s.at t))

/-- `UART_IDLE` (R490). -/
def execUartIdle (u : Fin 4) (t : Nat) (s : State) : Res :=
  let s := s.at t
  match (s.uart u).stopAt with
  | some a =>
    if s.uartRuns u && decide (a + s.uartTime u (orOne (s.get (UART_CTL_IDLE_BITS u))) ≤ s.now) then
      let s := (s.put64 (UART_IDLE_TS_LO_T u) (UART_IDLE_TS_HI_T u) a).wrap (UART_EVT_IDLE_SEQ u)
      .next (s.setUart u { s.uart u with stopAt := none })
    else .next s
  | none => .next s

/-- `UART_PPS` (R490): a rising edge of the named capture input. -/
def execUartPps (u : Fin 4) (t : Nat) (s : State) : Res :=
  let s := s.at t
  if s.uartRuns u && s.on (UART_CTL_PPS_EN u) && decide (s.get (UART_CTL_PPS u) ≤ 11) then
    .next ((s.put64 (UART_PPS_TS_LO_T u) (UART_PPS_TS_HI_T u) t).wrap (UART_EVT_PPS_SEQ u))
  else .next s

end Sys2Proof.Machine
end

