-- ==== Sys2Proof/Machine/Access.lean ====
section
/-!
DEFINITION. Sys2Proof/Machine/Access.lean: cab access and the immobiliser (chapter 12): triggers, exchanges, zones, lockout,
`IMMO_OK`; and their commands.
-/
namespace Sys2Proof.Machine

/-! ### Lockout and failure count (R514, R515): what the keeper holds in MRAM -/

/-- The lockout that is running ends at this instant. -/
def State.locked (s : State) : Bool := s.acc.lockEnd.any (fun a => decide (s.now < a))

/-- The remaining lockout time in units. -/
def State.lockLeft (s : State) : Nat := (s.acc.lockEnd.getD 0) - s.now

/-- Duration of the `n`-th lockout of an escalation (R514). -/
def lockTime (n : Nat) : Nat := if n ≤ 1 then sec 180 else if n = 2 then sec 600 else sec 1800

/-- A failed exchange counts once (R506, R514): the fifth starts a lockout. -/
def countFailure (s : State) : State :=
  let k := s.accKept
  let s := report 415 s
  if k.fail + 1 < 5 then { s with accKept := { k with fail := k.fail + 1 } }
  else
    let n := k.esc + 1
    let d := lockTime n
    let s := { s with accKept := { k with fail := 0, esc := min 3 n, remain := d },
                      acc := { s.acc with lockEnd := some (s.now + d) } }
    report 416 s

/-! ### Zones (R505, R507) -/

/-- The RSSI code of aerial `LFi` in a reply. -/
def rssi (codes i : Nat) : Nat := codes / 256 ^ i % 256

/-- Zone strength: the highest code over the aerials of the zone. -/
def State.strength (s : State) (z codes : Nat) : Nat :=
  (List.range 6).foldl (fun a i => if s.bit (ACC_ZONE_AER z) i then max a (rssi codes i) else a) 0

/-- The token lies in zone `z`. -/
def State.inZone (s : State) (z codes : Nat) : Bool :=
  let x := s.get (ACC_ZONE_XAER z)
  decide (s.get (ACC_ZONE_MIN z) ≤ s.strength z codes) &&
    (!s.on (ACC_ZONE_XEN z) || decide (6 ≤ x) || decide (rssi codes x ≤ s.get (ACC_ZONE_XMAX z)))

/-- The strongest of the tokens in the zone, equal strengths to the lower index. -/
def State.strongest (s : State) (z : Nat) (l : List (Nat × Nat)) : Option (Nat × Nat) :=
  let ins := l.filter (fun p => s.inZone z p.2)
  ins.find? (fun p => ins.all (fun q =>
    decide (s.strength z q.2 < s.strength z p.2) || (s.strength z q.2 == s.strength z p.2 && decide (p.1 ≤ q.1))))

/-! ### Exchanges (R500–R504) -/

def State.pad (s : State) (e : Nat) : Pad := tget {} s.acc.pads e
def State.setPad (s : State) (e : Nat) (p : Pad) : State := { s with acc := { s.acc with pads := tset {} s.acc.pads e p } }
def State.setExch (s : State) (x : Option Exchange) : State := { s with acc := { s.acc with exch := x } }

/-- ACC runs: enabled, not fenced. -/
def State.accOn (s : State) : Bool := s.alive && s.on ACC_CTL_EN && !s.fenced 0x048

/-- Starts an exchange: 0.3 ms for the challenge, 32.768 ms of telegram, six bursts, 1 ms of gap (R499–R502). -/
def startExchange (zone : Nat) (touch : Option Nat) (s : State) : State :=
  let x : Exchange := { zone := zone, touch := touch, startAt := s.now, chal := s.free 64,
                        window := s.now + us 300 + us 32768 + ms 7 }
  s.draw.setExch (some x)

/-- A request becomes pending, replacing one that is (R511). -/
def pendRequest (zone : Nat) (s : State) : State := { s with acc := { s.acc with pend := some zone } }

/-- A request that meets a lockout gets result LOCKED (R511). -/
def lockedRequest (zone : Nat) (s : State) : State :=
  let s := ((s.put ACC_RES_RESULT 6).put ACC_RES_ZONE zone).put ACC_RES_INDEX 0
  (s.put ACC_RES_ZONES 0).put ACC_RES_STRENGTH 0

/-- A request is served: LOCKED in a lockout, pending during an exchange, outside RUN and without LF drive, else it starts. -/
def serveRequest (zone : Nat) (s : State) : State :=
  if s.locked then lockedRequest zone s
  else if s.acc.exch.isSome || s.pwr.lfOff || s.power != .run then pendRequest zone s
  else startExchange zone none s

/-- Starts the pending request, if one may start. -/
def startPending (s : State) : State :=
  match s.acc.pend with
  | some z => if s.acc.exch.isNone && !s.pwr.lfOff && s.accOn then
      serveRequest z { s with acc := { s.acc with pend := none } } else s
  | none => s

/-- Configuration of electrode `e`: zone and whether it is enabled (R509). -/
def State.capZone (s : State) (e : Nat) : Nat := s.get ACC_CAP_CFG_CFG / 256 ^ e / 32 % 4
def State.capOn (s : State) (e : Nat) : Bool := (s.get ACC_CAP_CFG_CFG).testBit (8 * e + 7)
def State.capTh (s : State) (e : Nat) : Nat := orOne (s.get ACC_CAP_CFG_CFG / 256 ^ e % 32)

/-- A confirmed touch in RUN or IDLE (R510, R511). -/
def touchTrigger (e : Nat) (s : State) : State :=
  let z := s.capZone e
  if s.locked then s
  else if s.pwr.lfOff then pendRequest z s
  else match s.acc.exch with
    | none => startExchange z (some e) s
    | some x =>
      if x.touch.isNone && x.startAt == s.now then startExchange z (some e) (pendRequest x.zone s) else s

/-- `TOUCH` (R509–R511): the operand holds the four samples of the confirmation burst above the baseline, in 0.1 pF. -/
def execTouch (e : Fin 4) (t : Nat) (over' : List Nat) (s : State) : Res :=
  let s := s.at t
  let hits := (over'.take 4).countP (fun x => decide (s.capTh e < x))
  if !s.accOn || !s.capOn e || s.power == .off || s.bit ACC_CAP_STAT_SUSP e then .next s
  else if hits < 3 then .next (s.putBit ACC_CAP_STAT_TOUCH e false)
  else
    let s := s.putBit ACC_CAP_STAT_TOUCH e true
    let s := if s.asleep then { s with pwr := { s.pwr with touch := some e } } else s
    if s.power == .run || s.power == .idle then .next (touchTrigger e s)
    else .next { s with acc := { s.acc with waitTouch := some e } }

/-- `GO` (R510, R511). -/
def execGo (zone : Fin 4) (t : Nat) (s : State) : Res :=
  let s := s.at t
  if s.accOn then .next (serveRequest zone s) else .next s

/-! ### The end of an exchange (R505, R506, R511–R513) -/

/-- The outcome of an exchange that authenticates no token: OUT_OF_ZONE, WRONG, COLLISION or NO_TOKEN. -/
def Exchange.outcome (x : Exchange) : Nat :=
  if x.valid ≠ 0 then 2 else if x.wrong ≠ 0 then 4 else if x.coll ≠ 0 then 5 else 3

/-- Writes `ACC_RES`. -/
def putResult (result index zones zone strength : Nat) (s : State) : State :=
  let s := ((s.put ACC_RES_RESULT result).put ACC_RES_INDEX index).put ACC_RES_ZONES zones
  ((s.put ACC_RES_ZONE zone).put ACC_RES_STRENGTH strength).wrap ACC_RES_SEQ

/-- Writes the log record of an exchange. -/
def accLog (x : Exchange) (result index : Nat) (s : State) : State :=
  let seq := (s.get ACC_LOG_SEQ_SEQ + 1) % 2 ^ 32
  let s := s.put ACC_LOG_SEQ_SEQ seq
  let w2 := result * 2 ^ 28 + index * 2 ^ 25 + (if x.touch.isSome then 2 ^ 24 else 0) + x.zone * 2 ^ 22 +
    x.rounds * 2 ^ 19 + x.valid
  let rec4 := [BitVec.ofNat 32 seq, BitVec.ofNat 32 s.now, BitVec.ofNat 32 w2, BitVec.ofNat 32 (x.wrong * 256 + x.coll)]
  { s with acc := { s.acc with log := tset [] s.acc.log ((seq - 1) % 32) rec4 } }

/-- Writes `ACC_SLOTk`. -/
def accSlot (x : Exchange) (k : Nat) (s : State) : State :=
  let cls := if x.valid.testBit k then 1 else if x.wrong.testBit k then 2 else if x.coll.testBit k then 3 else 0
  let c := tget 0 x.codes k
  let s := (s.put (ACC_SLOT_W0_CLASS k) cls).flag (ACC_SLOT_W0_RECHAL k) (x.settled.testBit k)
  (s.put (ACC_SLOT_W0_RSSI k) (c / 2 ^ 32)).put (ACC_SLOT_W1_RSSI k) c

/-- An authentication (R506, R512–R514, R517): counts cleared, the immobiliser released where the zone says so. -/
def authenticate (zone : Nat) (s : State) : State :=
  let s := { s with accKept := { s.accKept with fail := 0, esc := 0 }, acc := { s.acc with authAt := some s.now, pads := [] } }
  let s := s.put ACC_CAP_STAT_SUSP 0
  if s.on (ACC_ZONE_IMMO zone) && s.pwr.ign && !s.immoOk then gatesChanged { s with immoOk := true } else s

/-- Silent touch-triggered exchanges (R512). -/
def touchSilent (e : Nat) (silent : Bool) (s : State) : State :=
  let p := s.pad e
  if !silent then s.setPad e { p with silent := 0 }
  else if p.silent + 1 < orOne (s.get ACC_FT_FT_LIM) then s.setPad e { p with silent := p.silent + 1 }
  else
    let d := min (sec 3600) (sec (10 * s.get ACC_FT_FT_SUSP) * 2 ^ p.doubled)
    let s := s.setPad e { silent := 0, doubled := p.doubled + 1, suspEnd := some (s.now + d) }
    report 414 (s.putBit ACC_CAP_STAT_SUSP e true)

/-- The exchange ends with its slots decided; `timeout` when the keeper was late (R503). -/
def finishExchange (x : Exchange) (timeout : Bool) (s : State) : State :=
  let s := s.setExch none
  let s := overN 8 (accSlot x) s
  let best := if timeout then none else s.strongest x.zone x.found
  let s := match best with
    | some p =>
      let zs := (List.range 4).foldl (fun a z => if s.inZone z p.2 then setBit a z else a) 0
      authenticate x.zone (accLog x 1 p.1 (putResult 1 p.1 zs x.zone (s.strength x.zone p.2) s))
    | none =>
      let r := if timeout then 7 else x.outcome
      let s := accLog x r 0 (putResult r 0 0 x.zone 0 s)
      let s := if timeout then report 420 s else s
      if x.wrong ≠ 0 then countFailure s else s
  let silent := x.valid = 0 ∧ x.wrong = 0 ∧ x.coll = 0
  let s := match x.touch with
    | some e => if best.isSome then s else touchSilent e (decide silent && !timeout) s
    | none => s
  startPending s

/-- The lowest slot that collided and may still be re-challenged. -/
def Exchange.nextColl (x : Exchange) : Option Nat :=
  (List.range 8).find? (fun k => x.coll.testBit k && !x.stuck.testBit k)

/-- Starts a RECHAL round for a slot and bit (R504): 0.3 ms, 32.768 ms, 1 ms of gap. -/
def startRechal (x : Exchange) (k b : Nat) (s : State) : State :=
  let x := { x with rechal := some (k, b), rounds := x.rounds + 1, next := 0, subColl := false, chal := s.free 64,
                    window := s.now + us 300 + us 32768 + ms 1 }
  s.draw.setExch (some x)

/-- What follows once a window is over (R504): another round, or the end when no reply waits for its verdict. -/
def nextRound (x : Exchange) (s : State) : State :=
  match x.nextColl with
  | some k =>
    if x.rounds < 4 then startRechal x k 0 s
    else if x.wait.isEmpty then finishExchange x false (report 417 s) else s.setExch (some { x with rechal := none, next := 8 })
  | none => if x.wait.isEmpty then finishExchange x false s else s.setExch (some { x with rechal := none, next := 8 })

/-- The end of a RECHAL round: a sub-slot that collided leads to the next bit (R504). -/
def endRechal (x : Exchange) (k b : Nat) (s : State) : State :=
  if x.subColl then
    if x.rounds < 4 ∧ b < 3 then startRechal x k (b + 1) s
    else nextRound { x with stuck := setBit x.stuck k, rechal := none } s
  else nextRound { x with coll := clrBit x.coll k, settled := setBit x.settled k, rechal := none } s

/-- Takes what one slot held: a collision, or a reply that passed its CRC. -/
def Exchange.take (x : Exchange) (k : Nat) (c : SlotClass) (now : Nat) : Exchange :=
  match c with
  | .silent => x
  | .collision => if x.rechal.isSome then { x with subColl := true } else { x with coll := setBit x.coll k }
  | .reply tok codes mac =>
    { x with wait := x.wait ++ [{ slot := k, token := tok.toNat, codes := codes.toNat, mac := mac, at_ := now, sub := x.rechal.isSome }],
             codes := tset 0 x.codes k codes.toNat }

/-- `REPLY_SLOT_END` (R502–R504): the next slot of the open window ends. -/
def execReplySlotEnd (t : Nat) (c : SlotClass) (s : State) : Res :=
  let s := s.at t
  match s.acc.exch with
  | none => .next s
  | some x =>
    let n := if x.rechal.isSome then 2 else 8
    if !s.accOn || decide (n ≤ x.next) || decide (s.now < x.window + ms (11 * x.next + 10)) then .next s
    else
      let k := match x.rechal with
        | some r => r.1
        | none => x.next
      let x := { x.take k c s.now with next := x.next + 1 }
      if x.next < n then .next (s.setExch (some x))
      else match x.rechal with
        | some r => .next (endRechal x r.1 r.2 s)
        | none => .next (nextRound x s)

/-- The verdict on a reply (R503): the index is enrolled, the token ID matches and the response matches. -/
def State.verdict (s : State) (r : Reply) : Bool :=
  (tget none s.accKept.tokens r.slot).any (fun k => k.id == r.token) && r.mac

/-- Applies the verdict on the first waiting reply. -/
def Exchange.judge (x : Exchange) (r : Reply) (valid : Bool) : Exchange :=
  if valid then { x with valid := setBit x.valid r.slot, found := x.found ++ [(r.slot, r.codes)], wait := x.wait.drop 1 }
  else { x with wrong := setBit x.wrong r.slot, wait := x.wait.drop 1 }

/-- `KEEPER_VERDICT` (R503, R505, R506, R514): the verdict on the oldest waiting reply; the last one ends the exchange. -/
def execKeeperVerdict (t : Nat) (s : State) : Res :=
  let s := s.at t
  match s.acc.exch with
  | none => .next s
  | some x =>
    match x.wait with
    | [] => .next s
    | r :: _ =>
      if !s.accOn then .next s
      else
        let x := x.judge r (s.verdict r)
        let over' := x.rechal.isNone && decide (8 ≤ x.next)
        if over' && x.wait.isEmpty then
          .next (finishExchange x false (if x.coll ≠ 0 then report 417 s else s))
        else .next (s.setExch (some x))

/-- `KEEPER_TMO` (R503): a verdict later than 2 ms. -/
def execKeeperTmo (t : Nat) (s : State) : Res :=
  let s := s.at t
  match s.acc.exch with
  | none => .next s
  | some x =>
    if s.accOn && x.wait.head?.any (fun r => decide (r.at_ + ms 2 < s.now)) then .next (finishExchange x true s) else .next s

/-! ### Timers and the immobiliser (R513–R517) -/

/-- `LOCKOUT_END` (R513). -/
def execLockoutEnd (t : Nat) (s : State) : Res :=
  let s := s.at t
  if s.acc.lockEnd.any (fun a => decide (a ≤ s.now)) then
    .next { s with acc := { s.acc with lockEnd := none }, accKept := { s.accKept with remain := 0 } }
  else .next s

/-- `LOCKOUT_SAVE` (R515): the keeper writes the remaining time. -/
def execLockoutSave (t : Nat) (s : State) : Res :=
  let s := s.at t
  if s.alive && s.locked then .next { s with accKept := { s.accKept with remain := s.lockLeft } } else .next s

/-- `AUTH_HOLD_EXPIRY` (R513). -/
def execAuthHoldExpiry (t : Nat) (s : State) : Res :=
  let s := s.at t
  if s.acc.authAt.any (fun a => decide (a + ms (s.get ACC_TIMING_AUTH_HOLD_MS) ≤ s.now)) then
    .next { s with acc := { s.acc with authAt := none } }
  else .next s

/-- `IMMO_HOLD_EXPIRY` (R517): `IGN_OK` has been low without a break for `IMMO_HOLD_MS`. -/
def execImmoHoldExpiry (t : Nat) (s : State) : Res :=
  let s := s.at t
  if s.immoOk && s.pwr.ignLow.any (fun a => decide (a + ms (s.get ACC_TIMING_IMMO_HOLD_MS) ≤ s.now)) then
    .next (immoReport (immoFall s))
  else .next s

/-- `REVOKE` (R517). -/
def execRevoke (s : State) : Res := .next (immoReport (immoFall s))

/-- `TOUCH_SUSPEND_END` (R512). -/
def execTouchSuspendEnd (e : Fin 4) (t : Nat) (s : State) : Res :=
  let s := s.at t
  let p := s.pad e
  if p.suspEnd.any (fun a => decide (a ≤ s.now)) then
    .next ((s.setPad e { p with suspEnd := none }).putBit ACC_CAP_STAT_SUSP e false)
  else .next s

/-- `ACC_EN` (R523). -/
def execAccEn (s : State) : Res := if s.alive then .next (s.flag ACC_CTL_EN true) else .next s

/-- The state as `ACC_STAT.STATE` codes it (R513). -/
def State.accState (s : State) : Nat :=
  if s.immoOk then 3 else if s.locked then 4 else if s.acc.exch.isSome then 1 else if s.acc.authAt.isSome then 2 else 0

/-! ### Faults of ACC (R522) -/

/-- `ACC_HEALTH` (R522): the operand is the die's temperature in °C. -/
def execAccHealth (c : Int) (t : Nat) (s : State) : Res :=
  let s := s.at t
  if s.alive && decide (150 ≤ c) then .next (report 411 s) else .next s

/-- `ACC_LINK` (R522). -/
def execAccLink (t : Nat) (s : State) : Res := .next (report 410 (s.at t))

/-- `LF_DRV` (R522): the operands are the aerial, whether it is open or shorted, and its peak current in mA. -/
def execLfDrv (i : Fin 6) (bad : Bool) (mA : Nat) (t : Nat) (s : State) : Res :=
  let s := s.at t
  if s.accOn && s.bit ACC_CTL_LF_EN i && (bad || decide (1500 < mA)) then .next (report 412 s) else .next s

/-- `UHF_SYNTHESISER_UNLOCK` (R522). -/
def execUhfSynthesiserUnlock (t : Nat) (s : State) : Res :=
  let s := s.at t
  if s.accOn then .next (report 413 s) else .next s

/-- `ELECTRODE_SHORT` (R522): the guard is named by 4. -/
def execElectrodeShort (e : Fin 5) (t : Nat) (s : State) : Res :=
  let s := s.at t
  if !s.accOn then .next s
  else .next (report 414 (if e = 4 then s.put ACC_CAP_STAT_SHORT 15 else s.putBit ACC_CAP_STAT_SHORT e true))

/-- `LF_DRIVE_SUPPLY` (R650): `VBAT_L` falls below 8.0 V, or has stayed above it for 10 ms and pending exchanges start. -/
def execLfDriveSupply (ok : Bool) (t : Nat) (s : State) : Res :=
  let s := s.at t
  let s := { s with pwr := { s.pwr with lfOff := !ok } }
  if ok && s.power == .run then .next (startPending s) else .next s

end Sys2Proof.Machine
end

