-- ==== Sys2Proof/Machine/Channel.lean ====
section
/-!
DEFINITION. Sys2Proof/Machine/Channel.lean: the channel table and the protected switches (chapter 04): posts and adoption, cuts and
retries, the inrush window, droop, undervoltage, diagnostics, Touchline holds, die modes; and their commands.
-/
namespace Sys2Proof.Machine

/-! ### Faults of a channel (R207) -/

/-- Word 15 of an entry. -/
def fltWord (c : Chan) : Nat := c.fltCnt * 2 ^ 24 + c.flt

/-- The Umpire source of a channel: 96 + i of a switch channel, 304 + n of a field output (R230, R417). -/
def chanSource (i : Nat) : Nat := if i < 136 then 96 + i else 304 + (i - 136)

/-- An event that sets `FLT` bit `b` (R207): counted; reported once a frame for each bit that `CHT_RPT_MASK` names. -/
def fltEvent (i b : Nat) (s : State) : State :=
  let c := s.chan i
  let s := s.setChan i { c with flt := setBit c.flt b, fltCnt := min 255 (c.fltCnt + 1) }
  if s.bit CHT_RPT_MASK_MASK b && !c.rptd.testBit b then
    let s := s.modChan i (fun c => { c with rptd := setBit c.rptd b })
    let s := if i < 136 then s.putBit (CHT_FLT_SUM_CH (i / 32)) (i % 32) true else s
    reportFull (chanSource i) 0 (fltWord (s.chan i)) false s
  else s

/-- Settles a channel, and the other member of its bridge (R182). -/
def settlePair (i : Nat) (s : State) : State :=
  if i < 8 then settle (evenOf i + 1) (settle (evenOf i) s) else settle i s

/-- The retry rule of a cut (R193): a retry wait, or LATCHED with `RETRY_EXH`. -/
def retryRule (i : Nat) (s : State) : State :=
  let c := s.chan i
  let m := s.retryMax i
  if c.retryCnt < m ∨ m = 255 then
    s.setChan i { c with retryCnt := min 254 (c.retryCnt + 1), retryEnd := some (s.now + s.retryWait i) }
  else
    fltEvent i 3 (s.setChan i { c with latched := true, latchedUnarmed := !s.armed i })

/-- A cut by R184 or R186: the fault bit, the count of cuts, the retry rule; the output turns off and a bridge coasts. -/
def cutChan (i b : Nat) (s : State) : State :=
  let s := fltEvent i b s
  let s := s.modChan i (fun c => { c with cuts := min 65535 (c.cuts + 1) })
  settlePair i (turnOff i (retryRule i s))

/-- The active current limit (R185). -/
def State.activeLimit (s : State) (i : Nat) : Nat := if (s.chan i).inrush.isSome then s.inrOf i else s.ilimOf i

/-- `SHORT` (R184): the current of a channel that is on reaches `I_FAST`. -/
def execShort (i : Fin 152) (t : Nat) (s : State) : Res :=
  let s := s.at t
  if (s.chan i).out then .next (cutChan i 0 s) else .next s

/-- `OVERCUR` (R186): three consecutive samples above the active limit; lost after a `SENSE` fault (R208). -/
def execOvercur (i : Fin 152) (t : Nat) (a b c : Nat) (s : State) : Res :=
  let s := s.at t
  let lim := s.activeLimit i
  if (s.chan i).out && !(s.chan i).senseBad && lim < a && lim < b && lim < c then .next (cutChan i 1 s) else .next s

/-- The time an inrush window has run at t, without the drooped time, which counts up to 500 ms (R190, R191). -/
def Inrush.elapsed (w : Inrush) (t : Nat) : Nat :=
  let droop := w.ext + (match w.droopFrom with | some f => t - f | none => 0)
  (t - w.start) - min droop (ms 500)

/-- `INRUSH_WINDOW_END` (R188, R191). -/
def execInrushWindowEnd (i : Fin 152) (t : Nat) (s : State) : Res :=
  let s := s.at t
  let c := s.chan i
  match c.inrush with
  | some w => if ms (s.inrushMs i) ≤ w.elapsed s.now then .next (s.setChan i { c with inrush := none }) else .next s
  | none => .next s

/-- The channels of a supply group (R177). -/
def grpChans (g : Nat) : List Nat := (List.range 136).filter (fun i => grpOf i == g)

/-- `GROUP_DROOP` (R189, R190): the clocks of open inrush windows stop. -/
def execGroupDroop (g : Fin 8) (t : Nat) (s : State) : Res :=
  let s := s.at t
  let x := s.grp g
  if x.drooped then .next s
  else
    let s := (s.setGrp g { x with drooped := true }).wrap (CHT_GRP_STAT_DROOP_CNT g)
    .next (forEach (grpChans g) (fun i s => s.modChan i (fun c => { c with
      sawDroop := true, inrush := c.inrush.map (fun w => { w with droopFrom := some s.now }) })) s)

/-- `DROOP_RELEASE` (R189). -/
def execDroopRelease (g : Fin 8) (t : Nat) (s : State) : Res :=
  let s := s.at t
  let x := s.grp g
  if x.drooped then
    let s := s.setGrp g { x with drooped := false }
    let f (now : Nat) (w : Inrush) : Inrush :=
      { w with ext := w.ext + (match w.droopFrom with | some a => now - a | none => 0), droopFrom := none }
    .next (forEach (grpChans g) (fun i s => s.modChan i (fun c => { c with inrush := c.inrush.map (f s.now) })) s)
  else .next s

/-- The thermal latch closes on a channel (R192, R196): a retry wait freezes. -/
def thermalLatch (i : Nat) (s : State) : State :=
  let s := fltEvent i 2 s
  let c := s.chan i
  let s := s.setChan i { c with thermal := true, retryLeft := c.retryEnd.map (fun e => e - s.now), retryEnd := none }
  settlePair i s

/-- The thermal latch releases (R192, R196): the frozen wait resumes. -/
def thermalFree (i : Nat) (s : State) : State :=
  let c := s.chan i
  settlePair i (s.setChan i { c with
    thermal := false, arm := true, retryEnd := c.retryLeft.map (fun r => s.now + r), retryLeft := none })

/-- `THERMAL` (R192): `T_J` at or above 170 °C. -/
def execThermal (i : Fin 152) (t : Nat) (tj : Int) (s : State) : Res :=
  let s := (s.at t).modChan i (fun c => { c with tjNow := tj, tjPeak := max c.tjPeak tj })
  if 170 * 16 ≤ tj ∧ (s.chan i).thermal = false ∧ s.uvOf i = false then .next (thermalLatch i s) else .next s

/-- `THERMAL_RELEASE` (R192): with `TL_AUTO` 1, `T_J` below 150 °C. -/
def execThermalRelease (i : Fin 152) (t : Nat) (tj : Int) (s : State) : Res :=
  let s := (s.at t).modChan i (fun c => { c with tjNow := tj })
  if tj < 150 * 16 ∧ (s.chan i).thermal ∧ s.tlAuto i then .next (thermalFree i s) else .next s

/-- `RETRY_WAIT_END` (R194): the channel turns on at the next latch if it is still commanded on. -/
def execRetryWaitEnd (i : Fin 152) (t : Nat) (s : State) : Res :=
  let s := s.at t
  let c := s.chan i
  match c.retryEnd with
  | some e => if e ≤ s.now then .next (settlePair i (s.setChan i { c with retryEnd := none, arm := true })) else .next s
  | none => .next s

/-- `RETRY_CNT_RESET` (R195): 1 s of continuous commanded operation without a cut. -/
def execRetryCntReset (i : Fin 152) (t : Nat) (s : State) : Res :=
  let s := s.at t
  let c := s.chan i
  match c.since with
  | some a => if a + sec 1 ≤ s.now then .next (s.setChan i { c with retryCnt := 0 }) else .next s
  | none => .next s

/-- `REVERSAL_BRAKE_END` (R181). -/
def execReversalBrakeEnd (b : Fin 4) (t : Nat) (s : State) : Res :=
  let s := s.at t
  let c := s.chan (2 * b)
  match c.revEnd with
  | some e => if e ≤ s.now then .next (s.setChan (2 * b) { c with revEnd := none }) else .next s
  | none => .next s

/-- A group falls below 3.0 V (R201): its channels take UV_HOLD and `SUPPLY_UV`. Source 19 reports while `VBAT_L` is above
6.0 V (R673). -/
def execUvHold (g : Fin 8) (t : Nat) (s : State) : Res :=
  let s := s.at t
  let x := s.grp g
  if x.uv then .next s
  else
    let s := s.setGrp g { x with uv := true }
    let s := forEach (grpChans g) (fun i s => settle i (fltEvent i 11 s)) s
    .next (if s.get PWR_SUPPLY_VBAT_L > 600 then report 19 s else s)

/-- `UV_RELEASE` (R202): above 3.3 V; a new inrush window opens for each channel that turns on. -/
def execUvRelease (g : Fin 8) (t : Nat) (s : State) : Res :=
  let s := s.at t
  let x := s.grp g
  if x.uv then
    let s := s.setGrp g { x with uv := false }
    .next (forEach (grpChans g) (fun i s => settle i (s.modChan i (fun c => { c with arm := true }))) s)
  else .next s

/-! ### Diagnostics (R204–R210) -/

/-- Open-load, stuck-off and off-state diagnostics are suspended (R190, R201). -/
def State.diagOff (s : State) (i : Nat) : Bool :=
  if i < 136 then
    let g := s.grp (grpOf i)
    g.drooped || g.uv || g.low || g.high
  else (s.grp 8).uv

/-- `OPEN_ON` (R204). -/
def execOpenOn (i : Fin 152) (t : Nat) (mA : Nat) (s : State) : Res :=
  let s := s.at t
  let c := s.chan i
  if (s.chState i).driving && c.inrush.isNone && c.entry.ond && !c.senseBad && !s.diagOff i && mA < s.olTh i then
    .next (fltEvent i 4 s) else .next s

/-- `STUCK_OFF` (R204). -/
def execStuckOff (i : Fin 152) (t : Nat) (mA : Nat) (s : State) : Res :=
  let s := s.at t
  let c := s.chan i
  if c.out && c.inrush.isNone && c.entry.stuckd && !c.senseBad && !s.diagOff i && mA < s.olTh i then
    .next (fltEvent i 8 s) else .next s

/-- `STUCK_ON` (R204): off, demagnetisation ended. -/
def execStuckOn (i : Fin 152) (t : Nat) (mA : Nat) (s : State) : Res :=
  let s := s.at t
  let c := s.chan i
  if !c.out && c.demagAt.isSome && c.entry.stuckd && !c.senseBad && s.olTh i < mA then
    .next (fltEvent i 7 s) else .next s

/-- The bridge drives: even member BR_FWD or BR_REV, odd member PARTNER, not braking for a reversal or a stall. -/
def State.bridgeDrives (s : State) (b : Nat) : Bool :=
  let c := s.chan (2 * b)
  (c.entry.mode == 4 || c.entry.mode == 5) && s.chState (2 * b) == .bridge && !c.stalled && c.revEnd.isNone

/-- `BRIDGE_STALL` (R204): no ripple for `STALL` × 100 µs puts the bridge in BR_BRAKE until an adoption changes `MODE`. -/
def execBridgeStall (b : Fin 4) (t : Nat) (s : State) : Res :=
  let s := s.at t
  let c := s.chan (2 * b)
  let st := s.get (CHT_BR_CTL_STALL b)
  let ref := max (c.rippleAt.getD 0) (c.since.getD s.now)
  if s.bridgeDrives b && st != 0 && c.inrush.isNone && decide (ref + us (100 * st) ≤ s.now) then
    .next (fltEvent (2 * b) 10 (s.setChan (2 * b) { c with stalled := true }))
  else .next s

/-- The clamp rating is exceeded: a single plateau or the trailing second (R200, R398). -/
def clampOver (i : Nat) (c : Chan) (e now : Nat) : Bool :=
  decide ((clsOf i).limits.clampE < e) || decide ((clsOf i).limits.clampP < clampSum c now)

/-- Passes a signature to the scheduler (R210). -/
def passSignature (ch : Nat) (opening : Bool) (raw : Option Nat) (s : State) : State :=
  { s with psch := { s.psch with sigs := s.psch.sigs ++ [(ch, opening, raw)] } }

/-- The closing signature of a channel whose clamp plateau has ended (R210), stamped to 10 µs. -/
def closingSignature (i : Nat) (s : State) : State :=
  let c := s.chan i
  match c.sigOff with
  | some a =>
    let u := (s.now - a) / 2000 * 10
    passSignature i false (some (16 * u)) (s.setChan i { c with sigOff := none, latOff := u })
  | none => s

/-- `DEMAG_END` (R205, R200): off windows run from here; a clamp adds its energy and may set `CLAMP_E`. -/
def execDemagEnd (i : Fin 152) (t : Nat) (plateau : Option Nat) (s : State) : Res :=
  let s := s.at t
  let c := s.chan i
  if c.out || c.demagAt.isSome then .next s
  else match plateau with
    | none => .next (s.setChan i { c with demagAt := some s.now })
    | some e =>
      let c := { c with demagAt := some s.now, clamps := (s.now, e) :: c.clamps.filter (fun x => s.now < x.1 + sec 1) }
      let s := closingSignature i (s.setChan i c)
      let clampMode := !c.adopted || c.entry.demag == 1
      .next (if clampMode && clampOver i c e s.now then fltEvent i 9 s else s)

/-- Two consecutive windows have met a criterion. -/
def twice (i b n : Nat) (s : State) : State := if n = 2 then fltEvent i b s else s

/-- `OFF_WINDOW` (R205, R204): one off window; two consecutive ones set `OPEN_OFF` or `SHORT_BAT`. -/
def execOffWindow (i : Fin 152) (t : Nat) (down up : Bool) (s : State) : Res :=
  let s := s.at t
  let c := s.chan i
  match c.demagAt with
  | some a =>
    if c.out || !c.entry.offd || s.diagOff i || s.now < a + us 200 then .next s
    else
      let o := if up then c.offHits + 1 else 0
      let b := if down then c.batHits + 1 else 0
      .next (twice i 6 b (twice i 5 o (s.setChan i { c with offHits := o, batHits := b })))
  | none => .next s

/-- `RIPPLE` (R209): counts up in BR_FWD and down in BR_REV; in brake and coast in the last direction for 50 ms. -/
def execRipple (b : Fin 4) (t : Nat) (s : State) : Res :=
  let s := s.at t
  let c := s.chan (2 * b)
  let fresh := match c.rippleAt with | some a => decide (s.now - a < ms 50) | none => false
  let drives := s.bridgeDrives b
  if drives || fresh then
    let rev := if drives then c.entry.mode == 5 else c.rippleRev
    .next (s.setChan (2 * b) { c with
      ripplePos := c.ripplePos + (if rev then -1 else 1), rippleRev := rev, rippleAt := some s.now,
      ripplePer := match c.rippleAt with | some a => (s.now - a) / 200 | none => c.ripplePer })
  else .next s

/-- `PULL_IN_DIP` (R210): the opening signature, stamped to 10 µs. -/
def execPullInDip (i : Fin 136) (t : Nat) (s : State) : Res :=
  let s := s.at t
  let c := s.chan i
  match c.sigOn with
  | some a =>
    let u := (s.now - a) / 2000 * 10
    .next (passSignature i true (some (16 * u)) (s.setChan i { c with sigOn := none, latOn := u }))
  | none => .next s

/-- `SIGNATURE_TIMEOUT` (R210): not found within 65,534 µs, reported as 0xFFFF. -/
def execSignatureTimeout (i : Fin 136) (opening : Bool) (t : Nat) (s : State) : Res :=
  let s := s.at t
  let c := s.chan i
  match if opening then c.sigOn else c.sigOff with
  | some a =>
    if s.now < a + us 65534 then .next s
    else .next (passSignature i opening none (s.setChan i (if opening
      then { c with sigOn := none, latOn := 0xFFFF } else { c with sigOff := none, latOff := 0xFFFF })))
  | none => .next s

/-! ### Touchline holds (R211–R213) -/

/-- A Touchline hold begins: `TL_LIM`, `TL_ACT`, output off (R213). -/
def takeHold (i : Nat) (h : Hold) (s : State) : State :=
  let s := s.modChan i (fun c => { c with hold := some h, holdFrom := s.now, tlLim := true })
  settlePair i (fltEvent i 12 s)

/-- `TL_HOLD` (R211): `TL_ON_MAX` of continuous operation, or trailing energy above `TL_E_MAX`. -/
def execTlHold (i : Fin 152) (t : Nat) (energy : Nat) (s : State) : Res :=
  let s := s.at t
  let c := s.chan i
  let tl := s.tlOf i
  let long := match c.since with | some a => tl.onMax != 0 && decide (a + ms tl.onMax ≤ s.now) | none => false
  if c.hold.isSome || !s.armed i then .next s
  else if long then .next (takeHold i .onTime s)
  else if tl.eMax ≠ 0 ∧ tl.eMax < energy then .next (takeHold i .energy s)
  else .next s

/-- `TL_HOLD_END` (R211): after `TL_OFF_MIN`, or below 7/8 of the energy cap; a new window opens. -/
def execTlHoldEnd (i : Fin 152) (t : Nat) (energy : Nat) (s : State) : Res :=
  let s := s.at t
  let c := s.chan i
  let tl := s.tlOf i
  let done := match c.hold with
    | some .onTime => decide (c.holdFrom + ms tl.offMin ≤ s.now)
    | some .energy => decide (8 * energy < 7 * tl.eMax)
    | none => false
  if done then .next (settlePair i (s.setChan i { c with hold := none, arm := true })) else .next s

/-- The partner of an interlocked channel: a place of its own die, or any field output (R566, R401). -/
def State.pairOf (s : State) (i : Nat) : Option Nat :=
  let p := (s.tlOf i).pair
  if i < 136 then (if p < 34 then some (segChan (dieOf i) p) else none)
  else if p < 16 then some (136 + p) else none

/-- The partner has been off for `TL_PAIR_GAP`, in 10 µs (R212, R566). -/
def State.pairClear (s : State) (i : Nat) : Bool :=
  match s.pairOf i with
  | some p =>
    let c := s.chan p
    !c.out && (match c.offAt with | some a => decide (a + us (10 * (s.tlOf i).pairGap) ≤ s.now) | none => true)
  | none => true

/-- `PAIR_GAP_END` (R212): a withheld member turns on at the next latch. -/
def execPairGapEnd (i : Fin 152) (t : Nat) (s : State) : Res :=
  let s := s.at t
  let c := s.chan i
  if c.withheld && s.pairClear i then .next (settle i (s.setChan i { c with withheld := false })) else .next s

/-! ### Limp inputs and gate lines -/

/-- `LIMP_INPUT_CHANGE` (R252): die `k` accepts a level; the channels that follow the input switch. `PCHN_LIMP_IN` shows
the levels as SD0 filters them. -/
def execLimpInputChange (k : Fin 4) (n : Fin 8) (lvl : Bool) (t : Nat) (s : State) : Res :=
  let s := s.at t
  let s := s.modDie k (fun d => { d with limp := putBit d.limp n lvl })
  let s := if k.val = 0 then s.putBit PCHN_LIMP_IN_LVL n lvl else s
  .next (settleAll (dieChans k) s)

/-- `LIMP_DIFF` (R260): two dies disagree on a filtered level for 1 ms. -/
def execLimpDiff (n : Fin 8) (t : Nat) (s : State) : Res :=
  let s := s.at t
  let l := (List.range 4).map (fun k => s.limpLevel k n)
  if l.contains true && l.contains false then .next (report 243 s) else .next s

/-- Drives a gate line from its source, and the dies act on it (R25–R28). -/
def setGate (g : Gate) (b : Bool) (s : State) : State :=
  match g with
  | .ign => gatesChanged { s with ignOk := b }
  | .immo => gatesChanged { s with immoOk := b }
  | .apply => setApply b s
  | .safe => setSafeHeld (!b) s

/-- The level of a gate line that its source drives now: a line may fall at any time by a broken wire, and rises only to
the level its source drives. -/
def State.gateLevel (s : State) : Gate → Bool
  | .ign => s.ignOk
  | .immo => s.immoOk
  | .apply => s.applyOk
  | .safe => !s.ump.safeHeld

/-- `GATE_LINE_FALL` (R26): the receiving dies see the line low, at a fall by its source or at an open line (R24). -/
def execGateLineFall (g : Gate) (t : Nat) (s : State) : Res := .next (setGate g false (s.at t))

/-- `GATE_LINE_RISE` (R27): the line is high at the receiving dies; each unblocked channel follows its command from the
next latch. -/
def execGateLineRise (g : Gate) (t : Nat) (s : State) : Res := .next (setGate g true (s.at t))

/-! ### Die modes (R219–R223) -/

/-- The rated report of die `k`: `DIE_LINK` 232 + 2k, `DIE_HEALTH` 233 + 2k (R230). -/
def dieLink (k : Nat) : Nat := 232 + 2 * k
def dieHealthSrc (k : Nat) : Nat := 233 + 2 * k

/-- `WD_US` as the die uses it (R218). -/
def State.wdTime (s : State) (k : Nat) : Nat := us (clamp 50 64000 (s.die k).wdUs)

/-- `SERIAL_WATCHDOG_EXPIRY` (R217): no restart for `WD_US` on the die's own oscillator, within ±10 %. The die enters
BACKSTOP, sets `WD_TRIP` and reports. -/
def execSerialWatchdogExpiry (k : Fin 4) (t : Nat) (s : State) : Res :=
  let s := s.at t
  let armed := s.dieMode k == 1 || s.dieMode k == 3
  if armed && decide (10 * ((s.die k).wdAt + s.wdTime k) ≤ 10 * s.now + s.wdTime k) then
    let s := dieBackstop k .watchdog s
    .next (report (dieLink k) (s.flag (CHT_DIE_STAT_WD_TRIP k) true))
  else .next s

/-- A switch die returns in BOOT, with its channels in the hard-wired default Backstop (R203, R40). -/
def dieBoot (k : Nat) (s : State) : State :=
  let d := s.die k
  let s := s.put (CHT_DIE_STAT_MODE k) 0
  let s := s.setDie k { limp := d.limp, routes := [], wdAt := s.now }
  forEach (dieChans k) (fun i s =>
    let c := s.chan i
    settle i ({ s.setChan i { c with
      shadow := c.shadow, adopted := false, fresh := false, bstop := 0, held := 0, latched := false, retryEnd := none,
      retryLeft := none, retryCnt := 0, hold := none, withheld := false, thermal := false, inrush := none } with
      tl := tset {} s.tl i {} })) s

/-- `DIE_LOGIC_RESET` (R203). -/
def execDieLogicReset (k : Fin 4) (t : Nat) (s : State) : Res := .next (dieBoot k (s.at t))

/-- `DIE_HEALTH` (R230). -/
def execDieHealth (k : Fin 4) (t : Nat) (cond : DieCond) (s : State) : Res :=
  let s := s.at t
  match cond with
  | .hot c =>
    let s := s.put (CHT_DIE_STAT_T_DIE k) (unsigned 8 c)
    if 160 ≤ c then .next (report (dieHealthSrc k) s) else .next s
  | .current mA => if 24000 < mA then .next (report (dieHealthSrc k) s) else .next s
  | .over mV => if 38000 < mV then .next (report (dieHealthSrc k) s) else .next s
  | .selfCheck => .next (report (dieHealthSrc k) s)
  | .senseRef => .next (report (dieHealthSrc k) s)

/-- Die `k` becomes ARMED by an arming (R219, R221, R733): each channel keeps its Backstop state, with the protection of
R733, until an entry is adopted; a latch that arose while unarmed clears. -/
def dieArm (k : Nat) (s : State) : State :=
  let s := s.put (CHT_DIE_STAT_MODE k) 1
  let routes := (dieChans k).map (fun i => (i, s.get (PCHN_LIMP_SEL_SEL (i / 8)) / 16 ^ (i % 8) % 16))
  let wd := s.get (CHT_DIE_WD_WD_US k)
  let s := s.modDie k (fun d => { d with
    cause := .none, wdUs := wd, wdAt := s.now, loads := [], loaded := false,
    routes := routes.foldl (fun m e => tset 0 m e.1 e.2) d.routes })
  forEach (dieChans k) (fun i s =>
    let c := s.chan i
    settle i (s.setChan i { c with
      adopted := false, fresh := false, bstop := (s.tlOf i).bstopInit,
      latched := c.latched && !c.latchedUnarmed, latchedUnarmed := false,
      retryCnt := if c.latchedUnarmed then 0 else c.retryCnt })) s

/-- Die `k` returns to ARMED by RESUME or after SLEEP (R221): each channel leaves its Backstop state for its cached entry,
whose values the die now receives (R173). -/
def dieResume (k : Nat) (s : State) : State :=
  let s := s.put (CHT_DIE_STAT_MODE k) 1
  let s := s.modDie k (fun d => { d with cause := .none, resumeReq := false, autoResume := false, wdAt := s.now })
  forEach (dieChans k) (fun i s =>
    let c := s.chan i
    settle i (s.setChan i { c with
      adopted := c.adopted || c.cached, fresh := true, arm := true,
      bstop := if c.cached then c.entry.bstop else c.bstop })) s

/-- `BSTOP` (R219): a committed `CHT_DIE_CTLk.BSTOP` acts at the next T0. -/
def execBstop (k : Fin 4) (s : State) : Res := .next (s.modDie k (fun d => { d with bstopReq := true }))

/-- The conditions of a RESUME (R219, R220, R535). -/
def State.resumeOk (s : State) (k : Nat) : Bool :=
  s.dieMode k == 2 && !s.fenced (0x010 + k) && decide (64 ≤ (s.die k).valid) && !s.limpOn

/-- `RESUME` (R220): ignored while its conditions are not met; else it acts at the next T0. -/
def execResume (k : Fin 4) (s : State) : Res :=
  if s.resumeOk k then .next (s.modDie k (fun d => { d with resumeReq := true })) else .next s

/-! ### Clears -/

/-- An index above 423 (R169). -/
def idxErr (i : Nat) : Bool := decide (423 < i)

/-- `CHT_CLR.THERM` (R192): ignored while `T_J` is at or above 150 °C. -/
def clrTherm (i : Nat) (s : State) : State :=
  let c := s.chan i
  if c.thermal && decide (c.tjNow < 150 * 16) then thermalFree i s else s

/-- `CHT_CLR.LATCH` (R195, R225): leaves LATCHED and clears `RETRY_CNT`. -/
def clrLatch (i : Nat) (s : State) : State :=
  let c := s.chan i
  settlePair i (s.setChan i { c with latched := false, latchedUnarmed := false, retryCnt := 0 })

/-- `CHT_CLR.FLT` (R207): clears `FLT` [14:0] and `CNT`. -/
def clrFlt (i : Nat) (s : State) : State := s.modChan i (fun c => { c with flt := 0, fltCnt := 0 })

/-- A clear of the channel table's `CHT_CLR`, refused for an index above 423 (R169). -/
def chtClr (i : Nat) (f : Nat → State → State) (s : State) : State :=
  if idxErr i then s.flag CHT_POST_STAT_IDX_ERR true else f i s

/-- `THERM` (R192). -/
def execTherm (i : BitVec 9) (s : State) : Res := .next (chtClr i.toNat clrTherm s)

/-- `LATCH` (R195). -/
def execLatchClr (i : BitVec 9) (s : State) : Res := .next (chtClr i.toNat clrLatch s)

/-- `FLT` (R207). -/
def execFltClr (i : BitVec 9) (s : State) : Res := .next (chtClr i.toNat clrFlt s)

/-! ### Posts (R164–R170) -/

/-- `CHT_POST` (R164, R169): marks an entry for reading at the commit point; an index above 423 is ignored. -/
def execChtPost (i : BitVec 9) (s : State) : Res :=
  if idxErr i.toNat then .next (s.flag CHT_POST_STAT_IDX_ERR true)
  else if s.chtPosts.contains i.toNat then .next s
  else .next { s with chtPosts := s.chtPosts ++ [i.toNat] }

/-- The base of the channel table. -/
def State.chtBase (s : State) : Nat := 64 * s.get CHT_BASE_BASE

/-- The words of an entry in the table as they stand. -/
def State.chtEntry (s : State) (i : Nat) : Entry := Entry.ofWords (s.words (s.chtBase + 64 * i) 8)

/-- The entry of channel `j` as this frame's posts would leave it: the posted one if `j` is posted, else the one that
governs next. -/
def State.entryNext (s : State) (posts : List Nat) (j : Nat) : Entry :=
  if posts.contains j then s.chtEntry j else (s.chan j).shadow.getD (s.chan j).entry

/-- The mode is one the class takes (R175, R179, R395). -/
def modeOk (i m : Nat) : Bool :=
  if i < 8 then decide (m ≤ 3) || (i % 2 == 0 && 4 ≤ m && m ≤ 6) || (i % 2 == 1 && m == 7) else decide (m ≤ 2)

/-- A bridge mode needs its odd partner in PARTNER (R167). -/
def State.bridgeOk (s : State) (posts : List Nat) (i : Nat) (e : Entry) : Bool :=
  !(decide (i < 8) && i % 2 == 0 && 4 ≤ e.mode && e.mode ≤ 6) || (s.entryNext posts (i + 1)).mode == 7

/-- `ILIM` and `ILIM_INR` within the class (R167, R177). -/
def limitsOk (i : Nat) (e : Entry) : Bool :=
  let l := (clsOf i).limits
  decide (l.lo ≤ e.ilim) && decide (e.ilim ≤ l.hi) &&
    (e.ilimInr == 0 || (decide (e.ilim ≤ e.ilimInr) && decide (e.ilimInr ≤ l.inr)))

/-- `DEMAG` valid for the class (R167, R177, R395). -/
def demagOk (i d : Nat) : Bool :=
  match clsOf i with
  | .h => true
  | .m => d == 1
  | .l => decide (d ≤ 2)
  | .fo => d == 1

/-- `BSTOP` permitted by the Touchline entry, and not HOLD or LIMP on a bridged pair (R167, R566). -/
def State.bstopAllowed (s : State) (posts : List Nat) (i : Nat) (e : Entry) : Bool :=
  let bridged := decide (i < 8) && (if i % 2 = 0 then decide (4 ≤ e.mode) && decide (e.mode ≤ 6) else
    e.mode == 7 && decide (4 ≤ (s.entryNext posts (i - 1)).mode))
  (s.tlOf i).bstopOk.testBit e.bstop && !(bridged && decide (2 ≤ e.bstop))

/-- The slot length in µs of the pulse engine for an index (R241, R243, R396). -/
def slotUs (i : Nat) : Nat := if i < 136 then 2 else if i < 152 then 20 else 32

/-- The PWM parameters lie in their ranges (R241, R395); `PER_US` and `PHASE_US` bind in the modes that use R243 only. -/
def pwmOk (i : Nat) (e : Entry) : Bool :=
  let uses := e.mode == 2 || (decide (i < 8) && (e.mode == 4 || e.mode == 5))
  let lo := if i < 136 then 40 else if i < 152 then 1000 else 256
  decide (e.duty ≤ 0x10000) && (!uses ||
    (e.per % slotUs i == 0 && decide (lo ≤ e.per) && decide (e.per ≤ 10000000) && e.phase % slotUs i == 0 &&
      decide (e.phase < e.per) && (e.pgroup == 0 || e.phase == 0)))

/-- The domain of a phase group: switch channels, or one LED port (R244). -/
def groupKind (i : Nat) : Nat := if i < 136 then 0 else if i < 296 then 1 else 2

/-- The entry agrees with the other members its group will have (R244). -/
def State.groupOk (s : State) (posts : List Nat) (i : Nat) (e : Entry) : Bool :=
  let others := ((s.chans.map (fun x => x.1)) ++ posts).filter (fun j => j != i && (j < 136 || 168 ≤ j))
  e.pgroup == 0 || others.all (fun j =>
    let o := s.entryNext posts j
    o.pgroup != e.pgroup || (o.per == e.per && groupKind j == groupKind i))

/-- A post of a switch channel is acceptable (R167). -/
def State.switchOk (s : State) (posts : List Nat) (i : Nat) (e : Entry) : Bool :=
  e.reservedOk && modeOk i e.mode && s.bridgeOk posts i e && limitsOk i e && demagOk i e.demag &&
    s.bstopAllowed posts i e && pwmOk i e && s.groupOk posts i e

/-- A post of a field output is acceptable (R395). -/
def State.fieldOutOk (s : State) (i : Nat) (e : Entry) : Bool :=
  e.reservedOk && decide (e.mode ≤ 2) && e.pgroup == 0 && !e.apEn && e.apId == 0 && limitsOk i e && e.demag == 1 &&
    decide (e.bstop ≤ 2) && (s.tlOf i).bstopOk.testBit e.bstop && pwmOk i e

/-- A post of a field input is acceptable (R406). -/
def fieldInOk (e : Entry) : Bool :=
  decide (e.mode ≤ 2) && wbits e.w0 24 8 == 0 && (e.mode == 0 || wbits e.w0 7 0 != 0) &&
    e.w1 == 0 && e.w2 == 0 && e.w3 == 0 && e.w4 == 0 && e.w5 == 0 && e.w6 == 0 && wbits e.w7 31 16 == 0

/-- A post of an LED chain output is acceptable (R241). -/
def State.ledOk (s : State) (posts : List Nat) (i : Nat) (e : Entry) : Bool :=
  wbits e.w0 27 24 == 0 && wbits e.w0 15 9 == 0 && wbits e.w1 31 24 == 0 && wbits e.w2 31 17 == 0 &&
    wbits e.w3 31 24 == 0 && wbits e.w7 31 16 == 0 && e.w4 == 0 && e.w5 == 0 && e.w6 == 0 && decide (e.mode ≤ 2) &&
    pwmOk i e && s.groupOk posts i e

/-- A post is acceptable for its index. -/
def State.postOk (s : State) (posts : List Nat) (i : Nat) (e : Entry) : Bool :=
  if i < 136 then s.switchOk posts i e
  else if i < 152 then s.fieldOutOk i e
  else if i < 168 then fieldInOk e
  else s.ledOk posts i e

/-- A post is rejected (R168): the cached entry stays; `POST_REJ`, `CHT_POST_STAT`; indices 136–167 report source 329. -/
def rejectPost (i : Nat) (s : State) : State :=
  let s := (s.flag CHT_POST_STAT_REJ true).put CHT_POST_STAT_REJ_INDEX i
  let s := if i < 152 then fltEvent i 13 s
    else s.modChan i (fun c => { c with flt := setBit c.flt 13, fltCnt := min 255 (c.fltCnt + 1) })
  if 136 ≤ i ∧ i < 168 then report 329 s else s

/-- Reads one posted entry at the commit point (R164, R165). -/
def chtRead (posts : List Nat) (i : Nat) (s : State) : State :=
  let e := s.chtEntry i
  if s.postOk posts i e then s.modChan i (fun c => { c with shadow := some e }) else rejectPost i s

/-- The commit point of the channel table: every marked entry is read once (R164). -/
def chtCommitPoint (s : State) : State :=
  let l := s.chtPosts
  forEach l (chtRead l) { s with chtPosts := [] }

/-- The die takes an adopted entry: it is neither unarmed, fenced nor in BACKSTOP (R173). -/
def State.dieTakes (s : State) (i : Nat) : Bool :=
  if i < 136 then (s.dieMode (dieOf i) == 1 || s.dieMode (dieOf i) == 3) && !s.fenced (0x010 + dieOf i)
  else (s.get FLD_STAT_MODE == 0 || s.get FLD_STAT_MODE == 2) && !s.field.safe && !s.fenced 0x040

/-- What an adoption does to the channel's own state: a command off ends a retry wait (R194), a change of `MODE` ends a stall
(R204), a direct reversal brakes first (R181), and the first adoption after an arming ends the Backstop state (R221). -/
def adoptChan (c : Chan) (e : Entry) (takes : Bool) (revGap now : Nat) : Chan :=
  let reversal := (c.entry.mode == 4 && e.mode == 5) || (c.entry.mode == 5 && e.mode == 4)
  { c with
    entry := e, shadow := none, cached := true, genAck := e.gen,
    adopted := c.adopted || takes, fresh := c.fresh || takes,
    bstop := if takes then e.bstop else c.bstop,
    retryEnd := if e.mode == 0 then none else c.retryEnd,
    stalled := c.stalled && e.mode == c.entry.mode,
    revEnd := if reversal then some (now + ms revGap) else if e.mode == c.entry.mode then c.revEnd else none,
    withheld := c.withheld && e.mode != 0,
    pulse := if e.mode == c.entry.mode then c.pulse else none }

/-- The entry read at the last commit governs from this T0 (R165, R166). A field output's old protection values bind
until its parameter block has taken effect (R397). -/
def chtAdopt (i : Nat) (s : State) : State :=
  let c := s.chan i
  match c.shadow with
  | none => s
  | some e =>
    let x := adoptChan c e (s.dieTakes i) (s.get (CHT_BR_CTL_REV_GAP_MS (i / 2))) s.now
    let x := if 136 ≤ i ∧ i < 152 ∧ s.dieTakes i then
        { x with old := if c.adopted then some c.entry else none, pend := some s.now, genAck := c.genAck, bstop := c.bstop }
      else x
    let s := s.setChan i x
    if i < 152 then settlePair i s else s

/-! ### Status words (R171, R176, R400, R407) -/

/-- Word 8 of a switch channel or field output. -/
def State.stateWord (s : State) (i : Nat) : Nat :=
  let c := s.chan i
  let b (x : Bool) (k : Nat) := if x then 2 ^ k else 0
  let m := if i < 136 then s.dieMode (dieOf i) else s.get FLD_STAT_MODE
  m * 2 ^ 28 + s.gates * 2 ^ 20 + b c.tlLim 15 + b (c.sawDroop && decide (i < 136)) 14 + b c.out 13 +
    (s.chState i).code

/-- The learned latency a channel shows in [15:0] of its latency words (R301). -/
def State.learned (s : State) (i : Nat) (opening : Bool) : Nat :=
  if (s.chan i).entry.apEn then s.latOf (s.chan i).entry.apId opening / 16 else 0

/-- Words 12 and 13. -/
def State.latWords (s : State) (i : Nat) : Word × Word :=
  let c := s.chan i
  if i < 8 then
    if i % 2 = 0 then (BitVec.ofInt 32 c.ripplePos, BitVec.ofNat 32 (min c.ripplePer (2 ^ 24 - 1))) else (0, 0)
  else if i < 136 then
    (BitVec.ofNat 32 (c.latOn * 65536 + s.learned i true), BitVec.ofNat 32 (c.latOff * 65536 + s.learned i false))
  else (0, 0)

/-- Words 8–15 of a switch channel or field output (R176, R400). -/
def State.outWords (s : State) (i : Nat) : List Word :=
  let c := s.chan i
  [BitVec.ofNat 32 (s.stateWord i),
   BitVec.ofNat 32 (min 65535 c.iPeak * 65536 + min 65535 c.iMean),
   BitVec.ofNat 32 (unsigned 16 c.tjPeak * 65536 + unsigned 16 c.tj),
   BitVec.ofNat 32 (c.cuts * 65536 + c.retryCnt),
   (s.latWords i).1, (s.latWords i).2, BitVec.ofNat 32 c.genAck, BitVec.ofNat 32 (fltWord c)]

end Sys2Proof.Machine
end

