-- ==== Sys2Proof/Machine/Chain.lean ====
section
/-!
DEFINITION. Sys2Proof/Machine/Chain.lean: the pulse engine and the channel chain (chapter 05): the bit of each channel at each slot,
the latch, the return stream, the liveness count, configuration frames and arming; and their commands.
-/
namespace Sys2Proof.Machine

/-! ### PWM from channel bits (R243–R251) -/

/-- K, n_on and OFS of an entry (R243). -/
structure Pwm where
  k : Nat
  on : Nat
  ofs : Nat
deriving DecidableEq, Repr

/-- The members of the phase group of an entry, in ascending index (R244). -/
def State.groupOf (s : State) (g : Nat) : List Nat :=
  (s.chans.filter (fun x => x.2.entry.pgroup == g && (x.1 < 136 || 168 ≤ x.1))).map (fun x => x.1)

/-- The PWM parameters of channel `i` (R243, R245). -/
def State.pwmOf (s : State) (i : Nat) : Pwm :=
  let e := (s.chan i).entry
  let k := orOne (e.per / slotUs i)
  let on := min k ((e.duty * k + 32768) / 65536)
  let ofs := if e.pgroup = 0 then e.phase / slotUs i
    else
      let m := s.groupOf e.pgroup
      m.idxOf i * k / orOne m.length
  ⟨k, on, ofs⟩

/-- The first regular period start at or after slot `n` (R243). -/
def Pwm.startFrom (p : Pwm) (n : Nat) : Nat :=
  let r := (n + p.k - p.ofs % p.k) % p.k
  if r = 0 then n else n + (p.k - r)

/-- The stretch that holds slot `n` of a regular schedule. -/
def Pwm.regular (p : Pwm) (n : Nat) : Pulse :=
  let a := n - (n + p.k - p.ofs % p.k) % p.k
  ⟨a, a + p.on, a + p.k⟩

/-- The stretch that begins at an opening or an entry at slot `n` (R249). -/
def Pwm.opening (p : Pwm) (n : Nat) : Pulse :=
  let t := p.startFrom (n + 1)
  if p.on ≤ t - n then ⟨n, n + p.on, t⟩ else ⟨n, t, t⟩

/-- The stretch at slot `n` once the last one ended at slot `e` (R246, R247). -/
def Pwm.after (p : Pwm) (e n : Nat) : Pulse :=
  let t := p.startFrom e
  if n < t then ⟨e, e + min p.on (t - e), t⟩ else p.regular n

/-- The stretch in force at slot `n`. -/
def Pwm.stretch (p : Pwm) (old : Option Pulse) (n : Nat) : Pulse :=
  match old with
  | none => p.opening n
  | some x => if n < x.stop then x else p.after x.stop n

/-- The modes of R243. -/
def pulsing (m : Nat) : Bool := m == 2 || m == 4 || m == 5

/-- The pulse engine decides the bit of channel `i` at slot `n` (R243–R250): 0 while its actuation point is closed. -/
def pulseSlot (i n : Nat) (s : State) : State :=
  let c := s.chan i
  let gate := !c.entry.apEn || s.apOpen c.entry.apId
  if !gate then s.setChan i { c with bit := false, pulse := none }
  else if pulsing c.entry.mode then
    let x := (s.pwmOf i).stretch c.pulse n
    s.setChan i { c with bit := decide (n < x.onEnd), pulse := some x }
  else s.setChan i { c with bit := c.entry.mode == 1 || c.entry.mode == 3, pulse := none }

/-! ### What the die does with the bit (R181, R204, R211–R213) -/

/-- The channel is in commanded operation and its bit asks for the output, before the caps: not in BR_BRAKE by R181 or
after a stall. -/
def State.asks (s : State) (i : Nat) : Bool :=
  let c := s.chan i
  let st := s.chState i
  (st.driving || (st == .off && c.withheld)) && c.bit && !c.stalled && c.revEnd.isNone

/-- The on-time of the period has passed the cap (R211). -/
def State.dutyOver (s : State) (i n : Nat) : Bool :=
  let c := s.chan i
  let d := (s.tlOf i).dutyMax
  match c.pulse with
  | some x => d != 0 && pulsing c.entry.mode && decide (d * (s.pwmOf i).k / 65536 ≤ n - x.start)
  | none => false

/-- A turn-on would exceed `TL_RATE_MAX` (R211). -/
def State.rateOver (s : State) (i : Nat) : Bool :=
  let m := (s.tlOf i).rateMax
  m != 0 && decide (m ≤ ((s.chan i).turnOns.filter (fun t => s.now < t + sec 1)).length)

/-- The interlock keeps a channel that asks off (R212): the partner is on or was within the gap, or asks at the same latch. -/
def State.pairHolds (s : State) (i : Nat) : Bool :=
  match s.pairOf i with
  | some p => !s.pairClear i || s.asks p
  | none => false

/-- What the die decides for one channel at a latch: the output, whether a cap acted, whether the interlock withholds. -/
structure Decision where
  i : Nat
  on : Bool
  capped : Bool
  withheld : Bool
deriving DecidableEq, Repr

/-- The decision for channel `i` at slot `n`, from the outputs before the latch. -/
def State.decideOut (s : State) (i n : Nat) : Decision :=
  if !s.asks i then ⟨i, false, false, false⟩
  else if s.dutyOver i n then ⟨i, false, true, false⟩
  else if (s.chan i).out then ⟨i, true, false, false⟩
  else if s.pairHolds i then ⟨i, false, true, true⟩
  else if s.rateOver i then ⟨i, false, true, false⟩
  else ⟨i, true, false, false⟩

/-- Carries out a decision on a channel in commanded operation. -/
def applyDecision (d : Decision) (s : State) : State :=
  let c := s.chan d.i
  let st := s.chState d.i
  if st.driving || (st == .off && c.withheld) then
    let s := s.setChan d.i { c with tlLim := c.tlLim || d.capped, withheld := d.withheld }
    let s := if d.withheld && !c.withheld then fltEvent d.i 12 s else s
    setOut d.i d.on s
  else s

/-- The channels of a list take their decisions, each made from the outputs before the latch. -/
def applyBits (l : List Nat) (n : Nat) (s : State) : State :=
  forEach (l.map (fun i => s.decideOut i n)) applyDecision s

/-! ### Dies at a latch (R22, R219, R223, R690) -/

/-- The entry words of a Touchline entry of 32 bytes (R566). -/
def tlOfWords (l : List Word) : TlEntry :=
  let w (i : Nat) := l.getD i 0
  { gates := wbits (w 0) 31 28, blocked := wbits (w 0) 27 26, bstopOk := wbits (w 0) 25 22, pair := wbits (w 0) 21 16,
    ilimMax := wbits (w 0) 15 0, inrMax := wbits (w 1) 31 24, rateMax := wbits (w 1) 23 16, dutyMax := wbits (w 1) 15 0,
    onMax := wbits (w 2) 31 16, offMin := wbits (w 2) 15 0, eMax := wbits (w 3) 31 16, pairGap := wbits (w 3) 15 0,
    retryMax := wbits (w 4) 31 24, bstopInit := wbits (w 4) 17 16 }

/-- The word at byte `o` of a list of bytes. -/
def wordAt (l : List Byte) (o : Nat) : Word :=
  (l.getD (o + 3) 0) ++ (l.getD (o + 2) 0) ++ (l.getD (o + 1) 0) ++ (l.getD o 0)

/-- The Touchline entry of 32 bytes at byte `o`. -/
def tlAtByte (l : List Byte) (o : Nat) : TlEntry := tlOfWords ((List.range 5).map (fun j => wordAt l (o + 4 * j)))

/-- The bytes of the Touchline section a die has received in configuration frames, block by block. -/
def Die.tlBytes (d : Die) : List Byte :=
  ((List.range 68).map (fun b => match d.loads.find? (fun x => x.target == 1 && x.block == b) with
    | some x => x.data
    | none => List.replicate 16 0)).flatten

/-- Writes the Touchline entries of die `k` from the bytes of its section. -/
def loadTl (k : Nat) (l : List Byte) (s : State) : State :=
  overN 34 (fun j s => { s with tl := tset {} s.tl (segChan k j) (tlAtByte l (32 * j)) }) s

/-- All tables of the die have been received (R219). -/
def Die.tablesIn (d : Die) : Bool :=
  (List.range 68).all (fun b => d.loads.any (fun x => x.target == 1 && x.block == b)) &&
    d.loads.any (fun x => x.target == 2) && d.loads.any (fun x => x.target == 0)

/-- The latch after a complete load arms the die (R219). -/
def armIfLoaded (k : Nat) (s : State) : State :=
  if (s.die k).loaded && (s.dieMode k == 0 || s.dieMode k == 2) && !s.fenced (0x010 + k) then
    dieArm k (loadTl k (s.die k).tlBytes s)
  else s

/-- The staged banks of a die swap at this latch; it returns to ARMED (R223). -/
def bankSwap (k : Nat) (s : State) : State :=
  let d := s.die k
  if s.dieMode k == 3 && d.swapNow && (d.seqStaged || d.tlStaged) then
    let s := if d.seqStaged then s.putBit (CHT_DIE_STAT_SEQ_BANK k) 0 (!s.on (CHT_DIE_STAT_SEQ_BANK k)) else s
    let s := if d.tlStaged then
        let s := s.putBit (CHT_DIE_STAT_TL_BANK k) 0 (!s.on (CHT_DIE_STAT_TL_BANK k))
        forEach (dieChans k) (fun i s => { s with tl := tset {} s.tl i (tget {} d.stagedTl i) }) s
      else s
    let s := s.put (CHT_DIE_STAT_MODE k) 1
    settleAll (dieChans k) (s.modDie k (fun d => { d with
      seqStaged := false, tlStaged := false, swapNow := false }))
  else s

/-- Counts an error and reports the die's link after 16 within 1 ms (R238). -/
def countErr (now : Nat) (l : List Nat) : List Nat × Bool :=
  let l := now :: l.filter (fun t => now < t + ms 1)
  if l.length ≥ 16 then ([], true) else (l, false)

/-- A die accepts the frame: its watchdog restarts on a new `LIVE`; in BACKSTOP the frame counts (R216, R690). -/
def dieGood (k live : Nat) (s : State) : State :=
  s.modDie k (fun d => { d with
    lastBad := false, lastLive := some live,
    wdAt := if d.lastLive == some live then d.wdAt else s.now,
    valid := if s.dieMode k == 2 then min 64 (d.valid + 1) else 0 })

/-- Die `k` finds a CRC error in its segment (R22, R690). -/
def dieBad (k : Nat) (s : State) : State :=
  let s := s.modDie k (fun d => { d with lastBad := true, valid := 0 })
  if s.dieMode k == 1 || s.dieMode k == 3 then
    let r := countErr s.now (s.die k).crcAt
    let s := (s.modDie k (fun d => { d with crcAt := r.1 })).wrap (CHT_DIE_STAT_CRC_ERR k)
    if r.2 then report (dieLink k) s else s
  else s

/-- One die at an operate latch. -/
def dieLatch (k n : Nat) (bad : Bool) (s : State) : State :=
  if (s.die k).unpowered then s
  else
    let s := bankSwap k (armIfLoaded k s)
    if s.dieMode k == 0 then s
    else if bad then dieBad k s
    else
      let s := dieGood k s.chain.live s
      if s.dieMode k == 2 then s else applyBits (dieChans k) n s

/-- The status code of a die (R237). -/
def State.dieCode (s : State) (k : Nat) : Nat :=
  match s.dieMode k with
  | 0 => 3
  | 2 => 2
  | _ => if (s.die k).lastBad then 1 else 0

/-- The chain master verifies the return segment of die `k` (R238). -/
def returnCheck (k : Nat) (retBad : Bool) (s : State) : State :=
  if (s.die k).unpowered || retBad then
    let r := countErr s.now (s.die k).retAt
    let s := (s.modDie k (fun d => { d with retAt := r.1 })).wrap (PCHN_DIE_RET_RET_ERR k)
    let s := s.putBit PCHN_STAT_RET_OK k false
    if r.2 then report (dieLink k) s else s
  else
    let code := s.dieCode k
    let s := (s.put (PCHN_DIE_RET_CODE k) code).putBit PCHN_STAT_RET_OK k true
    if code == 2 && (s.die k).cause == .watchdog then s.flag (CHT_DIE_STAT_WD_TRIP k) true else s

/-- The returned header (R238): three consecutive differing headers report source 241. -/
def headerCheck (ok : Bool) (s : State) : State :=
  if ok then { s with chain := { s.chain with hdrBad := 0 } }
  else
    let n := s.chain.hdrBad + 1
    let s := ({ s with chain := { s.chain with hdrBad := if n = 3 then 0 else n } }).wrap PCHN_STAT_LOOP_ERR
    if n = 3 then report 241 s else s

/-- The chain runs: in RUN and IDLE with `CHAIN_EN` (R259, R261). -/
def State.chainRuns (s : State) : Bool :=
  s.clocks && s.on PCHN_CTL_CHAIN_EN

/-- A latch instant after the last one (R234). -/
def State.latchNow (s : State) (t : Nat) : Bool := t % 400 == 0 && decide (s.chain.latchAt < t)

/-- The channels 0–135 the cache holds. -/
def State.cachedSwitch (s : State) : List Nat := (s.chans.filter (fun x => x.1 < 136)).map (fun x => x.1)

/-- `CHAIN_LATCH` (R21, R232–R238): one operate frame. The pulse engine decides the bits, each die applies them by its
mode and its Touchline, and the chain master verifies the return stream. -/
def execChainLatch (t : Nat) (bad retBad : BitVec 4) (hdrOk : Bool) (s : State) : Res :=
  let ok := s.chainRuns && s.latchNow t
  let s := s.at t
  if ok then
    let n := t / 400
    let s := ({ s with chain := { s.chain with latchAt := t } }).put PCHN_STAT_STATE 2
    let s := s.put PCHN_STAT_LIVE s.chain.live
    let s := forEach s.cachedSwitch (fun i s => pulseSlot i n s) s
    let s := overN 4 (fun k s => dieLatch k n (bad.getLsbD k) s) s
    .next (headerCheck hdrOk (overN 4 (fun k s => returnCheck k (retBad.getLsbD k) s) s))
  else .next s

/-- Some die is ARMED or in SUBSTITUTE. -/
def State.anyArmed (s : State) : Bool := (List.range 4).any (fun k => s.dieMode k == 1 || s.dieMode k == 3)

/-- A configuration frame may occupy this latch period (R239). -/
def State.cfgAllowed (s : State) (t : Nat) : Bool :=
  !s.anyArmed || ((match s.chain.cfgAt with | some a => decide (a + 3200 ≤ t) | none => true) &&
    !(s.frame.started && t == s.get64 FRAME_T0_LO_T0 FRAME_T0_HI_T0))

/-- A block reaches a die that loads (R222, R239, R690): BOOT, BACKSTOP, or SUBSTITUTE into its inactive bank. -/
def loadBlock (k target block : Nat) (data : List Byte) (s : State) : State :=
  if s.dieMode k == 1 || (s.die k).unpowered then s
  else s.modDie k (fun d => { d with
    loads := ⟨target, block, data.take 16⟩ :: d.loads.filter (fun x => !(x.target == target && x.block == block)) })

/-- An end of load (R219, R223, R583): with a correct CRC the tables are complete, or the inactive bank is staged; a bank
that fails its CRC in SUBSTITUTE is abandoned and reports source 233 + 2k. -/
def endLoad (k crc : Nat) (ok : Bool) (s : State) : State :=
  let d := s.die k
  if s.dieMode k == 1 || d.unpowered then s
  else if s.dieMode k == 3 then
    if ok then
      let tl := d.loads.any (fun x => x.target == 1)
      let staged := (List.range 34).foldl (fun m j => tset {} m (segChan k j) (tlAtByte d.tlBytes (32 * j))) []
      s.setDie k { d with
        seqStaged := d.seqStaged || d.loads.any (fun x => x.target == 0), tlStaged := d.tlStaged || tl,
        stagedTl := if tl then staged else d.stagedTl, loads := [] }
    else
      let s := s.setDie k { d with loads := [], seqStaged := false, tlStaged := false }
      report (dieHealthSrc k) (s.put (CHT_DIE_STAT_MODE k) 1)
  else if ok then s.setDie k { d with loaded := d.tablesIn, imageCrc := crc }
  else s.setDie k { d with loads := [], loaded := false }

/-- `CONFIGURATION_FRAME` (R239, R240): a frame takes a latch period; an armed die keeps its bits. A frame that fails its
CRC-16 loads nothing. -/
def execConfigurationFrame (t : Nat) (k target : Fin 4) (block : Nat) (data : List (BitVec 8)) (ok : Bool)
    (s : State) : Res :=
  let go := s.chainRuns && s.latchNow t && s.cfgAllowed t
  let s := s.at t
  if go then
    let s := { s with chain := { s.chain with latchAt := t, cfgAt := some t } }
    let s := if s.anyArmed then s else s.put PCHN_STAT_STATE 1
    let s := overN 4 (fun k s => bankSwap k (armIfLoaded k s)) s
    if target.val = 3 then .next (endLoad k (wordAt data 0).toNat ok s)
    else if ok then .next (loadBlock k target block data s)
    else .next s
  else .next s

/-- `LIVE_ADVANCE` (R216): every 32 µs while the chain sends operate frames. -/
def execLiveAdvance (t : Nat) (s : State) : Res :=
  let go := s.chainRuns && t % 6400 == 0 && decide (s.chain.liveAt < t)
  let s := s.at t
  if go then .next { s with chain := { s.chain with live := (s.chain.live + 1) % 16, liveAt := t } } else .next s

/-- `LIVE_STALL` (R260): no advance for 64 µs while the chain sends operate frames; again after each further 64 µs. -/
def execLiveStall (t : Nat) (s : State) : Res :=
  let s := s.at t
  if s.chainRuns && decide (max s.chain.liveAt s.chain.stallAt + us 64 ≤ s.now) then
    .next (report 242 { s with chain := { s.chain with stallAt := s.now } })
  else .next s

/-- Sets `CHAIN_EN` (R261): the chain runs from now on. -/
def chainStart (s : State) : State :=
  if s.on PCHN_CTL_CHAIN_EN then s
  else
    let s := (s.flag PCHN_CTL_CHAIN_EN true).put PCHN_STAT_STATE 2
    { s with chain := { s.chain with liveAt := s.now, stallAt := s.now } }

/-- `CHAIN_EN` (R261). -/
def execChainEn (s : State) : Res := if s.alive then .next (chainStart s) else .next s

end Sys2Proof.Machine
end

