-- ==== Sys2Proof/Machine/DebugCore.lean ====
section
/-!
DEFINITION. Sys2Proof/Machine/DebugCore.lean: the halt of the cores, its end (R107), and the end of a debug token (R585).
-/
namespace Sys2Proof.Machine

/-- A time rounded up to a latch instant, a multiple of 2 µs. -/
def latchUp (d : Nat) : Nat := (d + 399) / 400 * 400

/-- Halts one core: `HALTED` and the `MP` of its pass (R110). -/
def haltCore (c : Nat) (s : State) : State :=
  let k := s.core c
  let s := s.setCore c { k with halted := true }
  (s.putBit DBG_STAT_HALTED c true).putBit DBG_STAT_MP c (k.pass.any (fun p => p.mirror))

/-- Halts the cores of a list; the sequencer suspends its frame timer (R107). -/
def haltCores (l : List Nat) (s : State) : State :=
  let s := forEach l haltCore s
  match s.frame.haltFrom with
  | some _ => s
  | none =>
    let ph := s.get FRAME_STAT_PHASE
    { s.put FRAME_STAT_PHASE (if ph = 6 then 6 else 5) with
        frame := { s.frame with haltFrom := some s.now, hadHalt := true, haltPhase := ph } }

/-- The halted cores resume; the next T0 comes later by the halted time, rounded up to a latch instant (R107). -/
def debugResume (s : State) : State :=
  let s := overN 4 (fun c s => s.setCore c { s.core c with halted := false }) s
  let s := ((s.put DBG_STAT_HALTED 0).put DBG_STAT_MP 0).put DBG_CTL_HALT 0
  match s.frame.haltFrom with
  | none => s
  | some h =>
    let ph := s.get FRAME_STAT_PHASE
    { s.put FRAME_STAT_PHASE (if ph = 5 then s.frame.haltPhase else ph) with
        frame := { s.frame with haltFrom := none, haltTime := s.frame.haltTime + latchUp (s.now - h) } }

/-- The token in force ends (R585): `TOKEN` clears, breakpoints disarm, halted cores resume, and the mode returns to OFF at the
next T0. -/
def endToken (s : State) : State :=
  let s := (s.flag DBG_STAT_TOKEN false).put DBG_CTL_MODE_REQ 0
  let s := overN 4 (fun i s => s.flag (DBG_BP_EN i) false) s
  debugResume { s with keeper := { s.keeper with perms := 0, tokenEnd := none } }

end Sys2Proof.Machine
end

