-- ==== Sys2Proof/Machine/DebugCtl.lean ====
section
/-!
DEFINITION. Sys2Proof/Machine/DebugCtl.lean: the debug modes, halts and breakpoints (R106–R110, R133), and the boundary-scan instructions of
the debug port (R585).
-/
namespace Sys2Proof.Machine

/-- The debug mode in force: 0 OFF, 1 JOINT, 2 REPLAY. -/
def State.debugMode (s : State) : Nat := s.get DBG_STAT_MODE

/-- The token in force permits a mode (R584): OFF always, JOINT with bit 0, REPLAY with bit 1. -/
def State.modePermitted (s : State) (v : Nat) : Bool := v % 3 == 0 || s.keeper.perms.testBit (v - 1)

/-- The debug mode changes (R58, R60): the tick leaves its lock with OFF and acquires it again with the return to OFF. -/
def setDebugMode (m : Nat) (s : State) : State :=
  if m = s.debugMode then s
  else
    let src := s.get FRAME_LOCK_SRC % 3
    let st := if m = 0 ∧ src ≠ 0 then 1 else 0
    let s := (s.put DBG_STAT_MODE m).put FRAME_LOCK_STAT_STATE st
    { s with frame := { s.frame with restart := true }, tick := { acq := s.now } }

/-- A write of `MODE_REQ` (R106): ignored without a token or for a mode the token does not permit. In service mode, where no T0
comes, it takes effect at once. -/
def modeReq (v : Nat) (s : State) : State :=
  if s.on DBG_STAT_TOKEN && s.modePermitted v then
    let s := s.put DBG_CTL_MODE_REQ v
    if s.ump.service then setDebugMode (v % 3) s else s
  else s

/-- The core runs a mirror pass. -/
def State.inMirror (s : State) (c : Nat) : Bool := (s.core c).pass.any (fun p => p.mirror)

/-- A halt request (R107, R110): in JOINT all four cores stop together, in REPLAY those outside a mirror pass. -/
def haltReq (s : State) : State :=
  if s.debugMode = 0 then s
  else
    let l := if s.debugMode = 1 then [0, 1, 2, 3] else [0, 1, 2, 3].filter (fun c => !s.inMirror c)
    haltCores l (s.flag DBG_CTL_HALT true)

/-- The program counter of the bank in use. -/
def State.pcOf (s : State) (c : Nat) : Nat := if (s.core c).pass.isSome then (s.core c).tPc.toNat else (s.core c).sPc.toNat

/-- `MODE_REQ` (R106). -/
def execModeReq (v : BitVec 2) (s : State) : Res := if s.clocks then .next (modeReq v.toNat s) else .next s

/-- `HALT` (R107). -/
def execHalt (t : Nat) (s : State) : Res :=
  let s := s.at t
  if s.clocks then .next (haltReq s) else .next s

/-- `DEBUG_RESUME` (R107). -/
def execDebugResume (t : Nat) (s : State) : Res :=
  let s := s.at t
  if s.clocks then .next (debugResume s) else .next s

/-- `BREAKPOINT` (R110, R112): core `core` stands at the armed address `b`; in JOINT all cores stop, in REPLAY that core, and only
outside a mirror pass. -/
def execBreakpoint (b core : Fin 4) (t : Nat) (s : State) : Res :=
  let s := s.at t
  let hit := s.on (DBG_BP_EN b) && s.pcOf core == 4 * s.get (DBG_BP_ADDR b) && !(s.core core).halted && s.clocks
  if !hit || s.debugMode == 0 then .next s
  else if s.debugMode = 1 then .next (haltCores [0, 1, 2, 3] s)
  else if s.inMirror core then .next s
  else .next (haltCores [core.val] s)

/-- `DEBUG_PORT_INSTRUCTION` (R585): BYPASS and IDCODE need no token; EXTEST, INTEST and SAMPLE need BSCAN and service mode. -/
def execDebugPortInstruction (ins : Fin 5) (s : State) : Res :=
  if ins.val ≤ 1 || (s.on DBG_STAT_TOKEN && s.keeper.perms.testBit 2 && s.ump.service) then
    .next { s with dbgPort := ins.val }
  else .next s

end Sys2Proof.Machine
end

