-- ==== Sys2Proof/Machine/MntQueue.lean ====
section
/-!
DEFINITION. Sys2Proof/Machine/MntQueue.lean: what the maintenance arbiter decides (R601–R605): conflicts, start conditions, ranks,
the start and the end of an activity.
-/
namespace Sys2Proof.Machine

/-! ### Conflicts (R602, R604) -/

/-- The flash block of a tile's stored copy, as `PAGE` reads it. -/
def State.pageBlock (s : State) (unit : Nat) : Option Nat :=
  match tget none s.cov.dir (unit / 65536 * 65536 + unit % 256 * 256 + unit / 256 % 256) with
  | some c => if c.uniform then none else some c.block
  | none => none

/-- The flash sectors an activity touches, lowest and highest. -/
def State.actSectors (s : State) (kind unit : Nat) : Option (Nat × Nat) :=
  match kind with
  | 1 => some (unit, unit)
  | 3 | 4 => some (536 + unit / 16, 536 + unit / 16)
  | 5 => (s.pageBlock unit).map (fun b => (536 + b / 16, 536 + b / 16))
  | 6 | 7 => some (0x398, 0x3F7)
  | _ => none

/-- The die of a channel activity, 4 for FLD. -/
def actDie (unit : Nat) : Nat := if unit < 136 then dieOf unit else 4

/-- `k1` on `u1` conflicts with `k2` on `u2` on the same region, in this order of the matrix. -/
def State.clash1 (s : State) (k1 u1 k2 u2 : Nat) : Bool :=
  let meet := match s.actSectors k1 u1, s.actSectors k2 u2 with
    | some a, some b => decide (a.1 ≤ b.2) && decide (b.1 ≤ a.2)
    | _, _ => false
  let cd (k : Nat) := k == 8 || k == 9
  (k1 == 1 && 3 ≤ k2 && k2 ≤ 7 && meet) ||
  ((k1 == 3 || k1 == 4) && (((k2 == 3 || k2 == 4) && u1 == u2) || (k2 == 5 && s.pageBlock u2 == some u1))) ||
  (cd k1 && cd k2 && u1 == u2) || (cd k1 && ((k2 == 11 && actDie u1 == u2) || k2 == 13)) ||
  ((k1 == 12 || k1 == 13) && (k2 == 11 || k2 == 12 || k2 == 13)) ||
  (k1 == 10 && (k2 == 10 || k2 == 14)) ||
  ([3, 4, 6, 7].contains k1 && [3, 4, 6, 7].contains k2)

/-- The activity in slot `k` meets a conflict with a running one. -/
def State.conflicts (s : State) (k : Nat) : Bool :=
  let x := s.slot k
  (List.range 64).any (fun j => j != k && (s.slot j).state == 4 &&
    (s.clash1 x.kind x.unit (s.slot j).kind (s.slot j).unit || s.clash1 (s.slot j).kind (s.slot j).unit x.kind x.unit))

/-! ### Start (R601, R603–R605) -/

/-- The condition of the table of R601; for a firmware CORE_TEST, whether the core's tasks can move. -/
def State.actCond (s : State) (kind unit : Nat) (canMove : Bool) : Bool :=
  match kind with
  | 3 => s.store.freed.contains unit || decide (6144 ≤ unit)
  | 6 => s.get UMP_LOG_STAT_UNCOPIED != 0
  | 8 =>
    let c := s.chan unit
    c.out && c.inrush.isNone && c.onAt.any (fun a => decide (a + ms 2 ≤ s.now))
  | 9 =>
    let c := s.chan unit
    !c.out && c.demagAt.isSome
  | 10 => canMove
  | _ => true

/-- The arbiter may start activities of this kind now (R605); no flash program or erase below 5 V (R651). -/
def State.actAllowed (s : State) (kind : Nat) (who : Asker) : Bool :=
  s.clocks && s.on MNT_CTL_EN && (s.get PWR_STAT_PHASE == 0 || (kind == 6 && decide (3 ≤ s.get PWR_STAT_ENTRY))) &&
  (decide (s.level < 3) || kind == 5 || kind == 6 || kind == 3 || (kind == 10 && who == .block)) &&
  !(s.pwr.flashOff && [3, 4, 6, 7].contains kind)

/-- The request in slot `k` could start now. -/
def State.startable (s : State) (k : Nat) (canMove : Bool) : Bool :=
  let x := s.slot k
  decide (1 ≤ x.state) && decide (x.state ≤ 3) && s.actAllowed x.kind x.asker && !s.conflicts k &&
    s.actCond x.kind x.unit (canMove || x.asker == .block)

/-- The rank of R603. -/
def Slot.rank (x : Slot) : Nat :=
  if x.kind = 5 ∨ x.kind = 6 then 0 else if 11 ≤ x.kind then 1 else if x.asker = .arbiter then 3 else 2

/-- A request of a better place could start now. -/
def State.outranked (s : State) (k : Nat) (canMove : Bool) : Bool :=
  let x := s.slot k
  (List.range 64).any (fun j => j != k && s.startable j canMove &&
    (decide ((s.slot j).rank < x.rank) || ((s.slot j).rank == x.rank && decide ((s.slot j).ord < x.ord))))

/-- The state of a request that does not start: DEFERRED at a conflict, WAITING for its condition, else QUEUED. -/
def mntClass (k : Nat) (canMove : Bool) (s : State) : State :=
  let x := s.slot k
  if 1 ≤ x.state ∧ x.state ≤ 3 then
    let st := if s.conflicts k then 2 else if s.actCond x.kind x.unit (canMove || x.asker == .block) then 1 else 3
    s.setSlot k { x with state := st }
  else s

/-- Starts the request in slot `k` if it is its turn. The first component says that it runs. -/
def mntStart (k : Nat) (canMove : Bool) (s : State) : Bool × State :=
  if s.startable k canMove && !s.outranked k canMove then
    let s := s.setSlot k { s.slot k with state := 4, ranAt := s.now }
    (true, s.put MNT_STAT_RUNNING (s.get MNT_STAT_RUNNING + 1))
  else (false, mntClass k canMove s)

/-- Starts the live request of a kind and unit, if there is one. -/
def mntStartOf (kind unit : Nat) (canMove : Bool) (s : State) : Bool × State :=
  match s.liveSlot kind unit with
  | some k => mntStart k canMove s
  | none => (false, s)

/-! ### End (R604, R618) -/

/-- A running activity ends: DONE (5) or FAILED (6), which reports source 448. -/
def mntEnd (k : Nat) (ok : Bool) (s : State) : State :=
  let x := s.slot k
  if x.state = 4 then
    let s := s.setSlot k { x with state := if ok then 5 else 6, ranAt := s.now }
    let s := s.put MNT_STAT_RUNNING (s.get MNT_STAT_RUNNING - 1)
    if ok then s.wrap MNT_STAT_DONE else report 448 (s.wrap MNT_STAT_FAILED)
  else s

/-- The running slot of a kind and unit. -/
def State.runningSlot (s : State) (kind unit : Nat) : Option Nat :=
  (s.liveSlot kind unit).bind (fun k => if (s.slot k).state = 4 then some k else none)

/-- Ends the running activity of a kind and unit. -/
def mntFinish (kind unit : Nat) (ok : Bool) (s : State) : State :=
  match s.runningSlot kind unit with
  | some k => mntEnd k ok s
  | none => s

/-- A replacement that a block carries out is held as a running activity (R257, R601). -/
def mntHold (kind unit : Nat) (s : State) : State :=
  match mntAsk kind unit .block s with
  | (some k, s) =>
    if (s.slot k).state = 4 then s
    else (s.setSlot k { s.slot k with state := 4, ranAt := s.now }).put MNT_STAT_RUNNING (s.get MNT_STAT_RUNNING + 1)
  | (none, s) => s

end Sys2Proof.Machine
end

