-- ==== Sys2Proof/Machine/FrameCore.lean ====
section
/-!
DEFINITION. Sys2Proof/Machine/FrameCore.lean: frame timing (R50, R61–R64), the frame budget (R63), dispatch by level (R103) and the
placement of tasks on cores (R606, R607).
-/
namespace Sys2Proof.Machine

/-! ### Timing (R50, R61, R62), in time-base units -/

/-- F, the maintenance reserve S (8 % of F), and LC, C, D of the frame in progress. -/
def Frame.f (x : Frame) : Nat := 25000 * x.len
def Frame.slice (x : Frame) : Nat := us (10 * x.len)
def Frame.lc (x : Frame) : Nat := x.f - us x.margin - us x.res - x.slice
def Frame.cut (x : Frame) : Nat := x.f - us x.margin - us x.res
def Frame.deadline (x : Frame) : Nat := x.f - us x.margin

/-- The conditions of R62 on `LEN`, `MARGIN_US`, `RES_US`. -/
def timingOk (len margin res : Nat) : Bool :=
  decide (2 ≤ len) && decide (len ≤ 80) && decide (20 ≤ margin) && decide (4 * margin ≤ 125 * len) && decide (10 ≤ res) &&
    decide (2 * res ≤ 125 * len) && decide (margin + res + 10 * len < 125 * len)

/-! ### Budget (R63) -/

/-- The task is dispatched in frame `n`. -/
def Task.dueIn (x : Task) (n : Nat) : Bool := x.en && n % (x.div + 1) == x.phase % (x.div + 1)

/-- The frames of one dispatch cycle. -/
def dispatchCycle (l : List Task) : Nat := l.foldl (fun a x => Nat.lcm a (x.div + 1)) 1

/-- Pass time of classes A and B of a list of tasks in frame `n`, both passes, in time-base units. -/
def passTime (l : List Task) (n : Nat) : Nat :=
  (l.filter (fun x => x.dueIn n && decide (x.cls < 2))).foldl (fun a x => a + 40 * x.wcet) 0

/-- The longest pass time over the dispatch cycle. -/
def worstTime (l : List Task) : Nat := (List.range (dispatchCycle l)).foldl (fun a n => max a (passTime l n)) 0

/-- The commit entries of frame `n` over all cores. -/
def commitSum (l : List Task) (n : Nat) : Nat := (l.filter (fun x => x.dueIn n)).foldl (fun a x => a + x.cmtMax) 0

/-- R63 for a set of tasks under a timing: pass time per core at most LC, compare and commit at most Rc. -/
def budgetOk (l : List Task) (len margin res : Nat) : Bool :=
  let lc := us (115 * len - margin - res)
  (List.range 4).all (fun c => decide (worstTime (l.filter (fun x => x.en && x.core == c)) ≤ lc)) &&
  (List.range (dispatchCycle l)).all (fun n => decide (us 1 + 4 * commitSum l n ≤ us res))

/-- The adopted tasks. -/
def State.taskList (s : State) : List Task := s.frame.tasks.map (fun e => e.2)

/-! ### Placement (R606–R608) -/

/-- The level dispatches tasks of this class (R103). -/
def levelRuns (level cls : Nat) : Bool := cls == 0 && decide (level < 4) || cls == 1 && decide (level < 2) || cls == 2 && level == 0

/-- The core carries no tasks: fenced, out by CORE_OUT, waiting for its test, or under test (R606, R608, R609). -/
def State.coreOut (s : State) (c : Nat) : Bool :=
  s.fenced (1 + c) || s.bit SUB_CORES_OUT c || s.sub.needTest.testBit c || s.bit SUB_CORES_TEST c

/-- The core a task runs on: its `CORE`, or where it is placed; 4 where it has no place. -/
def State.coreOf (s : State) (i : Nat) : Nat :=
  match s.sub.place.find? (fun e => e.1 == i) with
  | some e => e.2
  | none => (s.task i).core

/-- Tasks in the order of placement: class, then `ORDER`, then index. -/
def placeBefore (a b : Nat × Task) : Bool :=
  decide (a.2.cls < b.2.cls) || (a.2.cls == b.2.cls && (decide (a.2.order < b.2.order) ||
    (a.2.order == b.2.order && decide (a.1 ≤ b.1))))

/-- Insertion into a list sorted by a relation. -/
def insertBy {α : Type} (le : α → α → Bool) (x : α) : List α → List α
  | [] => [x]
  | y :: l => if le x y then x :: y :: l else y :: insertBy le x l

/-- A list sorted by a relation. -/
def sortBy {α : Type} (le : α → α → Bool) (l : List α) : List α := l.foldr (insertBy le) []

/-- The tasks that core `c` carries: those that name it and stay, and those placed on it. -/
def carried (tasks : List (Nat × Task)) (out : Nat → Bool) (placed : List (Nat × Nat)) (c : Nat) : List Task :=
  (tasks.filter (fun e => (e.2.core == c && !out c) || placed.any (fun p => p.1 == e.1 && p.2 == c))).map (fun e => e.2)

/-- The core a task goes to: of those in service with room for it, the one with the most of LC left. -/
def bestCore (tasks : List (Nat × Task)) (out : Nat → Bool) (placed : List (Nat × Nat)) (level lc : Nat) (x : Task) : Nat :=
  let load (c : Nat) (extra : List Task) :=
    worstTime ((carried tasks out placed c ++ extra).filter (fun y => levelRuns level y.cls))
  let fits := (List.range 4).filter (fun c => !out c && decide (load c [x] ≤ lc))
  (fits.find? (fun c => fits.all (fun d => decide (load c [] < load d []) || (load c [] == load d [] && decide (c ≤ d))))).getD 4

/-- Places the tasks of the cores that are out (R606): task and core, 4 where a task has no place. -/
def placeTasks (tasks : List (Nat × Task)) (out : Nat → Bool) (level lc : Nat) : List (Nat × Nat) :=
  let moved := sortBy placeBefore (tasks.filter (fun e => e.2.en && out e.2.core))
  moved.foldl (fun placed e =>
    placed ++ [(e.1, if e.2.pin then 4 else bestCore tasks out placed level lc e.2)]) []

/-- The placement that would hold with the cores of `out` out. -/
def State.placement (s : State) (out : Nat → Bool) : List (Nat × Nat) :=
  placeTasks s.frame.tasks out s.level s.frame.lc

/-- Some class A task would have no place with core `c` out as well (R609). -/
def State.stranded (s : State) (c : Nat) : Bool :=
  (s.placement (fun d => d == c || s.coreOut d)).any (fun p => p.2 == 4 && (s.task p.1).cls == 0)

/-- Every task of core `c` would have a place with it out (R601, kind 10). -/
def State.canMove (s : State) (c : Nat) : Bool :=
  (s.placement (fun d => d == c || s.coreOut d)).all (fun p => p.2 != 4 || (s.task p.1).core != c)

/-- Shows the placement in `SUB_TASK_CORE` and `SUB_TASK_SKIP`. -/
def showPlacement (s : State) : State :=
  let core (i : Nat) := s.coreOf i
  let s := overN 4 (fun w s => s.put (SUB_TASK_CORE_W w)
    ((List.range 16).foldl (fun a i => a + core (16 * w + i) % 4 * 4 ^ i) 0)) s
  overN 2 (fun w s => s.put (SUB_TASK_SKIP_W w)
    ((List.range 32).foldl (fun a i => if core (32 * w + i) = 4 then a + 2 ^ i else a) 0)) s

/-- Reports of tasks that have no place (R607): 454 once for each shed task, 455 for class A, 456 at D2 and above. -/
def placeReports (level : Nat) (l : List (Nat × Nat)) (s : State) : State :=
  let lost := (l.filter (fun p => p.2 == 4)).map (fun p => p.1)
  let isA (i : Nat) := (s.task i).cls == 0
  let news := lost.filter (fun i => !s.sub.shed.contains i)
  let s := { s with sub := { s.sub with shed := lost } }
  let s := if news.any (fun i => !isA i) then report 454 s else s
  let s := if news.any isA then report 455 s else s
  if decide (2 ≤ level) && lost.any isA then report 456 s else s

/-- Placement at a T0 (R606–R608): at a fence, a release, a post, a CORE_IN or a change of level; none in SAFE (R683). -/
def placeAtT0 (s : State) : State :=
  let level := s.level
  if level < 4 ∧ (s.sub.again || level != s.sub.lastLevel) then
    let l := s.placement s.coreOut
    let s := { s with sub := { s.sub with place := l, again := false, lastLevel := level } }
    placeReports level l (showPlacement s)
  else s

end Sys2Proof.Machine
end

