-- ==== Sys2Proof/Machine/FrameLock.lean ====
section
/-!
DEFINITION. Sys2Proof/Machine/FrameLock.lean: the writes that set the frame's timing (R51, R53, R62, R64) and the lock of the tick to
a reference (R54–R60).
-/
namespace Sys2Proof.Machine

/-! ### The lock of the tick -/

/-- `FRAME_LOCK.SRC` in use: 0 FREE, 1 REF, 2 PPS; 3 is treated as 0. -/
def State.lockSrc (s : State) : Nat := s.get FRAME_LOCK_SRC % 3

/-- `FRAME_LOCK_STAT.STATE`: 0 FREE, 1 ACQUIRING, 2 LOCKED, 3 HOLDOVER. -/
def State.lockState (s : State) : Nat := s.get FRAME_LOCK_STAT_STATE

/-- The lengths that divide a second into frames (R55). -/
def ppsLengths : List Nat := [2, 4, 5, 8, 10, 16, 20, 25, 32, 40, 50, 64, 80]

/-- The conditions of R55 that a write checks: a valid source, and under PPS a length that divides its period. -/
def State.sourceOk (s : State) : Bool :=
  if s.lockSrc = 1 then decide (s.get FRAME_LOCK_CAN ≤ 11)
  else decide (s.get FRAME_LOCK_CAPT ≤ 11) && ppsLengths.contains (s.get FRAME_LEN_LEN)

/-- The lock state changes; Tref of R52 is the first T0 after the change. -/
def setLock (st : Nat) (s : State) : State :=
  if s.lockState = st then s
  else { s.put FRAME_LOCK_STAT_STATE st with frame := { s.frame with restart := true } }

/-- FREE: nothing of the lock goes on. -/
def lockFree (s : State) : State := { setLock 0 s with tick := {} }

/-- ACQUIRING begins: its references and its 32 periods count from here. -/
def lockAcquire (s : State) : State := { setLock 1 s with tick := { s.tick with good := 0, missed := 0, acq := s.now } }

/-- R55 fails: FREE, and source 34 reports. -/
def lockRefuse (s : State) : State := report 34 (lockFree s)

/-- The check of R55 after a write of `FRAME_LOCK` or `FRAME_LEN` (R58): a source that passes it is acquired while the debug mode is
OFF. -/
def lockChecked (acquire : Bool) (s : State) : State :=
  if s.lockSrc = 0 then lockFree s
  else if !s.sourceOk then lockRefuse s
  else if s.get DBG_STAT_MODE = 0 ∧ (acquire ∨ s.lockState = 0 ∨ s.lockState = 2) then lockAcquire s
  else s

/-- The reference period: 1 s under PPS; under REF the measured interval, before that the period of the time service. -/
def State.lockPeriod (s : State) : Nat :=
  if s.lockSrc = 2 then sec 1
  else if s.tick.period = 0 then us (clamp 1000 1000000 (s.get (CAN_REF_CTL_PER_US (s.get FRAME_LOCK_CAN))))
  else s.tick.period

/-- An interval lies within 0.5 % of a whole multiple of F (R55). -/
def nearMultiple (d f : Nat) : Bool :=
  let m := (2 * d + f) / (2 * f)
  decide (1 ≤ m) && decide (200 * (max d (m * f) - min d (m * f)) ≤ m * f)

/-- The phase error at a reference: how far the nearest T0 comes after the reference plus `FRAME_LOCK_OFS`. -/
def State.phaseError (s : State) (ref : Nat) : Int :=
  let f : Int := s.frame.f
  let d := (s.get64 FRAME_T0_LO_T0 FRAME_T0_HI_T0 : Int) - (ref : Int) - signed 32 (s.get FRAME_LOCK_OFS_OFS)
  (d + f / 2) % f - f / 2

/-- Notes a reference: period, phase error, the correction still to be spread, the corrections made since the last (R56, R59). -/
def noteReference (ref : Nat) (e : Int) (s : State) : State :=
  let x := s.tick
  let period := match x.lastRef with | some a => ref - a | none => x.period
  let corrs := if x.lastRef.isSome then ((x.since, x.frames) :: x.corrs).take 16 else x.corrs
  let s := s.put FRAME_LOCK_STAT_ERR (unsigned 16 (clampI (-32768) 32767 (e.tdiv 20)))
  { s with tick := { x with
      lastRef := some ref, period := period, rest := -e, corrs := corrs, since := 0, frames := 0, missed := 0 } }

/-- The lock state after a reference with phase error `e` (R58). -/
def lockStep (e : Int) (s : State) : State :=
  if s.lockState = 3 then lockAcquire s
  else if s.lockState = 2 then if 2000 < e.natAbs then lockAcquire s else s
  else
    let good := if e.natAbs ≤ 400 then s.tick.good + 1 else 0
    let s := { s with tick := { s.tick with good := good } }
    if 4 ≤ good then setLock 2 s else s

/-- A reference at `ref` (R55, R56, R58). -/
def lockRef (ref : Nat) (s : State) : State :=
  let bad := s.lockSrc == 1 && s.tick.lastRef.any (fun a => !nearMultiple (ref - a) s.frame.f)
  if bad then lockRefuse s
  else
    let e := s.phaseError ref
    lockStep e (noteReference ref e s)

/-- `LOCK_REFERENCE` (R56): the reference message that the controller in use passed on, or an edge of the capture input in use. -/
def execLockReference (t : Nat) (edge : Option Nat) (s : State) : Res :=
  let s := s.at t
  let ref := if s.lockSrc = 1 then s.tick.inbox.map (fun p => p.2) else edge
  let s := if s.lockSrc = 1 then { s with tick := { s.tick with inbox := none } } else s
  match ref with
  | some r => if s.lockState = 0 ∨ s.clocks = false then .next s else .next (lockRef r s)
  | none => .next s

/-- `REFERENCE_MISSING` (R57, R58): 1.5 periods after the instant expected. -/
def execReferenceMissing (t : Nat) (s : State) : Res :=
  let s := s.at t
  let p := s.lockPeriod
  let due := s.tick.lastRef.getD s.tick.acq + (s.tick.missed + 1) * p + 3 * p / 2
  if (s.lockState = 1 ∨ s.lockState = 2) ∧ due ≤ s.now ∧ s.clocks then
    let n := s.tick.missed + 1
    let s := { s with tick := { s.tick with missed := n } }
    if orOne (s.get FRAME_LOCK_TMO_MISS) ≤ n then
      .next (report 32 { setLock 3 s with tick := { s.tick with holdN := 0, rest := 0 } })
    else .next s
  else .next s

/-- `LOCK_FAIL` (R58): 32 reference periods in ACQUIRING; they count anew. -/
def execLockFail (t : Nat) (s : State) : Res :=
  let s := s.at t
  if s.lockState = 1 ∧ s.tick.acq + 32 * s.lockPeriod ≤ s.now then
    .next (report 33 { s with tick := { s.tick with acq := s.now } })
  else .next s

/-! ### Writes -/

/-- A write of the timing is checked with the other two fields as they stand (R62, R64). -/
def frameTiming (len margin res : Nat) (f : Fld) (v : Nat) (s : State) : State :=
  if timingOk len margin res && budgetOk s.taskList len margin res then s.put f v else report 34 s

/-- A write of `FRAME_LEN` (R51, R55, R58, R62). -/
def frameLen (v : Nat) (s : State) : State :=
  let margin := s.get FRAME_MARGIN_MARGIN_US
  let res := s.get FRAME_CUTRES_RES_US
  let ok := timingOk v margin res && budgetOk s.taskList v margin res
  let s := frameTiming v margin res FRAME_LEN_LEN v s
  if ok && s.lockSrc != 0 then lockChecked false s else s

/-- A write of `FRAME_MARGIN`. -/
def frameMargin (v : Nat) (s : State) : State :=
  frameTiming (s.get FRAME_LEN_LEN) v (s.get FRAME_CUTRES_RES_US) FRAME_MARGIN_MARGIN_US v s

/-- A write of `FRAME_CUTRES`. -/
def frameCutres (v : Nat) (s : State) : State :=
  frameTiming (s.get FRAME_LEN_LEN) (s.get FRAME_MARGIN_MARGIN_US) v FRAME_CUTRES_RES_US v s

/-- A write of `FRAME_LOCK` (R55, R58). -/
def frameLock (v : Nat) (s : State) : State :=
  let s := ((s.put FRAME_LOCK_CAPT (bits v 11 8)).put FRAME_LOCK_CAN (bits v 7 4)).put FRAME_LOCK_SRC (bits v 1 0)
  lockChecked true { s with tick := { s.tick with inbox := none, lastRef := none, period := 0 } }

/-- A write of `FRAME_LOCK_OFS` (R58). -/
def frameLockOfs (v : Nat) (s : State) : State :=
  let s := s.put FRAME_LOCK_OFS_OFS v
  if s.lockState = 2 then lockAcquire s else s

/-- A write of 1 to `RUN` (R53). -/
def setRun (s : State) : State := s.flag FRAME_CTL_RUN true

/-- A write of `FRAME_TT_POST`: the entry is read at the commit point (R65, R164). -/
def ttPost (i : Nat) (s : State) : State :=
  if s.frame.posts.contains i then s else { s with frame := { s.frame with posts := s.frame.posts ++ [i] } }

/-- `FRAME_LEN_WRITE` (R62). -/
def execFrameLenWrite (v : BitVec 7) (s : State) : Res := if s.clocks then .next (frameLen v.toNat s) else .next s

/-- `FRAME_MARGIN_WRITE` (R62). -/
def execFrameMarginWrite (v : BitVec 12) (s : State) : Res := if s.clocks then .next (frameMargin v.toNat s) else .next s

/-- `FRAME_CUTRES_WRITE` (R62). -/
def execFrameCutresWrite (v : BitVec 12) (s : State) : Res := if s.clocks then .next (frameCutres v.toNat s) else .next s

/-- `FRAME_LOCK_WRITE` (R55). -/
def execFrameLockWrite (v : Word) (s : State) : Res := if s.clocks then .next (frameLock v.toNat s) else .next s

/-- `FRAME_LOCK_OFS_WRITE` (R58). -/
def execFrameLockOfsWrite (v : Word) (s : State) : Res := if s.clocks then .next (frameLockOfs v.toNat s) else .next s

/-- `RUN` (R53). -/
def execRun (s : State) : Res := if s.clocks then .next (setRun s) else .next s

/-- `TT_POST` (R65). -/
def execTtPost (i : Fin 64) (s : State) : Res := if s.clocks then .next (ttPost i s) else .next s

end Sys2Proof.Machine
end

