-- ==== Sys2Proof/Machine/Vault.lean ====
section
/-!
DEFINITION. Sys2Proof/Machine/Vault.lean: what the keeper holds and does with flash (chapter 14): byte strings, identity,
the Punum container and its checks, the Touchline banks, activation and rollback at a start.
-/
namespace Sys2Proof.Machine

/-! ### Byte strings (R5, R557) -/

/-- `n` bytes of a number, the first the least significant. -/
def leBytes (n v : Nat) : List Byte := (List.range n).map (fun i => BitVec.ofNat 8 (v / 256 ^ i))

/-- `n` bytes of a number, the first the most significant. -/
def beBytes (n v : Nat) : List Byte := (leBytes n v).reverse

/-- The little-endian word at place `i` of a byte string. -/
def packWord (l : List Byte) (i : Nat) : Word :=
  l.getD (4 * i + 3) 0 ++ l.getD (4 * i + 2) 0 ++ l.getD (4 * i + 1) 0 ++ l.getD (4 * i) 0

/-- `n` words of a byte string. -/
def packWords (n : Nat) (l : List Byte) : List Word := (List.range n).map (packWord l)

/-- The digest of a byte string, as a byte string. -/
def digestBytes (l : List Byte) : List Byte := beBytes 32 (Config.sm3 l).toNat

/-! ### Identity (R556) -/

/-- The identity public key as a byte string. -/
def State.pubBytes (s : State) : List Byte := beBytes 64 (s.vault.pub.getD 0)
/-- The identity digest. -/
def State.idDigest (s : State) : List Byte := digestBytes s.pubBytes
/-- The machine ID: bits [31:0] of the identity digest. -/
def State.machineId (s : State) : Nat := (Config.sm3 s.pubBytes).toNat % 2 ^ 32

/-! ### Flash (R36, R568, R576) -/

def stagingBase : Nat := 0x41080000
def imageBase : Nat := 0x40080000

/-- Erases `n` bytes of flash from a base. -/
def eraseRange (a n : Nat) (s : State) : State :=
  { s with mem := Tab.keep (fun k => decide (k < a) || decide (a + n ≤ k)) s.mem }

/-- Nothing is programmed in `n` bytes from a base. -/
def State.blank (s : State) (a n : Nat) : Bool := s.mem.all (fun e => decide (e.1 < a) || decide (a + n ≤ e.1))

/-- Bases of the Touchline and calibration banks: the active one, or the inactive one. -/
def tlBank (b : Bool) : Nat := if b then 0x420C0000 else 0x42080000
def calBank (b : Bool) : Nat := if b then 0x42140000 else 0x42100000

/-- Staging is emptied (R576). -/
def emptyStaging (s : State) : State := eraseRange stagingBase 0x1000000 s

/-- Staging and the inactive banks are emptied (R579). -/
def emptyAll (s : State) : State :=
  eraseRange (calBank !s.calActive) 0x40000 (eraseRange (tlBank !s.tlActive) 0x40000 (emptyStaging s))

/-- Revision and floor of the active Touchline set (R565). -/
def State.tlRev (s : State) : Nat := s.wordN (tlBank s.tlActive + 8)
def State.tlSetFloor (s : State) : Nat := s.wordN (tlBank s.tlActive + 12)

/-! ### The container (R570–R572) -/

/-- A section of a container: kind, container offset, slot, length. -/
structure Sect where
  kind : Nat
  off : Nat
  slot : Nat
  len : Nat
deriving DecidableEq, Repr

/-- The section count in a manifest at `b`, and its sections. -/
def State.sectCount (s : State) (b : Nat) : Nat := bits (s.wordN (b + 4)) 31 16
def State.sect (s : State) (b i : Nat) : Sect :=
  let a := b + 64 + 48 * i
  { kind := s.wordN a % 256, off := s.wordN (a + 4), slot := s.wordN (a + 8), len := s.wordN (a + 12) }
def State.sects (s : State) (b : Nat) : List Sect := (List.range (min 64 (s.sectCount b))).map (s.sect b)

/-- The length of a manifest: header, section table, signature block. -/
def State.manifestLen (s : State) (b : Nat) : Nat := 64 + 48 * min 64 (s.sectCount b) + 192

/-- Where a section's data go at the download (R571). -/
def State.sectBase (s : State) (x : Sect) : Nat :=
  if x.kind = 5 then tlBank !s.tlActive else if x.kind = 6 then calBank !s.calActive else stagingBase + x.slot

/-- The flash address of byte `p` of the container being downloaded; none for a byte of no section. -/
def State.dlDest (s : State) (p : Nat) : Option Nat :=
  if p < 64 ∨ p < s.manifestLen stagingBase then some (stagingBase + p)
  else match (s.sects stagingBase).find? (fun x => decide (x.off ≤ p) && decide (p < x.off + x.len)) with
    | some x => some (s.sectBase x + (p - x.off))
    | none => none

/-- Programs one downloaded byte; a sector is erased when its first byte comes (R576). -/
def dlByte (p : Nat) (b : Byte) (s : State) : State :=
  match s.dlDest p with
  | some a => if 0x40000000 ≤ a ∧ a < 0x42180000 then
      ((if a % 65536 = 0 then eraseRange a 65536 s else s)).setByte a b else s
  | none => s

/-- Programs downloaded bytes from container offset `p` on. -/
def dlBytes (p : Nat) : List Byte → State → State
  | [], s => s
  | b :: l, s => dlBytes (p + 1) l (dlByte p b s)

/-- A section of kinds 1–4, which belong to the image. -/
def Sect.image (x : Sect) : Bool := decide (1 ≤ x.kind) && decide (x.kind ≤ 4)

/-- The length limit of a kind (R571). -/
def sectLimit (k : Nat) : Nat :=
  match k with
  | 1 => 0xFF0000 | 2 => 12288 | 3 => 6144 | 4 => 131072 | 5 => 8448 | 6 => 262144 | 7 => 524288 | _ => 0

/-- Sections whose slots do not overlap, pairwise. -/
def slotsApart : List Sect → Bool
  | [] => true
  | x :: l => l.all (fun y => decide (x.slot + x.len ≤ y.slot) || decide (y.slot + y.len ≤ x.slot)) && slotsApart l

/-- The sections satisfy R571 and R572. -/
def sectsOk (l : List Sect) : Bool :=
  let img := l.filter Sect.image
  let n (k : Nat) := l.countP (fun x => x.kind == k)
  l.all (fun x => decide (1 ≤ x.kind) && decide (x.kind ≤ 7) && decide (x.len ≤ sectLimit x.kind) && x.slot % 65536 == 0) &&
  img.all (fun x => decide (0x10000 ≤ x.slot) && decide (x.slot + x.len ≤ 0x1000000)) && slotsApart img &&
  (img.isEmpty || (n 2 == 1 && n 3 == 1 && n 4 == 1)) &&
  (n 7 == 0 || l.length == 1) && l.all (fun x => x.kind != 7 || x.slot == 0x100000)

/-- The header satisfies R570 and R572. -/
def State.headerOk (s : State) : Bool :=
  let w (i : Nat) := s.wordN (stagingBase + i)
  let n := s.sectCount stagingBase
  w 0 == 0x4D554E50 && w 4 % 65536 == 1 && decide (1 ≤ n) && decide (n ≤ 64) && decide (w 8 ≤ 17 * 1048576) &&
    decide (s.vault.imgFloor ≤ w 12) && decide (w 16 ≤ w 12) && (w 20 == 0 || w 20 == s.machineId)

/-- The 64 KB sectors that sections of kinds 1–4 occupy; the manifest stands in sector 0. -/
def sectorsOf (l : List Sect) : List Nat :=
  let img := l.filter Sect.image
  if img.isEmpty then []
  else 0 :: (List.range 256).filter (fun i => img.any (fun x =>
    decide (0 < x.len) && decide (x.slot < (i + 1) * 65536) && decide (i * 65536 < x.slot + x.len)))

/-- The manifest of the container in staging. -/
def State.stagedManifest (s : State) : Manifest :=
  let l := s.sects stagingBase
  { version := s.wordN (stagingBase + 12), floor := s.wordN (stagingBase + 16), patch := l.any (fun x => x.kind == 7),
    sectors := sectorsOf l,
    tl := if l.any (fun x => x.kind == 5) then
        some (s.wordN (tlBank (!s.tlActive) + 8), s.wordN (tlBank (!s.tlActive) + 12)) else none,
    cal := l.any (fun x => x.kind == 6) }

/-! ### Activation and rollback (R576–R582) -/

/-- Rebuilds the memory with every key moved. -/
def moveMem (f : Nat → Nat) (s : State) : State :=
  { s with mem := s.mem.foldl (fun m e => Tab.set memDefault m (f e.1) e.2) [] }

/-- Swaps one 64 KB sector between the running image and staging (R578). -/
def swapSector (i : Nat) (s : State) : State :=
  let a := imageBase + 65536 * i
  let b := stagingBase + 65536 * i
  moveMem (fun k => if a ≤ k ∧ k < a + 65536 then k - a + b else if b ≤ k ∧ k < b + 65536 then k - b + a else k) s

/-- The sectors an activation swaps: the union of the old and the new extent, none where the container has no image. -/
def Vault.extent (v : Vault) : List Nat :=
  if v.staged.sectors.isEmpty then []
  else (List.range 256).filter (fun i => v.staged.sectors.contains i || v.running.sectors.contains i)

/-- The sectors still to be swapped, in the order of R578. -/
def Vault.toSwap (v : Vault) : List Nat := (if v.reverse then v.extent.reverse else v.extent).drop v.swapped

/-- Copies a PATCH into the loader patch area (R578). -/
def copyPatch (s : State) : State :=
  let src := stagingBase + 0x100000
  let cells := s.mem.filter (fun e => decide (src ≤ e.1) && decide (e.1 < src + 0x80000))
  let s := eraseRange 0x40000000 0x80000 s
  { s with mem := cells.foldl (fun m e => Tab.set memDefault m (e.1 - src + 0x40000000) e.2) s.mem }

/-- The bank selectors of an activated TLINE or CAL flip. -/
def flipBanks (s : State) : State :=
  let m := s.vault.staged
  { s with tlActive := s.tlActive != m.tl.isSome, calActive := s.calActive != m.cal }

/-- The end of an activation (R576): PROBATION, or NONE for a PATCH; the end of a rollback: NONE, staging empty, source 435. -/
def finishActivation (s : State) : State :=
  let s := flipBanks s
  let v := s.vault
  if v.reverse then
    report 435 (emptyStaging { s with vault := { v with phase := 0, reverse := false, swapped := 0, fails := 0, staged := {} } })
  else if v.staged.patch then { copyPatch s with vault := { v with phase := 0, swapped := 0, staged := {} } }
  else { s with vault := { v with phase := 4, swapped := 0, fails := 0 } }

/-- A start in ACTIVATING (R578, R581): `cut` sectors are swapped before a loss of supply ends the start; without one the
activation is completed. The first component says that the start goes on. -/
def activateAtStart (cut : Option Nat) (s : State) : Bool × State :=
  let s := if s.vault.swapped = 0 then s else report 434 s
  let l := s.vault.toSwap
  match cut with
  | some n =>
    if n < l.length then
      let s := forEach (l.take n) swapSector s
      (false, { s with vault := { s.vault with swapped := s.vault.swapped + n } })
    else (true, finishActivation (forEach l swapSector s))
  | none => (true, finishActivation (forEach l swapSector s))

/-- A start in PROBATION (R576, R580): `FAILS` 3 turns it into a rollback, else it is counted. -/
def probationStart (s : State) : State :=
  if 3 ≤ s.vault.fails then { s with vault := { s.vault with phase := 3, reverse := true, swapped := 0 } }
  else
    let s := if s.vault.fails = 0 then s else report 436 s
    { s with vault := { s.vault with fails := s.vault.fails + 1 } }

/-- The identity is generated at the first start (R555). -/
def makeIdentity (s : State) : State :=
  if s.vault.pub.isSome || s.vault.damaged then s
  else { s.draw with vault := { s.vault with pub := some (s.free 512) } }

/-- The keeper at step 1 of a start (R555, R576–R581). The first component says that the start goes on. -/
def keeperStart (cut : Option Nat) (s : State) : Bool × State :=
  let s := makeIdentity s
  let v := s.vault
  let s := if v.phase = 1 ∧ v.dlDone = false then emptyStaging { s with vault := { v with phase := 0, staged := {} } } else s
  let s := if s.vault.phase = 4 then probationStart s else s
  if s.vault.phase = 3 then
    let r := activateAtStart cut s
    if r.1 && r.2.vault.phase == 4 then (true, probationStart r.2) else r
  else (true, s)

/-- What a CONFIRM does (R579). -/
def confirmImage (s : State) : State :=
  let v := s.vault
  let v := { v with imgFloor := max v.imgFloor v.staged.floor, tlFloor := max v.tlFloor s.tlSetFloor,
                    running := if v.staged.sectors.isEmpty then v.running else v.staged,
                    phase := 0, fails := 0, staged := {} }
  emptyAll { s with vault := v }

/-- The running image version: in PROBATION that of the container under trial. -/
def State.imageVersion (s : State) : Nat :=
  let v := s.vault
  if v.phase = 4 ∧ v.staged.sectors ≠ [] then v.staged.version else v.running.version

/-- What a read of `KMB_INFO`, `KMB_VER`, `KMB_TLREV` shows: the keeper's records. -/
def showKeeper (s : State) : State :=
  let v := s.vault
  let s := (s.put KMB_INFO_OWNER (if v.owner.isSome then 1 else 0)).flag KMB_INFO_ID_OK v.pub.isSome
  let s := (s.flag KMB_INFO_TOKEN s.keeper.tokenEnd.isSome).put KMB_INFO_PHASE v.phase
  let s := (s.flag KMB_INFO_DIR (v.phase == 3 && v.reverse)).flag KMB_INFO_DL_DONE (v.phase == 1 && v.dlDone)
  let s := (s.put KMB_INFO_FAILS v.fails).put KMB_INFO_EPOCH v.epoch
  (s.put KMB_VER_VER s.imageVersion).put KMB_TLREV_REV s.tlRev

end Sys2Proof.Machine
end

