-- ==== Sys2Proof/Machine/Keeper.lean ====
section
/-!
DEFINITION. Sys2Proof/Machine/Keeper.lean: the keeper's commands (chapter 14): the mailbox, service port sessions, ownership,
download, activation, debug tokens, attestation, the TRNG.
-/
namespace Sys2Proof.Machine

/-- The keeper runs (R587). -/
def State.keeperOn (s : State) : Bool := s.clocks

def State.setKeeper (s : State) (k : Keeper) : State := { s with keeper := k }
def State.setVault (s : State) (v : Vault) : State := { s with vault := v }

/-- Ownership changes (R559, R560): the owner record is replaced. -/
def setOwner (key epoch : Nat) (s : State) : State :=
  report 438 (s.setVault { s.vault with owner := some key, epoch := epoch, starts := 0 })

/-- ABANDON is permitted (R553, R576). -/
def State.mayAbandon (s : State) : Bool := s.vault.phase == 1 || s.vault.phase == 2 || s.vault.phase == 4

/-- ABANDON (R576, R577). -/
def abandonUpdate (s : State) : State :=
  let v := s.vault
  if v.phase = 1 then
    emptyStaging ({ s with vault := { v with phase := 0, dlDone := false, verifyAsked := false, staged := {} },
                           keeper := { s.keeper with verifying := false, verifyFor := none } })
  else if v.phase = 2 then s.setVault { v with phase := 0, staged := {} }
  else s.setVault { v with phase := 3, reverse := true, swapped := 0 }

/-- CONFIRM is permitted: in PROBATION, after the first frame of the start, outside SAFE (R553, R579). -/
def State.mayConfirm (s : State) : Bool := s.vault.phase == 4 && s.frame.started && !s.ump.safe

/-! ### The mailbox (R552–R554, R518, R519) -/

/-- Writes a response of `n` bytes. -/
def mbxRespond (n : Nat) (l : List Word) (s : State) : State :=
  (overN l.length (fun i s => s.put (KMB_RSP_W i) (l.getD i 0).toNat) s).put KMB_STAT_RSP_LEN n

/-- The command under way ends (R552): `RESULT`, `BUSY` 0, `KMB_SEQ` + 1, interrupt bit 2; source 430 for results 1, 2, 7. -/
def mbxEnd (result : Nat) (s : State) : State :=
  let s := (s.put KMB_STAT_RESULT result).flag KMB_STAT_BUSY false
  let s := if result = 0 then s else s.put KMB_STAT_RSP_LEN 0
  let s := (s.wrap KMB_SEQ_SEQ).setKeeper { s.keeper with cmd := none }
  let s := raiseAll 2 s
  if result = 1 ∨ result = 2 ∨ result = 7 then report 430 s else if result = 3 then report 431 s else s

/-- Issues a command; while `BUSY` is 1 a write of `GO` starts nothing. -/
def mbxIssue (r : KmbReq) (op len : Nat) (s : State) : State :=
  if s.on KMB_STAT_BUSY || !s.keeperOn then s
  else
    let s := ((s.put KMB_CMD_OP op).put KMB_CMD_LEN len).flag KMB_STAT_BUSY true
    s.setKeeper { s.keeper with cmd := some (r, s.now) }

/-- Free words for random data. -/
def randomWords : Nat → State → List Word × State
  | 0, s => ([], s)
  | n + 1, s =>
    let r := randomWords n s
    (r.1 ++ [BitVec.ofNat 32 (r.2.free 32)], r.2.draw)

/-- TOKEN_ENROL (R518, R519, R554): the record is checked, the counter advances, and the token's answer decides. -/
def enrolToken (idx zone token epoch count : Nat) (sig valid : Bool) (codes : Nat) (s : State) : State :=
  let k := s.accKept
  if s.vault.owner.isNone then mbxEnd 4 s
  else if !sig || epoch != s.vault.epoch || count != k.life then mbxEnd 3 s
  else if 64 ≤ k.life then mbxEnd 5 (report 418 s)
  else if 7 < idx ∨ 3 < zone ∨ (tget none k.tokens idx).isSome then mbxEnd 4 s
  else
    let s := { s with accKept := { k with life := k.life + 1 } }
    let s := if k.life + 1 = 64 then report 439 s else s
    if valid && decide (s.get (ACC_ZONE_MIN zone) + 40 ≤ s.strength zone codes) then
      mbxEnd 0 { s with accKept := { s.accKept with tokens := tset none s.accKept.tokens idx (some { id := token }) } }
    else mbxEnd 7 s

/-- TOKEN_REVOKE (R519, R554). -/
def revokeToken (idx token epoch : Nat) (sig : Bool) (s : State) : State :=
  let k := s.accKept
  if s.vault.owner.isNone then mbxEnd 4 s
  else if !sig || epoch != s.vault.epoch || !(tget none k.tokens idx).any (fun x => x.id == token) then mbxEnd 3 s
  else mbxEnd 0 { s with accKept := { k with tokens := tset none k.tokens idx none } }

/-- Carries out a mailbox command (R553). -/
def mbxDo (r : KmbReq) (valid : Bool) (codes : Nat) (s : State) : State :=
  match r with
  | .identity =>
    if s.vault.pub.isSome then
      mbxEnd 0 (mbxRespond 68 (packWords 16 s.pubBytes ++ [BitVec.ofNat 32 s.machineId]) s)
    else mbxEnd 4 s
  | .random n =>
    if n = 0 ∨ 256 < n then mbxEnd 5 s
    else
      let w := randomWords ((n + 3) / 4) s
      mbxEnd 0 (mbxRespond n w.1 w.2)
  | .enrol idx zone token epoch count sig => enrolToken idx zone token epoch count sig valid codes s
  | .revoke idx token epoch sig => revokeToken idx token epoch sig s
  | .confirm => if s.mayConfirm then mbxEnd 0 (confirmImage s) else mbxEnd 4 s
  | .abandon => if s.mayAbandon then mbxEnd 0 (abandonUpdate s) else mbxEnd 4 s
  | .bad result => mbxEnd result s

/-- The command needs random data (R550). -/
def needsRandom : KmbReq → Bool
  | .random _ => true
  | _ => false

/-- `GET_IDENTITY`, `GET_RANDOM`, `TOKEN_ENROL`, `TOKEN_REVOKE`, `CONFIRM`, `ABANDON` (R552, R553): the command is issued. -/
def execGetIdentity (t : Nat) (s : State) : Res := .next (mbxIssue .identity 1 0 (s.at t))
def execGetRandom (t : Nat) (count : BitVec 32) (s : State) : Res :=
  let s := s.at t
  if s.on KMB_STAT_BUSY then .next s
  else .next (mbxIssue (.random count.toNat) 2 4 (s.put (KMB_ARG_W 0) count.toNat))
def execTokenEnrol (t : Nat) (idx zone : BitVec 8) (token epoch count : BitVec 32) (sig : Bool) (s : State) : Res :=
  let s := s.at t
  .next (mbxIssue (.enrol idx.toNat zone.toNat token.toNat epoch.toNat count.toNat sig) 3 (s.get KMB_CMD_LEN) s)
def execTokenRevoke (t : Nat) (idx : BitVec 8) (token epoch : BitVec 32) (sig : Bool) (s : State) : Res :=
  let s := s.at t
  .next (mbxIssue (.revoke idx.toNat token.toNat epoch.toNat sig) 4 (s.get KMB_CMD_LEN) s)
def execConfirm (t : Nat) (s : State) : Res := .next (mbxIssue .confirm 5 0 (s.at t))
def execAbandon (t : Nat) (s : State) : Res := .next (mbxIssue .abandon 6 0 (s.at t))

/-- A write of `KMB_CMD` with `GO` 1: the command its `OP`, `LEN` and the arguments name (R553). -/
def mbxDecode (op len : Nat) (s : State) : KmbReq :=
  let args := (List.range 256).map (fun i => BitVec.ofNat 32 (s.get (KMB_ARG_W i)))
  let e (n : Nat) := Config.enrolField n args
  let r (n : Nat) := Config.revokeField n args
  if op = 1 then (if len = 0 then .identity else .bad 2)
  else if op = 2 then (if len = 4 then .random (s.get (KMB_ARG_W 0)) else .bad 2)
  else if op = 3 then
    if e 6 ≠ len then .bad 2
    else .enrol (e 0 % 256) (e 1 % 256) (e 2 % 2 ^ 32) (e 3 % 2 ^ 32) (e 4 % 2 ^ 32) (e 5 != 0)
  else if op = 4 then
    if r 4 ≠ len then .bad 2 else .revoke (r 0 % 256) (r 1 % 2 ^ 32) (r 2 % 2 ^ 32) (r 3 != 0)
  else if op = 5 then (if len = 0 then .confirm else .bad 2)
  else if op = 6 then (if len = 0 then .abandon else .bad 2)
  else .bad 1

/-- `MAILBOX_COMPLETE` (R552, R553): the keeper ends the command under way, unless it waits for random data. -/
def execMailboxComplete (t : Nat) (valid : Bool) (codes : BitVec 48) (s : State) : Res :=
  let s := s.at t
  match s.keeper.cmd with
  | some c => if !s.keeperOn || (needsRandom c.1 && s.keeper.trngOff) then .next s
              else .next (mbxDo c.1 valid codes.toNat s)
  | none => .next s

/-- `ENTROPY` (R550): a command that has waited 50 ms for random data. -/
def execEntropy (t : Nat) (s : State) : Res :=
  let s := s.at t
  let s := s.setKeeper { s.keeper with waitSvc := s.keeper.waitSvc.filter (fun w => decide (s.now < w.2.2.2 + ms 50)) }
  match s.keeper.cmd with
  | some c => if needsRandom c.1 && s.keeper.trngOff && decide (c.2 + ms 50 ≤ s.now) then .next (mbxEnd 6 s) else .next s
  | none => .next s

/-! ### The service port (R573–R575) -/

/-- `CAN12` is on the bus and the keeper runs. -/
def State.svcHears (s : State) : Bool :=
  s.keeperOn && s.canRuns 12 && (s.canState 12 == 2 || s.canState 12 == 3)

/-- The session that is open: one that 10 s without a request have not closed (R574). -/
def State.session (s : State) : Option Session :=
  s.keeper.session.bind (fun x => if s.now < x.heard + sec 10 then some x else none)

/-- Fragment `i` of a reply: `OP` + 0x80, `SEQ`, index, status, 60 payload bytes (R573). -/
def replyFrame (op tool seq status i : Nat) (p : List Byte) : TxFrame :=
  let b := [BitVec.ofNat 8 (op + 0x80), BitVec.ofNat 8 seq, BitVec.ofNat 8 i, BitVec.ofNat 8 status] ++ (p.drop (60 * i)).take 60
  { ide := true, fdf := true, brs := true, id := 0x1F7E0080 + tool, dlc := 15, data := packWords 16 b }

/-- Puts a reply into the keeper queue. -/
def reply (op tool seq status : Nat) (p : List Byte) (s : State) : State :=
  let n := max 1 ((p.length + 59) / 60)
  s.modCan 12 (fun x => { x with keeper := x.keeper ++ (List.range n).map (fun i => replyFrame op tool seq status i p) })

/-- A request inside a session: BUSY to another tool, STATE without a session, else `f` carries it out. -/
def serve (op tool seq t : Nat) (f : State → State) (s : State) : Res :=
  let s := s.at t
  if !s.svcHears then .next s
  else match s.session with
    | none => .next (reply op tool seq 4 [] s)
    | some x =>
      if x.tool ≠ tool then .next (reply op tool seq 6 [] s)
      else .next (f (s.setKeeper { s.keeper with session := some { x with heard := s.now } }))

/-- The answer to a request that needs random data: HELLO's session and nonce (R574), or a nonce for a debug token (R584). -/
def answerRandom (op tool seq : Nat) (s : State) : State :=
  if op = 0x10 then
    let nonce := s.free 128
    let s := s.draw.setKeeper { s.keeper with session := some { tool := tool, nonce := nonce, heard := s.now } }
    let v := s.vault
    reply op tool seq 0 (s.idDigest ++ [if v.owner.isSome then 1 else 0, BitVec.ofNat 8 v.phase] ++ leBytes 4 v.epoch ++
      leBytes 16 nonce) s
  else
    let nonce := s.free 64
    let s := s.draw.setKeeper { s.keeper with nonces := s.keeper.nonces ++ [nonce] }
    reply op tool seq 0 (leBytes 8 nonce) s

/-- Answers at once, or waits while TRNG output is stopped (R550). -/
def needRandom (op tool seq : Nat) (s : State) : State :=
  if s.keeper.trngOff then s.setKeeper { s.keeper with waitSvc := s.keeper.waitSvc ++ [(op, tool, seq, s.now)] }
  else answerRandom op tool seq s

/-- `HELLO` (R574): opens a session, unless another tool's is open. -/
def execHello (tool : Fin 128) (seq : BitVec 8) (t : Nat) (s : State) : Res :=
  let s := s.at t
  if !s.svcHears then .next s
  else if s.session.any (fun x => x.tool != tool.val) then .next (reply 0x10 tool seq.toNat 6 [] s)
  else .next (needRandom 0x10 tool seq.toNat s)

/-- `SERVICE_GET_IDENTITY` (R573). -/
def execServiceGetIdentity (tool : Fin 128) (seq : BitVec 8) (t : Nat) (s : State) : Res :=
  serve 0x12 tool seq.toNat t (fun s => reply 0x12 tool seq.toNat 0 (s.pubBytes ++ leBytes 4 s.machineId) s) s

/-! ### Attestation (R586) -/

/-- A measurement of flash, 0 when nothing is programmed. -/
def State.measured (s : State) (a n : Nat) : List Byte := if s.blank a n then leBytes 32 0 else digestBytes (s.bytes a n)

/-- The bytes of the report before its signature. -/
def State.attestBody (s : State) (nonce : Nat) : List Byte :=
  let v := s.vault
  let own := match v.owner with
    | some k => digestBytes (beBytes 64 k)
    | none => leBytes 32 0
  leBytes 4 1 ++ leBytes 4 (0xA0 + 256 * (1 + Config.orderCode % 2)) ++ s.idDigest ++ own ++ leBytes 4 v.epoch ++
    leBytes 4 (v.phase * 2 ^ 24 + v.fails * 2 ^ 16 + s.keeper.perms * 2 ^ 8) ++
    leBytes 4 s.imageVersion ++ leBytes 4 v.imgFloor ++ leBytes 4 s.tlRev ++ leBytes 4 v.tlFloor ++
    leBytes 4 v.starts ++ leBytes 4 0 ++ leBytes 8 s.now ++ leBytes 16 nonce ++
    digestBytes (s.bytes 0x40000000 0x80000) ++ digestBytes (s.bytes imageBase (s.manifestLen imageBase)) ++
    digestBytes (s.bytes (tlBank s.tlActive) 8448) ++ digestBytes (s.bytes (calBank s.calActive) 0x40000) ++
    s.measured stagingBase 0x1000000 ++
    (List.range 3).flatMap (fun i => beBytes 32 (s.keeper.measures.getD i 0))

/-- `ATTEST` (R586): the report, signed by the identity key. -/
def execAttest (tool : Fin 128) (seq : BitVec 8) (t : Nat) (nonce : BitVec 128) (s : State) : Res :=
  serve 0x11 tool seq.toNat t (fun s =>
    let b := s.attestBody nonce.toNat
    reply 0x11 tool seq.toNat 0 (b ++ beBytes 64 (Config.sm2Sign s.drawn b).toNat) s.draw) s

/-! ### Ownership (R559, R560) -/

/-- `ENROL_OWNER` (R559): only while UNOWNED. -/
def execEnrolOwner (tool : Fin 128) (seq : BitVec 8) (t : Nat) (key : BitVec 512) (sig : Bool) (s : State) : Res :=
  serve 0x20 tool seq.toNat t (fun s =>
    if s.vault.owner.isSome || s.vault.damaged then reply 0x20 tool seq.toNat 4 [] s
    else if !sig then reply 0x20 tool seq.toNat 3 [] (report 431 s)
    else reply 0x20 tool seq.toNat 0 [] (setOwner key.toNat 1 s)) s

/-- `TRANSFER` (R560): only while OWNED and in phase NONE, with the next epoch and both signatures. -/
def execTransfer (tool : Fin 128) (seq : BitVec 8) (t : Nat) (key : BitVec 512) (epoch : BitVec 32) (sigOld sigNew : Bool)
    (s : State) : Res :=
  serve 0x21 tool seq.toNat t (fun s =>
    if s.vault.owner.isNone || s.vault.phase != 0 then reply 0x21 tool seq.toNat 4 [] s
    else if !sigOld || !sigNew || epoch.toNat != s.vault.epoch + 1 then reply 0x21 tool seq.toNat 3 [] (report 431 s)
    else reply 0x21 tool seq.toNat 0 [] (endToken (setOwner key.toNat epoch.toNat s))) s

/-! ### Download and verification (R575, R576) -/

/-- `DL_START` (R576): NONE, VERIFIED or DOWNLOAD, no substitution running. -/
def execDlStart (tool : Fin 128) (seq : BitVec 8) (t : Nat) (len : BitVec 32) (s : State) : Res :=
  serve 0x30 tool seq.toNat t (fun s =>
    if 3 ≤ s.vault.phase ∨ s.sub.op ≠ 0 then reply 0x30 tool seq.toNat 4 [] s
    else if 17 * 1048576 < len.toNat then reply 0x30 tool seq.toNat 5 [] s
    else
      let v := { s.vault with phase := 1, dlLen := len.toNat, dlNext := 0, dlDone := len.toNat == 0, verifyAsked := false, staged := {} }
      reply 0x30 tool seq.toNat 0 [] { s with
        vault := v
        keeper := { s.keeper with offBad := false, verifying := false, verifyFor := none, dlOpen := true } }) s

/-- A reply to DL_DATA names the next expected offset, with status OFFSET once after a discarded frame (R575). -/
def dlReply (tool seq : Nat) (s : State) : State :=
  let st := if s.keeper.offBad then 8 else 0
  reply 0x31 tool seq st (leBytes 4 s.vault.dlNext) (s.setKeeper { s.keeper with offBad := false })

/-- Takes the bytes of a DL_DATA at the expected offset; those after the end of the container are dropped. -/
def dlTake (data : List Byte) (s : State) : State :=
  let v := s.vault
  let n := min data.length (v.dlLen - v.dlNext)
  let s := dlBytes v.dlNext (data.take n) s
  s.setVault { s.vault with dlNext := v.dlNext + n, dlDone := v.dlLen == v.dlNext + n }

/-- `DL_DATA` (R575). -/
def execDlData (tool : Fin 128) (seq : BitVec 8) (t : Nat) (off : BitVec 32) (data : List Byte) (s : State) : Res :=
  serve 0x31 tool seq.toNat t (fun s =>
    let last := seq.toNat % 16 == 15
    if s.vault.phase != 1 || s.vault.dlDone || !s.keeper.dlOpen then (if last then reply 0x31 tool seq.toNat 4 (leBytes 4 s.vault.dlNext) s else s)
    else if data.length ≠ 56 then
      let s := report 432 s
      if last then reply 0x31 tool seq.toNat 2 (leBytes 4 s.vault.dlNext) s else s
    else if off.toNat ≠ s.vault.dlNext then
      let s := report 432 (s.setKeeper { s.keeper with offBad := true })
      if last then dlReply tool seq.toNat s else s
    else
      let s := dlTake data s
      if last || s.vault.dlDone then dlReply tool seq.toNat s else s) s

/-- `VERIFY` (R572): starts the verification of a complete download; the reply comes with its end. -/
def execVerify (tool : Fin 128) (seq : BitVec 8) (t : Nat) (s : State) : Res :=
  serve 0x32 tool seq.toNat t (fun s =>
    if s.vault.phase != 1 || !s.vault.dlDone then reply 0x32 tool seq.toNat 4 [] s
    else { s with vault := { s.vault with verifyAsked := true },
                  keeper := { s.keeper with verifying := true, verifyFor := some (tool.val, seq.toNat) } }) s

/-- Replies to the VERIFY that asked, if one did. -/
def verifyReply (status : Nat) (s : State) : State :=
  match s.keeper.verifyFor with
  | some p => reply 0x32 p.1 p.2 status [] (s.setKeeper { s.keeper with verifying := false, verifyFor := none })
  | none => s.setKeeper { s.keeper with verifying := false }

/-- The checks of R572 and, of a TLINE section, R567. -/
def State.containerOk (s : State) (sig digests tlSet : Bool) : Bool :=
  sig && digests && s.headerOk && sectsOk (s.sects stagingBase) &&
    match s.stagedManifest.tl with
    | some p => tlSet && decide (s.vault.tlFloor ≤ p.1)
    | none => true

/-- `VERIFY_COMPLETE` (R572, R576): VERIFIED, or NONE with staging empty and source 433. After a start the verification
that had been asked for runs again once the first frame has begun (R581). -/
def execVerifyComplete (t : Nat) (sig digests tlSet : Bool) (s : State) : Res :=
  let s := s.at t
  let runs := s.keeper.verifying || (s.vault.verifyAsked && s.frame.started)
  if !s.keeperOn || !runs || s.vault.phase != 1 || !s.vault.dlDone then .next s
  else if s.containerOk sig digests tlSet then
    .next (verifyReply 0 (s.setVault { s.vault with phase := 2, verifyAsked := false, staged := s.stagedManifest }))
  else
    let s := emptyStaging (s.setVault { s.vault with phase := 0, dlDone := false, verifyAsked := false, staged := {} })
    let s := report 433 (if sig then s else report 431 s)
    if sig then .next (verifyReply (1 + s.free 8 % 8) s.draw) else .next (verifyReply 3 s)

/-! ### Activation (R576, R577, R579) -/

/-- Accepts an activation in a direction: the update record is written, the reset is due 10 ms later. -/
def acceptActivation (op tool seq : Nat) (rev : Bool) (s : State) : State :=
  if s.pwr.ign then reply op tool seq 7 [] s
  else
    let s := { s with vault := { s.vault with phase := 3, reverse := rev, swapped := 0 },
                      keeper := { s.keeper with resetAt := some (s.now + ms 10) } }
    reply op tool seq 0 [] s

/-- `ACTIVATE` (R577). -/
def execActivate (tool : Fin 128) (seq : BitVec 8) (t : Nat) (s : State) : Res :=
  serve 0x33 tool seq.toNat t (fun s =>
    if s.vault.phase = 2 then acceptActivation 0x33 tool seq.toNat false s else reply 0x33 tool seq.toNat 4 [] s) s

/-- `ROLLBACK` (R577). -/
def execRollback (tool : Fin 128) (seq : BitVec 8) (t : Nat) (s : State) : Res :=
  serve 0x35 tool seq.toNat t (fun s =>
    if s.vault.phase = 4 then acceptActivation 0x35 tool seq.toNat true s else reply 0x35 tool seq.toNat 4 [] s) s

/-- `SERVICE_CONFIRM` (R579). -/
def execServiceConfirm (tool : Fin 128) (seq : BitVec 8) (t : Nat) (s : State) : Res :=
  serve 0x34 tool seq.toNat t (fun s =>
    if s.mayConfirm then reply 0x34 tool seq.toNat 0 [] (confirmImage s) else reply 0x34 tool seq.toNat 4 [] s) s

/-! ### Debug tokens (R584, R585) -/

/-- A token is acceptable (R584), with a nonce that serves its first presentation. -/
def State.tokenOk (s : State) (k : DebugToken) : Bool :=
  k.format == 1 && k.machine == s.machineId && (s.keeper.nonces.contains k.nonce || s.keeper.portNonce == k.nonce) &&
    k.epoch == s.vault.epoch && s.vault.owner.isSome && decide (k.perms < 8) && decide (1 ≤ k.life) &&
    decide (k.life ≤ 1440) && k.sig

/-- A token is presented: its nonce is used up; it is accepted, or refused with source 431. -/
def presentToken (k : DebugToken) (s : State) : Bool × State :=
  let ok := s.tokenOk k
  let port := s.keeper.portNonce == k.nonce
  let s := { s with keeper := { s.keeper with nonces := s.keeper.nonces.filter (fun n => n != k.nonce) } }
  let s := if port then s.draw.setKeeper { s.keeper with portNonce := s.free 64 } else s
  if ok then
    let s := s.setKeeper { s.keeper with perms := k.perms, tokenEnd := some (s.now + sec (60 * k.life)) }
    (true, report 437 (s.flag DBG_STAT_TOKEN true))
  else (false, report 431 s)

/-- `DBG_NONCE` (R584). -/
def execDbgNonce (tool : Fin 128) (seq : BitVec 8) (t : Nat) (s : State) : Res :=
  serve 0x40 tool seq.toNat t (needRandom 0x40 tool seq.toNat) s

/-- `DBG_TOKEN` (R584). -/
def execDbgToken (tool : Fin 128) (seq : BitVec 8) (t : Nat) (tok : DebugToken) (s : State) : Res :=
  serve 0x41 tool seq.toNat t (fun s =>
    let r := presentToken tok s
    reply 0x41 tool seq.toNat (if r.1 then 0 else 3) [] r.2) s

/-- `TOKEN` (R584): the debug port's instruction. -/
def execPortToken (t : Nat) (tok : DebugToken) (s : State) : Res :=
  let s := s.at t
  if s.keeperOn then .next (presentToken tok s).2 else .next s

/-- `TOKEN_END` (R585): the token's lifetime has passed. -/
def execTokenEnd (t : Nat) (s : State) : Res :=
  let s := s.at t
  if s.keeper.tokenEnd.any (fun e => decide (e ≤ s.now)) then .next (endToken s) else .next s

/-- `SESSION_TIMEOUT` (R574): 10 s without a request from the tool. -/
def execSessionTimeout (t : Nat) (s : State) : Res :=
  let s := s.at t
  if s.keeper.session.any (fun x => decide (x.heard + sec 10 ≤ s.now)) then .next (s.setKeeper { s.keeper with session := none })
  else .next s

/-! ### The TRNG (R550) -/

/-- `TRNG_FAILURE`: output stops; source 429 reports. -/
def execTrngFailure (t : Nat) (s : State) : Res :=
  let s := s.at t
  if s.keeperOn then .next (report 429 (s.setKeeper { s.keeper with trngOff := true })) else .next s

/-- `TRNG_RESUME`: output resumes; requests that have waited less than 50 ms are answered. -/
def execTrngResume (t : Nat) (s : State) : Res :=
  let s := s.at t
  if !s.keeperOn || !s.keeper.trngOff then .next s
  else
    let w := s.keeper.waitSvc.filter (fun x => decide (s.now < x.2.2.2 + ms 50))
    let s := s.setKeeper { s.keeper with trngOff := false, waitSvc := [] }
    .next (forEach w (fun x s => answerRandom x.1 x.2.1 x.2.2.1 s) s)

end Sys2Proof.Machine
end

