-- ==== Sys2Proof/Machine/CovGrid.lean ====
section
/-!
DEFINITION. Sys2Proof/Machine/CovGrid.lean: the coverage grid (R310–R313), resident tiles and their blocks in coverage SRAM
(R343–R348), and the field store in flash (R349–R352).
-/
namespace Sys2Proof.Machine

/-! ### Cells and tiles (R310, R311) -/

/-- The cell size c in mm. -/
def State.cellMm (s : State) : Nat :=
  match s.get COV_FIELD_CFG_CELL with
  | 0 => 100 | 1 => 250 | 2 => 500 | _ => 1000

/-- The edge of a grid cell of a layer in mm. -/
def State.layerMm (s : State) (layer : Nat) : Nat := if layer = 2 then 2000 else s.cellMm

/-- Cells along a tile's edge, bits of a cell, bytes and blocks of a tile image, by layer. -/
def tileDim (layer : Nat) : Nat := if layer = 2 then 64 else 256
def cellBits (layer : Nat) : Nat := if layer = 0 then 2 else if layer = 1 then 1 else 8
def imageBytes (layer : Nat) : Nat := if layer = 0 then 16384 else if layer = 1 then 8192 else 4096
def tileBlocks (layer : Nat) : Nat := if layer = 0 then 4 else if layer = 1 then 2 else 1

/-- The number that names a tile of the open field. -/
def tileKey (layer tx ty : Nat) : Nat := layer * 65536 + ty * 256 + tx

/-- The key of the tile that holds cell (i, j) of a layer. -/
def cellTile (layer i j : Nat) : Nat := tileKey layer (i / tileDim layer) (j / tileDim layer)

/-- The place of cell (i, j) in its tile. -/
def cellPlace (layer i j : Nat) : Nat := tileDim layer * (j % tileDim layer) + i % tileDim layer

/-- Cells lie in the grid: tile coordinates to 255 (R310, R311). -/
def inGrid (layer : Nat) (i j : Int) : Bool :=
  decide (0 ≤ i) && decide (0 ≤ j) && decide (i < 256 * tileDim layer) && decide (j < 256 * tileDim layer)

/-- The value a cell of an absent tile reads as (R313). -/
def State.absentCell (s : State) (layer : Nat) : Nat := if layer = 1 then s.get COV_FIELD_CFG_EXCL_DEF else 0

/-- The value of a damaged cell (R348). -/
def damagedCell (layer : Nat) : Nat := if layer = 1 then 1 else 0

/-- A byte of an image whose cells all hold `v`. -/
def uniformByte (layer v : Nat) : Byte := BitVec.ofNat 8 (if layer = 0 then v * 0x55 else if layer = 1 then v * 0xFF else v)

/-- The key of the first byte of an SRAM block (R338). -/
def blockAddr (b : Nat) : Nat := 0x30000000 + b * 0x1000

/-- Cell number `k` of an image at an address. -/
def State.imageCell (s : State) (layer a k : Nat) : Nat :=
  let n := k * cellBits layer
  (s.byte (a + n / 8)).toNat / 2 ^ (n % 8) % 2 ^ cellBits layer

def State.tile (s : State) (e : Nat) : Option Tile := tget none s.cov.rt e
def State.setTile (s : State) (e : Nat) (t : Option Tile) : State :=
  { s with cov := { s.cov with rt := tset none s.cov.rt e t } }

/-- The entry of the resident tile table that holds a tile. -/
def State.residentOf (s : State) (key : Nat) : Option (Nat × Tile) :=
  s.cov.rt.findSome? (fun x => x.2.bind (fun t => if tileKey t.layer t.tx t.ty = key then some (x.1, t) else none))

/-- The open field has a stored copy of the tile. -/
def State.copyOf (s : State) (key : Nat) : Option Copy := tget none s.cov.dir key

/-- Cell number `k` of a resident tile. -/
def State.tileCell (s : State) (t : Tile) (k : Nat) : Nat :=
  if t.uniform then t.value else s.imageCell t.layer (blockAddr t.block) k

/-- A cell of a layer: its value, or none where its tile is stored but not resident. -/
def State.cell (s : State) (layer : Nat) (i j : Nat) : Option Nat :=
  let key := cellTile layer i j
  match s.residentOf key with
  | some (_, t) => some (s.tileCell t (cellPlace layer i j))
  | none => if (s.copyOf key).isSome then none else some (s.absentCell layer)

/-! ### Blocks (R343, R347) -/

/-- An SRAM block is taken by a resident tile. -/
def State.blockUsed (s : State) (b : Nat) : Bool :=
  s.cov.rt.any (fun x => x.2.any (fun t => !t.uniform && decide (t.block ≤ b) && decide (b < t.block + tileBlocks t.layer)))

/-- The lowest free aligned run of `n` blocks. -/
def State.freeRun (s : State) (n : Nat) : Option Nat :=
  ((List.range (2048 / n)).map (n * ·)).find? (fun b => (List.range n).all (fun k => !s.blockUsed (b + k)))

/-- Blocks in use, and blocks of dirty tiles. -/
def State.usedBlocks (s : State) : Nat :=
  s.cov.rt.foldl (fun a x => match x.2 with | some t => if t.uniform then a else a + tileBlocks t.layer | none => a) 0
def State.dirtyBlocks (s : State) : Nat :=
  s.cov.rt.foldl (fun a x => match x.2 with
    | some t => if t.dirty && !t.uniform then a + tileBlocks t.layer else a | none => a) 0

/-- The tile lies in the paging set's region (R345). -/
def State.inPaging (s : State) (t : Tile) : Bool :=
  let r := orOne (s.get COV_PAGE_CFG_RADIUS)
  let near (a b : Nat) := decide ((max a b) - (min a b) ≤ r)
  s.cov.paging.any (fun p => p.1 == t.layer && near p.2.1 t.tx && near p.2.2 t.ty)

/-- The clean tile outside the paging set that has gone longest without a paint or a read (R347). -/
def State.evictable (s : State) : Option Nat :=
  let l := s.cov.rt.filterMap (fun x => x.2.bind (fun t => if t.dirty || s.inPaging t then none else some (x.1, t.age)))
  (l.find? (fun x => l.all (fun y => decide (y.2 ≤ x.2)))).map (fun x => x.1)

/-- Evicts tiles until a run of `n` blocks is free, at most `fuel` of them. -/
def makeRoom (n : Nat) : Nat → State → Option Nat × State
  | 0, s => (s.freeRun n, s)
  | fuel + 1, s =>
    match s.freeRun n with
    | some b => (some b, s)
    | none =>
      match s.evictable with
      | some e => makeRoom n fuel (s.setTile e none)
      | none => (none, s)

/-- A free entry of the resident tile table, after an eviction where none is free. -/
def freeEntry (s : State) : Option Nat × State :=
  match (List.range 1024).find? (fun e => (s.tile e).isNone) with
  | some e => (some e, s)
  | none =>
    match s.evictable with
    | some e => (some e, s.setTile e none)
    | none => (none, s)

/-- Cell updates are lost (R346, R347). -/
def covLost (n src : Nat) (s : State) : State := report src (s.sat COV_STAT_LOST n)

/-- Writes the image of a uniform tile into blocks. -/
def fillImage (layer b v : Nat) (s : State) : State :=
  s.setBytes (blockAddr b) (List.replicate (imageBytes layer) (uniformByte layer v))

/-- The first change expands a uniform tile (R344); none when no blocks can be had. -/
def expandTile (e : Nat) (t : Tile) (s : State) : Option Tile × State :=
  if !t.uniform then (some t, s)
  else
    match makeRoom (tileBlocks t.layer) 1024 s with
    | (some b, s) =>
      let t := { t with uniform := false, block := b }
      (some t, (fillImage t.layer b t.value s).setTile e (some t))
    | (none, s) => (none, s)

/-- The coverage areas after one cell changes (R322). -/
def areaChange (old new : Nat) (s : State) : State :=
  let s := if 1 ≤ old ∧ old ≤ 3 then s.put (COV_AREA_CELLS (old - 1)) (s.get (COV_AREA_CELLS (old - 1)) - 1) else s
  if 1 ≤ new ∧ new ≤ 3 then s.wrap (COV_AREA_CELLS (new - 1)) else s

/-- Writes a cell of an expanded tile. -/
def putCell (t : Tile) (k v : Nat) (s : State) : State :=
  let w := cellBits t.layer
  let n := k * w
  let a := blockAddr t.block + n / 8
  let old := (s.byte a).toNat
  let sh := 2 ^ (n % 8)
  s.setByte a (BitVec.ofNat 8 (old - old / sh % 2 ^ w * sh + v * sh))

/-- Changes a cell of a resident tile. -/
def changeCell (e k v : Nat) (s : State) : State :=
  match s.tile e with
  | none => s
  | some t =>
    let old := s.tileCell t k
    let s := s.setTile e (some { t with age := 0 })
    if old = v then s
    else
      match expandTile e { t with age := 0 } s with
      | (none, s) => covLost 1 276 s
      | (some t, s) =>
        let s := putCell t k v s
        let s := s.setTile e (some { t with dirty := true, chg := t.chg + 1 })
        if t.layer = 0 then areaChange old v s else s

/-- The resident entry of an absent tile that has no stored copy: it enters as uniform (R345). -/
def enterUniform (layer tx ty : Nat) (s : State) : Option Nat × State :=
  match freeEntry s with
  | (some e, s) => (some e, s.setTile e (some { layer := layer, tx := tx, ty := ty, value := s.absentCell layer }))
  | (none, s) => (none, s)

/-- The resident entry of a tile, which enters where it has no stored copy. -/
def residentEntry (layer tx ty : Nat) (s : State) : Option Nat × State :=
  match s.residentOf (tileKey layer tx ty) with
  | some (e, _) => (some e, s)
  | none => if (s.copyOf (tileKey layer tx ty)).isSome then (none, s) else enterUniform layer tx ty s

/-- Sets a cell of a layer whose tile is not waiting for a page-in. -/
def setCell (layer i j v : Nat) (s : State) : State :=
  match residentEntry layer (i / tileDim layer) (j / tileDim layer) s with
  | (some e, s) => changeCell e (cellPlace layer i j) v s
  | (none, s) => covLost 1 276 s

/-- The cells of an image that hold value `v`, counted. -/
def State.imageCount (s : State) (layer a v : Nat) : Nat :=
  ((List.range (tileDim layer * tileDim layer)).filter (fun k => s.imageCell layer a k == v)).length

/-- The cells of a resident tile that hold value `v`. -/
def State.tileCount (s : State) (t : Tile) (v : Nat) : Nat :=
  if t.uniform then (if t.value = v then 65536 else 0) else s.imageCount t.layer (blockAddr t.block) v

/-- A tile whose cells have all become equal returns to uniform (R344). -/
def makeUniform (e : Nat) (s : State) : State :=
  match s.tile e with
  | some t =>
    let v := s.tileCell t 0
    if !t.uniform && (List.range (tileDim t.layer * tileDim t.layer)).all (fun k => s.tileCell t k == v) then
      s.setTile e (some { t with uniform := true, value := v, block := 0 })
    else s
  | none => s

/-! ### The field store (R349–R352) -/

/-- The key of block `b` of the field store partition. -/
def storeAddr (b : Nat) : Nat := 0x42180000 + b * 0x1000

/-- Record `n` of the directory half in use. -/
def State.dirWords (s : State) (n : Nat) : List Word := s.words (storeAddr (if s.store.half then 16 else 0) + 16 * n) 4

/-- A directory record (R350). -/
inductive Rec where
  | field (id : Nat) (cfg : Word) (e n : Word)
  | tile (id key : Nat) (uniform deleted : Bool) (value block : Nat) (seq : Nat) (crc : Word)
  | none
deriving DecidableEq, Repr

/-- Reads a record of four words. -/
def Rec.ofWords (l : List Word) : Rec :=
  let w (i : Nat) := l.getD i 0
  match wbits (w 0) 31 30 with
  | 1 => .field (wbits (w 0) 15 0) (w 1) (w 2) (w 3)
  | 2 => .tile (wbits (w 1) 31 16) (tileKey (wbits (w 0) 29 28) (wbits (w 0) 15 8) (wbits (w 0) 23 16))
      ((w 0).getLsbD 25) ((w 0).getLsbD 24) (wbits (w 0) 7 0) (wbits (w 1) 12 0) (w 2).toNat (w 3)
  | _ => .none

/-- The words of a tile record. -/
def tileRec (id layer tx ty : Nat) (uniform deleted : Bool) (value block seq : Nat) (crc : Word) : List Word :=
  let b (x : Bool) (k : Nat) := if x then 2 ^ k else 0
  [BitVec.ofNat 32 (2 * 2 ^ 30 + layer * 2 ^ 28 + b uniform 25 + b deleted 24 + ty * 2 ^ 16 + tx * 2 ^ 8 + value),
   BitVec.ofNat 32 (id * 65536 + block), BitVec.ofNat 32 seq, crc]

/-- The records of the directory, in order. -/
def State.records (s : State) : List (Nat × Rec) :=
  (List.range s.store.used).map (fun n => (n, Rec.ofWords (s.dirWords n)))

/-- The CRC-32 of an image in the store. -/
def State.storeCrc (s : State) (layer block : Nat) : Word := Config.crc32 (s.bytes (storeAddr block) (imageBytes layer))

/-- The valid copies of a field (R351): per tile the record with the highest sequence number, an image that fails its CRC
being passed over. -/
def State.copies (s : State) (id : Nat) : Tab (Option Copy) :=
  s.records.foldl (fun m x => match x.2 with
    | .tile f key uni del v b _ crc =>
      if f ≠ id then m
      else if del then tset none m key none
      else if uni || s.storeCrc (key / 65536) b == crc then tset none m key (some ⟨uni, v, b, crc⟩) else m
    | _ => m) []

/-- The IDs of the stored fields. -/
def State.fieldIds (s : State) : List Nat :=
  (s.records.filterMap (fun x => match x.2 with | .field id _ _ _ => some id | _ => none)).eraseDups

/-- A data block holds a valid image of some field. -/
def State.storeUsed (s : State) : List Nat :=
  (s.fieldIds.map (fun id => ((s.copies id).filterMap (fun x => x.2.bind (fun c =>
    if c.uniform then none else some ((List.range (tileBlocks (x.1 / 65536))).map (c.block + ·))))).flatten)).flatten

/-- Free data blocks: neither used nor waiting for erasure. -/
def State.storeFree (s : State) : List Nat :=
  let used := s.storeUsed
  ((List.range 6112).map (32 + ·)).filter (fun b => !used.contains b && !s.store.freed.contains b)

/-- The run of `n` free blocks that has gone longest since its erasure (R351). -/
def State.storeRun (s : State) (n : Nat) : Option Nat :=
  let free := s.storeFree
  let age (b : Nat) := ((List.range n).map (fun k => tget 0 s.store.erased (b + k))).foldl max 0
  let runs := (free.filter (fun b => b % n == 0 && (List.range n).all (fun k => free.contains (b + k))))
  runs.find? (fun b => runs.all (fun c => decide (age b ≤ age c)))

/-- Blocks are freed and wait for their erasure, a maintenance activity (R351, R601). -/
def freeBlocks (l : List Nat) (s : State) : State :=
  forEach l (fun b s => mntRequest 3 b .block s)
    { s with store := { s.store with freed := s.store.freed ++ l.filter (fun b => !s.store.freed.contains b) } }

/-- The live records: every field record and the valid tile record of each tile (R351). -/
def State.liveRecords (s : State) : List (List Word) :=
  s.records.filterMap (fun x => match x.2 with
    | .field _ _ _ _ => some (s.dirWords x.1)
    | .tile id key uni del v b _ crc =>
      if !del && tget none (s.copies id) key == some ⟨uni, v, b, crc⟩ then some (s.dirWords x.1) else none
    | .none => none)

/-- The live records move into the other half, and the full one is released for erasure (R351). -/
def compactDir (s : State) : State :=
  let l := s.liveRecords
  let old := if s.store.half then 16 else 0
  let new := 16 - old
  let s := s.setBytes (storeAddr new) (List.replicate 65536 0xFF)
  let s := s.setWords (storeAddr new) l.flatten
  let freed := s.store.freed.filter (fun b => !(decide (new ≤ b) && decide (b < new + 16)))
  let s := { s with store := { s.store with half := !s.store.half, used := l.length, freed := freed } }
  freeBlocks ((List.range 16).map (old + ·)) s

/-- Appends a record; false when the directory has no room even after the compaction. -/
def appendRec (l : List Word) (s : State) : Bool × State :=
  let s := if s.store.used = 4096 then compactDir s else s
  if s.store.used = 4096 then (false, s)
  else
    let a := storeAddr (if s.store.half then 16 else 0) + 16 * s.store.used
    (true, { s.setWords a l with store := { s.store with used := s.store.used + 1 } })

/-- The next sequence number. -/
def nextSeq (s : State) : State := { s with store := { s.store with seq := s.store.seq + 1 } }

/-- What the status registers show of residency and store (R360). -/
def covShow (s : State) : State :=
  let s := s.flag COV_STAT_DIRTY (s.cov.rt.any (fun x => x.2.any (fun t => t.dirty)))
  let s := (s.put COV_MEM_FREE_BLK (2048 - s.usedBlocks)).put COV_MEM_DIRTY_BLK s.dirtyBlocks
  (s.put COV_STORE_SEQ s.store.seq).put COV_FIELD_STAT_NFIELD s.fieldIds.length

/-- The old blocks of a stored copy. -/
def copyBlocks (key : Nat) (c : Option Copy) : List Nat :=
  match c with
  | some c => if c.uniform then [] else (List.range (tileBlocks (key / 65536))).map (c.block + ·)
  | none => []

/-- The open field. -/
def State.openField (s : State) : Nat := s.get COV_FIELD_STAT_ID

/-- Records a written copy: the tile record, the freed old blocks, the clean tile (R351). -/
def wroteBack (e : Nat) (t : Tile) (c : Copy) (s : State) : State :=
  let key := tileKey t.layer t.tx t.ty
  let s := nextSeq s
  let r := appendRec (tileRec s.openField t.layer t.tx t.ty c.uniform false c.value c.block s.store.seq c.crc) s
  if !r.1 then report 277 r.2
  else
    let s := r.2
    let old := copyBlocks key (s.copyOf key)
    let s := { s with cov := { s.cov with dir := tset none s.cov.dir key (some c) } }
    let s := freeBlocks old s
    s.setTile e (some { t with dirty := false, wbAt := some s.now, chg := 0 })

/-- The write-back of a dirty tile (R351, R352): not made below 64 free data blocks; a program failure leaves it dirty. -/
def writeBack (e : Nat) (fail : Bool) (s : State) : State :=
  match s.tile e with
  | none => s
  | some t =>
    if !t.dirty then s
    else if s.storeFree.length < 64 then report 277 s
    else if fail then report 278 s
    else if t.uniform then wroteBack e t ⟨true, t.value, 0, 0⟩ s
    else
      match s.storeRun (tileBlocks t.layer) with
      | none => report 277 s
      | some b =>
        let img := s.bytes (blockAddr t.block) (imageBytes t.layer)
        wroteBack e t ⟨false, 0, b, Config.crc32 img⟩ (s.setBytes (storeAddr b) img)

/-! ### Page-in (R345, R346, R348) -/

/-- The deferred increments of a tile that has arrived, in order (R346). -/
def applyLog (e key : Nat) (s : State) : State :=
  let mine := s.cov.log.filter (fun x => cellTile 0 x.2.1 x.2.2 == key)
  let s := { s with cov := { s.cov with log := s.cov.log.filter (fun x => cellTile 0 x.2.1 x.2.2 != key) } }
  forEach mine (fun x s => match s.tile e with
    | some t => changeCell e (cellPlace 0 x.2.1 x.2.2) (min 3 (s.tileCell t (cellPlace 0 x.2.1 x.2.2) + 1)) s
    | none => s) s

/-- A stored tile becomes resident (R345): a copy that fails its CRC gives a damaged tile and source 278 (R348). -/
def pageIn (key : Nat) (s : State) : State :=
  match s.residentOf key, s.copyOf key with
  | none, some c =>
    let layer := key / 65536
    let t : Tile := { layer := layer, tx := key % 256, ty := key / 256 % 256, wbAt := none }
    match freeEntry s with
    | (none, s) => report 276 s
    | (some e, s) =>
      if c.uniform then applyLog e key (s.setTile e (some { t with value := c.value }))
      else if s.storeCrc layer c.block != c.crc then
        report 278 (s.setTile e (some { t with value := damagedCell layer, damaged := true, dirty := true }))
      else
        match makeRoom (tileBlocks layer) 1024 s with
        | (none, s) => report 276 s
        | (some b, s) =>
          let s := s.setBytes (blockAddr b) (s.bytes (storeAddr c.block) (imageBytes layer))
          applyLog e key (s.setTile e (some { t with uniform := false, block := b }))
  | _, _ => s

/-- A double-bit error in a word of a resident tile that the engine reads (R348): the cells of its 64 bits, source 284 and
source 81. -/
def wordDamaged (key : Nat) (s : State) : State :=
  let b := (key - 0x30000000) / 0x1000
  match s.cov.rt.find? (fun x => x.2.any (fun t => !t.uniform && decide (t.block ≤ b) &&
      decide (b < t.block + tileBlocks t.layer))) with
  | some (e, some t) =>
    let old := (List.range (64 / cellBits t.layer)).map (fun k =>
      s.imageCell t.layer (blockAddr t.block) ((key - blockAddr t.block) * 8 / cellBits t.layer + k))
    let s := s.setBytes key (List.replicate 8 (uniformByte t.layer (damagedCell t.layer)))
    let s := { s with ded := s.ded.filter (fun x => x != key) }
    let s := if t.layer = 0 then forEach old (fun v s => areaChange v 0 s) s else s
    report 81 (report 284 (s.setTile e (some { t with damaged := true, dirty := true })))
  | _ => s

end Sys2Proof.Machine
end

