-- ==== Sys2Proof/Machine/Cov.lean ====
section
/-!
DEFINITION. Sys2Proof/Machine/Cov.lean: the coverage engine (chapter 07): spray state, painting, loupe queries, automatic mode,
edits, fields, engine states; and its commands, with the scheduler's `PSCH_TICK` and `EVENT_FIRE`, which feed it.
-/
namespace Sys2Proof.Machine

/-! ### The spray state (R317, R318) -/

def State.covPoint (s : State) (i : Nat) : CovPoint := tget {} s.cov.points i
def State.setCovPoint (s : State) (i : Nat) (x : CovPoint) : State :=
  { s with cov := { s.cov with points := tset {} s.cov.points i x } }

/-- A transition of the effective state of a point becomes a ground transition (R317); an opening whose ground time is later
than that of a closing that follows it is void. -/
def noteOpen (i : Nat) (s : State) : State :=
  let x := s.covPoint i
  let o := s.apOpen i
  if o = x.openWas then s
  else
    let g := s.now + (s.latOf i o * 25 + 1) / 2
    let ahead := if o then x.ahead ++ [(g, true)]
      else x.ahead.filter (fun y => !(y.2 && decide (g < y.1))) ++ [(g, false)]
    s.setCovPoint i { x with openWas := o, ahead := ahead }

/-- Notes the transitions of every point. -/
def noteOpens (s : State) : State := forEach (s.psch.points.map (fun x => x.1)) noteOpen s

/-- σ after the ground transitions up to `t`, in the order of their times (R317). -/
def sigmaAt (t : Nat) (x : CovPoint) : CovPoint :=
  let due := (x.ahead.filter (fun y => decide (y.1 ≤ t))).mergeSort (fun a b => decide (a.1 ≤ b.1))
  { x with sigma := (due.getLast?.map (fun y => y.2)).getD x.sigma, ahead := x.ahead.filter (fun y => decide (t < y.1)) }

/-- The channel check (R318): ON, PWM, INRUSH or BRIDGE at the last T0. -/
def State.chkOk (s : State) (i : Nat) : Bool :=
  let ch := s.get (COV_APCFG_CHK_CH i)
  if s.on (COV_APCFG_CHK_EN i) && ch < 136 then
    let st := wbits ((tget [] s.status ch).getD 0 14) 3 0
    st == 1 || st == 2 || st == 3 || st == 12
  else true

/-! ### Edges (R319) -/

/-- `FOOT_W` of a point. -/
def Point.footW (p : Point) : Nat := wbits p.entry.w6 31 16

/-- |V| in 1/256 mm/s. -/
def vAbs (v : Int × Int) : Nat := Nat.sqrt (v.1 * v.1 + v.2 * v.2).toNat

/-- sin θ and cos θ of a point's direction of travel, in Q1.30 (R319): from its ground velocity above 100 mm/s, else the
heading, reversed when v is negative. -/
def State.direction (s : State) (p : Point) : Int × Int :=
  let v := s.groundVel p
  let a := vAbs v
  if 25600 ≤ a then
    let d := Nat.sqrt ((v.1 * v.1 + v.2 * v.2).toNat * 2 ^ 40)
    (roundDiv (v.1 * 2 ^ 50) d, roundDiv (v.2 * 2 ^ 50) d)
  else
    let h := if s.psch.v < 0 then s.psch.h + 2 ^ 31 else s.psch.h
    (sinQ h, cosQ h)

/-- The engine is ACTIVE. -/
def State.covState (s : State) : Nat := s.get COV_STAT_STATE

/-- A point paints (R323). -/
def State.pointPaints (s : State) (i : Nat) (p : Point) : Bool :=
  s.covState == 3 && s.on COV_CTL_PAINT_EN && s.on (COV_APCFG_PAINT i) && p.entry.apEnable && p.footW != 0

/-- What the tick at `t` leaves of one point (R319). -/
def tickRec (t i : Nat) (s : State) : State :=
  let x := sigmaAt t (s.covPoint i)
  let p := s.point i
  let s := s.setCovPoint i x
  if p.footW = 0 ∨ s.covState ≠ 3 then s
  else
    let d := s.direction p
    let hx := roundDiv (-(p.footW * d.2)) (2 ^ 31)
    let hy := roundDiv (p.footW * d.1) (2 ^ 31)
    let e := p.e / 65536; let n := p.n / 65536
    let r : TickRec := ⟨i, s.pointPaints i p, x.sigma && s.chkOk i, e + hx, n + hy, e - hx, n - hy, p.path / 65536⟩
    { s with cov := { s.cov with ticks := s.cov.ticks ++ [r] } }

/-- The engine's part of a scheduler tick. -/
def covTick (t : Nat) (s : State) : State :=
  let s := noteOpens s
  if s.on COV_CTL_EN then forEach (s.psch.points.map (fun x => x.1)) (tickRec t) s else s

/-! ### Painting (R319–R323) -/

/-- A point of the plane, in half millimetres, and an edge of a quad: a leading or right edge does not mark. -/
abbrev Pt := Int × Int
structure Side where
  a : Pt
  b : Pt
  lead : Bool
deriving DecidableEq, Repr

/-- The cross product of b − a and p − a. -/
def cross (a b p : Pt) : Int := (b.1 - a.1) * (p.2 - a.2) - (b.2 - a.2) * (p.1 - a.1)

/-- p lies on the segment a–b. -/
def onSide (a b p : Pt) : Bool :=
  cross a b p == 0 && decide (min a.1 b.1 ≤ p.1) && decide (p.1 ≤ max a.1 b.1) && decide (min a.2 b.2 ≤ p.2) &&
    decide (p.2 ≤ max a.2 b.2)

/-- The horizontal ray from p crosses the side. -/
def Side.crosses (e : Side) (p : Pt) : Bool :=
  if e.a.2 > p.2 then (if e.b.2 > p.2 then false else decide (cross e.a e.b p < 0))
  else (if e.b.2 > p.2 then decide (cross e.a e.b p > 0) else false)

/-- The rule of R320 for a figure: the leading and right edges prevail, then the others mark, then the interior. -/
def marks (l : List Side) (p : Pt) : Bool :=
  if l.any (fun e => e.lead && onSide e.a e.b p) then false
  else if l.any (fun e => onSide e.a e.b p) then true
  else (l.filter (fun e => e.crosses p)).length % 2 == 1

/-- The quad (L_s, L_k, R_k, R_s). -/
structure Quad where
  ls : Pt
  lk : Pt
  rk : Pt
  rs : Pt
deriving DecidableEq, Repr

/-- A point scaled by a factor. -/
def scalePt (d : Int) (p : Pt) : Pt := (p.1 * d, p.2 * d)

/-- The trailing and leading edges cross properly: the numerator and the denominator of the place of X on L_k–R_k. -/
def Quad.crossing (q : Quad) : Option (Int × Int) :=
  let d1 := cross q.rs q.ls q.lk; let d2 := cross q.rs q.ls q.rk
  let e1 := cross q.lk q.rk q.rs; let e2 := cross q.lk q.rk q.ls
  if d1 * d2 < 0 ∧ e1 * e2 < 0 then (if d1 < d2 then some (-d1, d2 - d1) else some (d1, d1 - d2)) else none

/-- A centre is marked by the quad (R320), which is split at X into two triangles where its edges cross. -/
def Quad.marked (q : Quad) (p : Pt) : Bool :=
  match q.crossing with
  | none => marks [⟨q.ls, q.lk, false⟩, ⟨q.lk, q.rk, true⟩, ⟨q.rk, q.rs, true⟩, ⟨q.rs, q.ls, false⟩] p
  | some (num, d) =>
    let f := scalePt d
    let x : Pt := ((f q.lk).1 + (q.rk.1 - q.lk.1) * num, (f q.lk).2 + (q.rk.2 - q.lk.2) * num)
    marks [⟨f q.ls, f q.lk, false⟩, ⟨f q.lk, x, true⟩, ⟨x, f q.ls, false⟩] (f p) ||
      marks [⟨f q.rs, f q.rk, true⟩, ⟨f q.rk, x, true⟩, ⟨x, f q.rs, false⟩] (f p)

/-- The integers from `a` to `b`. -/
def spanI (a b : Int) : List Int := (List.range (b - a + 1).toNat).map (fun n : Nat => a + n)

/-- The origin of the grid in mm. -/
def State.orgE (s : State) : Int := signed 32 (s.get COV_ORG_E_MM)
def State.orgN (s : State) : Int := signed 32 (s.get COV_ORG_N_MM)

/-- The cells whose centres a quad marks, in ascending order of (j, i), given origin and cell size. -/
def Quad.cells (q : Quad) (oe on : Int) (c : Nat) : List (Int × Int) :=
  let xs := [q.ls.1, q.lk.1, q.rk.1, q.rs.1]; let ys := [q.ls.2, q.lk.2, q.rk.2, q.rs.2]
  let lo (l : List Int) (o : Int) := (l.foldl min (l.headD 0) - 2 * o) / (2 * (c : Int)) - 1
  let hi (l : List Int) (o : Int) := (l.foldl max (l.headD 0) - 2 * o) / (2 * (c : Int))
  ((spanI (lo ys on) (hi ys on)).map (fun j => (spanI (lo xs oe) (hi xs oe)).filterMap (fun i =>
    if q.marked (2 * oe + (2 * i + 1) * c, 2 * on + (2 * j + 1) * c) then some (i, j) else none))).flatten

/-- Adds the cells of a list that a set does not hold yet. -/
def addCells (u : List (Int × Int)) (l : List (Int × Int)) : List (Int × Int) :=
  u ++ l.filter (fun x => !u.contains x)

/-- One tick of a painting point (R319): its state and the quad it paints. -/
def paintTick (r : TickRec) (x : CovPoint) : CovPoint × Option Quad :=
  let here := (r.le, r.ln, r.re, r.rn)
  if !r.paints || !r.sigma then ({ x with start := none }, none)
  else match x.start with
    | none => ({ x with start := some here, hw := r.path }, none)
    | some a =>
      if signed 32 (unsigned 32 ((r.path : Int) - x.hw)) ≤ 0 then (x, none)
      else
        let d (v : Int) := 2 * v
        ({ x with start := some here, hw := r.path },
          some ⟨(d a.1, d a.2.1), (d r.le, d r.ln), (d r.re, d r.rn), (d a.2.2.1, d a.2.2.2)⟩)

/-- The cells a point marks over a list of ticks. -/
def paintTicks (oe on : Int) (c : Nat) : List TickRec → CovPoint → List (Int × Int) → CovPoint × List (Int × Int)
  | [], x, u => (x, u)
  | r :: rs, x, u =>
    let p := paintTick r x
    paintTicks oe on c rs p.1 (match p.2 with
      | some q => addCells u (q.cells oe on c)
      | none => u)

/-- Ascending order of (j, i). -/
def cellLe (a b : Nat × Nat) : Bool := decide (a.2 < b.2) || (a.2 == b.2 && decide (a.1 ≤ b.1))

/-- Adds 1 to a coverage cell, saturating at 3; deferred while the tile's page-in is pending (R321, R346). -/
def bumpCell (c : Nat × Nat) (s : State) : State :=
  match s.cell 0 c.1 c.2 with
  | some v => setCell 0 c.1 c.2 (min 3 (v + 1)) s
  | none =>
    let s := report 274 s
    if s.cov.log.length < 4096 then
      { s with cov := { s.cov with log := s.cov.log ++ [(cellTile 0 c.1 c.2, c.1, c.2)] } }
    else covLost 1 275 s

/-- The point's footprint or loupe is off the grid, or on it again: source 279 once each time it leaves (R313). -/
def offGridNow (i : Nat) (off : Bool) (s : State) : State :=
  let x := s.covPoint i
  let s := s.setCovPoint i { x with offGrid := off }
  if off && !x.offGrid then report 279 s else s

/-- The paint of one point in one cycle (R319–R322). -/
def paintPoint (i : Nat) (s : State) : State :=
  let l := s.cov.ticks.filter (fun r => r.pt == i)
  let p := paintTicks s.orgE s.orgN s.cellMm l (s.covPoint i) []
  let ins := p.2.filter (fun x => inGrid 0 x.1 x.2)
  let u := (ins.map (fun x => (x.1.toNat, x.2.toNat))).mergeSort cellLe
  let prev := (s.covPoint i).prev
  let s := s.setCovPoint i { p.1 with prev := u.take 1024 }
  let s := forEach (u.filter (fun x => !prev.contains x)) bumpCell s
  let s := if 1024 < u.length then report 283 s else s
  if p.2.isEmpty then s else offGridNow i (decide (ins.length < p.2.length)) s

/-- The paint phase (R314, R315): the ticks since the last paint. -/
def paintPhase (s : State) : State :=
  let pts := (s.cov.ticks.map (fun r => r.pt)).eraseDups
  let idle := (s.cov.points.map (fun x => x.1)).filter (fun i => !pts.contains i)
  let s := forEach pts paintPoint s
  let s := forEach idle (fun i s => s.setCovPoint i { s.covPoint i with prev := [] }) s
  { s with cov := { s.cov with ticks := [] } }

/-! ### Loupe queries (R324–R330) -/

/-- The predicted track of a point (R324): position in 1/65536 mm, direction in Q1.30, |V| in 1/256 mm/s, yaw rate. -/
structure Track where
  e : Int
  n : Int
  sin0 : Int
  cos0 : Int
  v : Nat
  yaw : Int
  straight : Bool
deriving DecidableEq, Repr

/-- 2π in Q30. -/
def twoPi : Int := 6746518852

/-- The track of a point. -/
def State.track (s : State) (p : Point) : Track :=
  let v := vAbs (s.groundVel p)
  let d := s.direction p
  let w := s.psch.yaw
  ⟨p.e, p.n, d.1, d.2, v, w,
    decide (v < 25600) || decide (twoPi * w.natAbs * 200000 < (v : Int) * 256 * 2 ^ 30)⟩

/-- Position, sin φ and cos φ at along-track distance `q` in 1/32 mm (R324). -/
def Track.place (k : Track) (q : Nat) : Int × Int × Int × Int :=
  if k.straight then
    (k.e + roundDiv ((q : Int) * k.sin0) (2 ^ 19), k.n + roundDiv ((q : Int) * k.cos0) (2 ^ 19), k.sin0, k.cos0)
  else
    let a := wrap32 (roundDiv (k.yaw * 524288 * q) k.v)
    let sa := sinRef a; let ca := sinRef (a + 2 ^ 30)
    let sp := roundDiv (k.sin0 * ca + k.cos0 * sa) (2 ^ 30)
    let cp := roundDiv (k.cos0 * ca - k.sin0 * sa) (2 ^ 30)
    let den := (twoPi * k.yaw).natAbs
    let sg : Int := if k.yaw < 0 then -1 else 1
    (k.e + roundDiv (sg * (k.cos0 - cp) * k.v * 2 ^ 24) den, k.n + roundDiv (sg * (sp - k.sin0) * k.v * 2 ^ 24) den, sp, cp)

/-- `WPCT` as used: 0 as 1, at most 200. -/
def State.wpct (s : State) : Nat := min 200 (orOne (s.get COV_LOUPE1_WPCT))

/-- M (R325). -/
def State.lanes (s : State) (p : Point) : Nat :=
  max 1 (roundDiv ((p.footW * s.wpct : Nat) : Int) (100 * s.cellMm)).toNat

/-- The cell of a layer that holds a position in 1/65536 mm (R310). -/
def State.cellAt (s : State) (layer : Nat) (e n : Int) : Int × Int :=
  let c : Int := s.layerMm layer
  ((e - s.orgE * 65536) / (c * 65536), (n - s.orgN * 65536) / (c * 65536))

/-- The positions of the samples at distance `q` (R325). -/
def State.samples (s : State) (p : Point) (k : Track) (q : Nat) : List (Int × Int) :=
  let pl := k.place q
  let m := s.lanes p
  (List.range m).map (fun j : Nat =>
    let u := roundDiv ((p.footW * s.wpct * 65536 : Nat) * (2 * (j : Int) + 1 - m)) (200 * m)
    (pl.1 - roundDiv (u * pl.2.2.2) (2 ^ 30), pl.2.1 + roundDiv (u * pl.2.2.1) (2 ^ 30)))

/-- A cell at a position: its value, or none where its tile is stored but not resident; outside the grid as absent. -/
def State.readAt (s : State) (layer : Nat) (x : Int × Int) : Option Nat :=
  let c := s.cellAt layer x.1 x.2
  if inGrid layer c.1 c.2 then s.cell layer c.1.toNat c.2.toNat else some (s.absentCell layer)

/-- One step of a query: class, percentages of covered and excluded samples, off-grid and unknown samples (R326). -/
structure StepRes where
  cls : Nat
  pctC : Nat
  pctX : Nat
  off : Bool
  unk : Bool
deriving DecidableEq, Repr

/-- Classifies the step at distance `q` (R326). -/
def State.step1 (s : State) (p : Point) (k : Track) (q : Nat) : StepRes :=
  let l := s.samples p k q
  let m := l.length
  let nX := (l.filter (fun x => s.readAt 1 x == some 1)).length
  let thr := orOne (s.get COV_LOUPE1_THR)
  let nC := (l.filter (fun x => match s.readAt 0 x with | some v => decide (thr ≤ v) | none => false)).length
  let nU := (l.filter (fun x => (s.readAt 0 x).isNone || (s.readAt 1 x).isNone)).length
  let off := l.any (fun x => let c := s.cellAt 0 x.1 x.2; !inGrid 0 c.1 c.2)
  let cls := if 1 ≤ nX ∧ s.get COV_LOUPE0_EXC_PCT * m ≤ 100 * nX then 2
    else if 1 ≤ nC ∧ min 100 (s.get COV_LOUPE0_OVL_PCT) * m ≤ 100 * nC then 1
    else if 1 ≤ nU then 3 else 0
  ⟨cls, 100 * nC / m, 100 * nX / m, off, decide (1 ≤ nU)⟩

/-- The decision of a class: spray or shut (R327). -/
def State.sprays (s : State) (cls : Nat) : Bool := cls == 0 || (cls == 3 && !s.on COV_LOUPE1_UNK_SHUT)

/-- The steps K of a query (R325). -/
def State.querySteps (s : State) : Nat := max 1 (4 * min 20000 (s.get COV_LOUPE0_LEN_MM) / s.cellMm)

/-- The first step of the change, if any (R328): `l` holds the decisions of steps 1 to K. -/
def changeStep (l : List Bool) (r : Nat) : Option Nat :=
  let k := l.length
  let d0 := l.getD 0 true
  ((List.range (k - 1)).map (· + 2)).find? (fun j =>
    l.getD (j - 1) d0 != d0 &&
      (List.range (min k (j + r - 1) + 1 - j)).all (fun x => l.getD (j + x - 1) d0 == l.getD (j - 1) d0))

/-- Refines a change by halvings of [lo, hi] (R328). -/
def State.refine (s : State) (p : Point) (k : Track) (d0 : Bool) : Nat → Nat → Nat → Nat
  | 0, _, hi => hi
  | f + 1, lo, hi =>
    let mid := (lo + hi) / 2
    if s.sprays (s.step1 p k mid).cls != d0 then s.refine p k d0 f lo mid else s.refine p k d0 f mid hi

/-- The answer of a query (R328, R329). -/
structure Query where
  now : Nat
  next : Nat
  d : Option Nat
  first : StepRes
  off : Bool
  page : Bool
  rate1 : Nat
  rateK : Nat
  lastE : Int
  lastN : Int
deriving DecidableEq, Repr

/-- The rate code under the track. -/
def State.rateAt (s : State) (k : Track) (q : Nat) : Nat :=
  let pl := k.place q
  (s.readAt 2 (pl.1, pl.2.1)).getD 0

/-- The query of a point (R325–R328). -/
def State.query (s : State) (p : Point) : Query :=
  let k := s.track p
  let c := s.cellMm
  let n := s.querySteps
  let steps := (List.range n).map (fun j => s.step1 p k (8 * c * (j + 1)))
  let first := steps.getD 0 ⟨0, 0, 0, false, false⟩
  let dec := steps.map (fun x => s.sprays x.cls)
  let r := max 1 ((4 * s.get COV_LOUPE1_MIN_RUN_MM + c - 1) / c)
  let ch := changeStep dec r
  let last := k.place (8 * c * n)
  { now := first.cls, next := match ch with | some j => (steps.getD (j - 1) first).cls | none => first.cls,
    d := ch.map (fun j => (s.refine p k (dec.getD 0 true) 4 (8 * c * (j - 1)) (8 * c * j) + 16) / 32),
    first := first, off := steps.any (fun x => x.off), page := steps.any (fun x => x.unk),
    rate1 := s.rateAt k (8 * c), rateK := s.rateAt k (8 * c * ch.getD n), lastE := last.1, lastN := last.2.1 }

/-- A point is eligible for a query (R330). -/
def State.eligible (s : State) (i : Nat) : Bool :=
  s.on (COV_APCFG_LOUPE i) && (s.point i).entry.apEnable && (s.point i).footW != 0 && s.covState == 3

/-- The record of a query (R329). -/
def queryWords (m : Nat) (p : Point) (v : Nat) (x : Query) : List Word :=
  let b (y : Bool) (k : Nat) := if y then 2 ^ k else 0
  let w0 := x.now * 2 ^ 30 + x.next * 2 ^ 28 + b (decide (v < 25600)) 26 + b (decide (p.v < 0)) 25 + b x.off 24 + b x.page 23
  let w1 := match x.d with | some d => (p.path + d * 65536 + 32768) / 65536 | none => 0
  [BitVec.ofNat 32 (w0 + x.d.getD 0xFFFF), BitVec.ofNat 32 w1,
   BitVec.ofNat 32 (x.first.pctC * 2 ^ 24 + x.first.pctX * 2 ^ 16 + x.rate1 * 2 ^ 8 + x.rateK),
   BitVec.ofNat 32 (m % 65536 * 65536)]

/-- The record of a point that is not eligible (R330). -/
def idleRecord : List Word := [BitVec.ofNat 32 (2 ^ 27 + 0xFFFF), 0, 0, 0]

/-! ### Automatic mode (R331–R337) -/

/-- Point i is switched by the engine (R331), apart from its speed. -/
def State.autoOn (s : State) (i : Nat) : Bool :=
  s.on COV_CTL_AUTO_EN && s.on (COV_APCFG_AUTO i) && s.eligible i

/-- The scheduler slot of a point (R332). -/
def State.covSlot (s : State) (i : Nat) : Nat := s.get PSCH_EV_SPLIT_FW_SLOTS + i

/-- Cancels the coverage slot of a point, unless its event is placed (R334, R335). -/
def covCancel (i : Nat) (s : State) : State :=
  match s.event (s.covSlot i) with
  | some ev => if ev.placed then s else s.setEvent (s.covSlot i) none
  | none => s

/-- Cancels every coverage slot whose event is not placed (R335, R358). -/
def covCancelAll (s : State) : State :=
  { s with psch := { s.psch with events := s.psch.events.filter (fun x =>
      decide (x.1 < s.fwSlots) || x.2.any (fun ev => ev.placed)) } }

/-- The coverage event of a point (R333, R337). -/
def covEvent (i : Nat) (opens : Bool) (tag target : Nat) : Event :=
  { w0 := BitVec.ofNat 32 ((if opens then 0 else 2 ^ 26) + 2 ^ 25 + 2 ^ 24 + tag * 2 ^ 16 + i),
    w1 := BitVec.ofNat 32 target, w2 := 0, w3 := 0 }

/-- Writes the slot of a point when the action or the target differs enough from the pending one (R334). -/
def covPost (i : Nat) (opens : Bool) (tag target : Nat) (s : State) : State :=
  let k := s.covSlot i
  let new := covEvent i opens tag target
  if 4095 < k then report 266 s
  else match s.event k with
    | none => s.setEvent k (some new)
    | some ev =>
      let diff := (signed 32 (unsigned 32 ((new.w1.toNat : Int) - ev.w1.toNat))).natAbs
      if ev.placed then s
      else if ev.action ≠ new.action ∨ max 16 ((s.cellMm + 15) / 16) ≤ diff then s.setEvent k (some new)
      else s

/-- The tag of an event (R337). -/
def covTag (opens want : Bool) (cls : Nat) : Nat :=
  if opens then 0xC0 else if !want then 0xC4 else if cls = 1 then 0xC1 else if cls = 2 then 0xC2 else 0xC3

/-- The automatic post of a point after its query (R333). -/
def autoPost (i : Nat) (x : Query) (s : State) : State :=
  let p := s.point i
  let want := (s.get (COV_WANT_W (i / 32))).testBit (i % 32)
  let w1 := want && s.sprays x.now
  let w2 := want && s.sprays x.next
  if w1 != p.logical then covPost i w1 (covTag w1 want x.now) (p.path / 65536 % 2 ^ 32) s
  else match x.d with
    | some d =>
      if w2 == w1 then covCancel i s
      else
        let ofs := if w2 then signed 16 (s.get COV_AUTO_OFS_OPEN_OFS) else signed 16 (s.get COV_AUTO_OFS_CLOSE_OFS)
        covPost i w2 (covTag w2 want x.next) (unsigned 32 (((p.path + d * 65536 + 32768) / 65536 : Nat) + ofs)) s
    | none => covCancel i s

/-- The tiles a query has read, in every layer. -/
def State.tilesRead (s : State) (p : Point) : List Nat :=
  let k := s.track p
  let c := s.cellMm
  let key (ly : Nat) (x : Int × Int) : Nat := let y := s.cellAt ly x.1 x.2; cellTile ly y.1.toNat y.2.toNat
  (((List.range s.querySteps).map (fun j =>
    let q := 8 * c * (j + 1)
    let pl := k.place q
    key 2 (pl.1, pl.2.1) :: ((s.samples p k q).map (fun x => [key 0 x, key 1 x])).flatten)).flatten).eraseDups

/-- The tiles that have been read lose their age (R360). -/
def youngTiles (keys : List Nat) (s : State) : State :=
  let f (t : Tile) : Tile := if keys.contains (tileKey t.layer t.tx t.ty) then { t with age := 0 } else t
  { s with cov := { s.cov with rt := s.cov.rt.map (fun x => (x.1, x.2.map f)) } }

/-- One point in the loupe and post phases. -/
def loupePoint (m i : Nat) (s : State) : State :=
  let p := s.point i
  let put (l : List Word) (s : State) : State := { s with cov := { s.cov with res := tset [] s.cov.res i l } }
  if s.eligible i then
    let x := s.query p
    let s := offGridNow i x.off (put (queryWords m p (vAbs (s.groundVel p)) x) s)
    let s := youngTiles (s.tilesRead p) (if x.page then report 274 s else s)
    let ctr := [0, 1, 2].map (fun ly => let c := s.cellAt ly x.lastE x.lastN
      (ly, c.1.toNat / tileDim ly, c.2.toNat / tileDim ly))
    let s := { s with cov := { s.cov with paging := s.cov.paging ++ ctr } }
    let auto := s.autoOn i
    let was := (s.covPoint i).auto
    let s := s.setCovPoint i { s.covPoint i with auto := auto }
    if auto then (if 25600 ≤ p.v then autoPost i x s else s) else if was then covCancel i s else s
  else
    let s := if (s.covPoint i).auto then covCancel i (s.setCovPoint i { s.covPoint i with auto := false }) else s
    put idleRecord s

/-- The points the engine has something to say about. -/
def State.covPoints (s : State) : List Nat :=
  ((s.psch.points.map (fun x => x.1)) ++ (s.cov.points.map (fun x => x.1))).eraseDups

/-- The loupe and post phases of cycle `m`. -/
def loupePhase (m : Nat) (s : State) : State :=
  let s := { s with cov := { s.cov with resOld := s.cov.res } }
  forEach s.covPoints (loupePoint m) s

/-! ### Edits (R339–R342) -/

/-- A FILL reaches a tile that is stored and not resident (R339). -/
def State.awaitsTile (s : State) (layer i j : Nat) : Bool := (s.cell layer i j).isNone

/-- One cell of a FILL; it stops at a tile that is not resident. -/
def fillCells : Nat → State → State
  | 0, s => s
  | n + 1, s =>
    match s.cov.edit with
    | none => s
    | some x =>
      let w := x.x1 - x.x0 + 1
      let i := x.x0 + x.pos % w; let j := x.y0 + x.pos / w
      if x.y1 < j || s.awaitsTile x.layer i j then s
      else
        let s := setCell x.layer i j x.value s
        fillCells n { s with cov := { s.cov with edit := some { x with pos := x.pos + 1 } } }

/-- An edit is complete: `BUSY` 0, `DONE` counts, equal tiles return to uniform (R344). -/
def editDone (x : Edit) (s : State) : State :=
  let hit := s.cov.rt.filterMap (fun r => r.2.bind (fun t =>
    if t.layer = x.layer ∧ x.x0 / tileDim t.layer ≤ t.tx ∧ t.tx ≤ x.x1 / tileDim t.layer ∧
      x.y0 / tileDim t.layer ≤ t.ty ∧ t.ty ≤ x.y1 / tileDim t.layer then some r.1 else none))
  let s := forEach hit makeUniform s
  ({ s with cov := { s.cov with edit := none } }).flag COV_EDIT_STAT_BUSY false |>.wrap COV_EDIT_STAT_DONE

/-- The image of an INSTALL replaces the tile in one step (R340). -/
def installTile (x : Edit) (s : State) : State :=
  let key := tileKey x.layer x.x0 x.y0
  let r := match s.residentOf key with
    | some (e, _) => (some e, s)
    | none => enterUniform x.layer x.x0 x.y0 s
  match r with
  | (none, s) => covLost 1 276 s
  | (some e, s) =>
    match s.tile e with
    | none => s
    | some t =>
      let old := [1, 2, 3].map (fun v => s.tileCount t v)
      match expandTile e t s with
      | (none, s) => covLost 1 276 s
      | (some t, s) =>
        let s := s.setBytes (blockAddr t.block) (s.bytes x.src (imageBytes x.layer))
        let t := { t with dirty := true, damaged := false, age := 0, chg := t.chg + 1 }
        let s := s.setTile e (some t)
        let s := if x.layer = 0 then overN 3 (fun k s => s.put (COV_AREA_CELLS k)
          (s.get (COV_AREA_CELLS k) + s.tileCount t (k + 1) - old.getD k 0)) s else s
        makeUniform e s

/-- The edit phase of a cycle (R339, R340): up to 65,536 cells of a FILL, or an INSTALL. -/
def editPhase (s : State) : State :=
  match s.cov.edit with
  | none => s
  | some x =>
    if x.install then editDone { x with x0 := 0, x1 := 0, y0 := 0, y1 := 0 } (installTile x s)
    else
      let s := fillCells 65536 s
      match s.cov.edit with
      | some y => if (y.x1 - y.x0 + 1) * (y.y1 - y.y0 + 1) ≤ y.pos then editDone y s else s
      | none => s

/-- A field is open. -/
def State.fieldIsOpen (s : State) : Bool := s.covState == 3 || s.covState == 4

/-- An edit command is rejected (R341). -/
def State.editBad (s : State) (op layer value : Nat) : Bool :=
  let x0 := s.get COV_EDIT_A_X0; let y0 := s.get COV_EDIT_A_Y0
  let x1 := s.get COV_EDIT_B_X1; let y1 := s.get COV_EDIT_B_Y1
  let src := 0x1000 * s.get COV_EDIT_SRC_ADDR
  s.on COV_EDIT_STAT_BUSY || op == 3 || layer == 3 || !s.fieldIsOpen ||
    (if op = 1 then decide (x1 < x0) || decide (y1 < y0) || (layer == 2 && (decide (16383 < x1) || decide (16383 < y1))) ||
        (layer == 0 && decide (3 < value)) || (layer == 1 && decide (1 < value))
      else decide (255 < x0) || decide (255 < y0) || !(inShared src && inShared (src + imageBytes layer - 1)))

/-- A committed `COV_EDIT_CMD` (R339–R341). -/
def editCmd (op layer value : Nat) (s : State) : State :=
  if op = 0 then s
  else if s.editBad op layer value then report 280 (s.flag COV_EDIT_STAT_REJ true)
  else
    let x : Edit := ⟨op == 2, layer, value, s.get COV_EDIT_A_X0, s.get COV_EDIT_A_Y0, s.get COV_EDIT_B_X1,
      s.get COV_EDIT_B_Y1, 0x1000 * s.get COV_EDIT_SRC_ADDR, 0⟩
    ({ s with cov := { s.cov with edit := some x } }).flag COV_EDIT_STAT_BUSY true

/-- `FILL` (R339, R341). -/
def execFill (layer : BitVec 2) (value : BitVec 8) (s : State) : Res := .next (editCmd 1 layer.toNat value.toNat s)

/-- `INSTALL` (R340, R341). -/
def execInstall (layer : BitVec 2) (s : State) : Res := .next (editCmd 2 layer.toNat 0 s)

/-! ### Paging, eviction and states -/

/-- The scheduler's position is valid (R356). -/
def State.posValid (s : State) : Bool :=
  (s.get PSCH_STAT_LOC == 1 || s.get PSCH_STAT_LOC == 2) && s.get PSCH_STAT_SPD != 2 && !s.fenced 0x020

/-- ACTIVE becomes SUSPENDED when the position is no longer valid (R356). -/
def covSuspend (s : State) : State :=
  if s.covState == 3 && !s.posValid then
    let s := covCancelAll (s.put COV_STAT_STATE 4)
    if (List.range 256).any (fun i => s.on (COV_APCFG_AUTO i)) then report 282 s else s
  else s

/-- SUSPENDED becomes ACTIVE at the next cycle; every start edge is invalid (R356). -/
def covResume (s : State) : State :=
  if s.covState == 4 && s.posValid then
    let pts := s.cov.points.map (fun x => (x.1, { x.2 with start := none }))
    { (s.put COV_STAT_STATE 3) with cov := { s.cov with points := pts.filter (fun x => x.2 != {}) } }
  else s

/-- The paging set's places: the reference point and each eligible point, for every layer (R345). -/
def State.pagingCentres (s : State) : List (Nat × Nat × Nat) :=
  let pos := (s.psch.e, s.psch.n) :: (s.covPoints.filter s.eligible).map (fun i => ((s.point i).e, (s.point i).n))
  (pos.map (fun x => [0, 1, 2].map (fun ly =>
    let c := s.cellAt ly x.1 x.2
    (ly, c.1.toNat / tileDim ly, c.2.toNat / tileDim ly)))).flatten

/-- Requests a page-in for every stored tile of the set that is not resident (R345). -/
def pageRequests (s : State) : State :=
  let keys := s.cov.dir.filterMap (fun x => if x.2.isSome then some x.1 else none)
  let need := keys.filter (fun k => (s.residentOf k).isNone &&
    s.inPaging { layer := k / 65536, tx := k % 256, ty := k / 256 % 256 })
  forEach need (fun k s => mntRequest 5 (k / 65536 * 65536 + k % 256 * 256 + k / 256 % 256) .block s) s

/-- Below 64 free blocks the engine evicts; a dirty tile outside the set is written back first (R347). -/
def evictPhase : Nat → State → State
  | 0, s => s
  | n + 1, s =>
    if 64 ≤ 2048 - s.usedBlocks then s
    else match s.evictable with
      | some e => evictPhase n (s.setTile e none)
      | none =>
        match s.cov.rt.find? (fun x => x.2.any (fun t => t.dirty && !s.inPaging t)) with
        | some (e, _) => evictPhase n (writeBack e false s)
        | none => s

/-- Every tile grows older by a cycle (R360); a paint or a read makes it young again. -/
def ageTiles (s : State) : State :=
  let older (t : Tile) : Tile := { t with age := min (2 ^ 24 - 1) (t.age + 1) }
  { s with cov := { s.cov with rt := s.cov.rt.map (fun x => (x.1, x.2.map older)) } }

/-- The engine runs cycles: in RUN and IDLE, ACTIVE or SUSPENDED (R356, R357). -/
def State.covRuns (s : State) : Bool :=
  s.clocks && (s.covState == 3 || s.covState == 4)

/-- One cycle at `t`, complete `us` µs later (R314). -/
def covCycle (t us : Nat) (s : State) : State :=
  let s := covResume (covSuspend s)
  let s := forEach (s.ded.filter (fun k => decide (0x30000000 ≤ k) && decide (k < 0x30800000))) wordDamaged s
  let s := { s with cov := { s.cov with cycleAt := t, doneAt := t + Machine.us us, told := false, paging := s.pagingCentres } }
  let s := editPhase (ageTiles s)
  let s := if s.covState = 3 then loupePhase (t / 200000) (paintPhase s)
    else { s with cov := { s.cov with ticks := [] } }
  let s := pageRequests (evictPhase 2048 s)
  let s := (s.put COV_CYC_LAST_US us).put COV_CYC_PEAK_US (max us (s.get COV_CYC_PEAK_US))
  covShow s

/-- `COVERAGE_CYCLE` (R314, R315): at a multiple of 200,000, unless the last cycle still runs. -/
def execCoverageCycle (t : Nat) (us : Nat) (s : State) : Res :=
  let go := s.covRuns && t % 200000 == 0 && decide (s.cov.doneAt ≤ t)
  let s := s.at t
  if go then .next (covCycle t us s) else .next s

/-- `CYCLE_OVR` (R315): the cycle is not complete 900 µs after its start. -/
def execCycleOvr (t : Nat) (s : State) : Res :=
  let s := s.at t
  let late := Machine.us 900
  if !s.cov.told && decide (s.cov.cycleAt + late < s.cov.doneAt) && decide (s.cov.cycleAt + late ≤ s.now) then
    .next (report 273 { s with cov := { s.cov with told := true } })
  else .next s

/-- The query record of a point that the window shows at an instant (R316). -/
def State.covRes (s : State) (i t : Nat) : List Word :=
  if s.cov.doneAt ≤ t then tget [] s.cov.res i else tget [] s.cov.resOld i

/-- `COV_EN` (R356). -/
def execCovEn (s : State) : Res :=
  if !s.alive then .next s
  else
    let s := s.flag COV_CTL_EN true
    .next (if s.covState = 0 then s.put COV_STAT_STATE 1 else s)

/-- A field command in a state not listed for it (R353). -/
def cmdRej (s : State) : State := s.flag COV_STAT_CMD_REJ true

/-- The engine starts reading the directory of a field. -/
def opening (id : Nat) (s : State) : State :=
  let s := (s.put COV_STAT_STATE 2).put COV_FIELD_STAT_ID id
  { s with cov := { s.cov with rt := [], dir := [], points := [], ticks := [], log := [], res := [], resOld := [], paging := [] } }

/-- The field record of an ID. -/
def State.fieldRec (s : State) (id : Nat) : Option (Nat × Rec) :=
  s.records.find? (fun x => match x.2 with | .field f _ _ _ => f == id | _ => false)

/-- Takes cell size, `EXCL_DEF` and origin from the field record into the registers (R353). -/
def takeField (r : Rec) (s : State) : State :=
  match r with
  | .field _ cfg e n =>
    let s := (s.put COV_FIELD_CFG_CELL (wbits cfg 1 0)).put COV_FIELD_CFG_EXCL_DEF (wbits cfg 4 4)
    (s.put COV_ORG_E_MM e.toNat).put COV_ORG_N_MM n.toNat
  | _ => s

/-- The record of a new field (R350). -/
def State.newField (s : State) (id : Nat) : List Word :=
  [BitVec.ofNat 32 (2 ^ 30 + id), BitVec.ofNat 32 (s.get COV_FIELD_CFG_CELL + 16 * s.get COV_FIELD_CFG_EXCL_DEF),
   BitVec.ofNat 32 (s.get COV_ORG_E_MM), BitVec.ofNat 32 (s.get COV_ORG_N_MM)]

/-- `FIELD_OPEN` (R353): from the field record, or created from the registers; refused when 16 fields are stored or the
directory has no room. -/
def execFieldOpen (id : BitVec 16) (s : State) : Res :=
  if s.covState ≠ 1 then .next (cmdRej s)
  else match s.fieldRec id.toNat with
    | some r => .next (covShow (opening id.toNat (takeField r.2 s)))
    | none =>
      if 16 ≤ s.fieldIds.length then .next (report 277 (cmdRej s))
      else
        let r := appendRec (s.newField id.toNat) s
        if r.1 then .next (covShow (opening id.toNat r.2)) else .next (report 277 (cmdRej r.2))

/-- The areas of the stored copies (R322). -/
def State.storedArea (s : State) (v : Nat) : Nat :=
  s.cov.dir.foldl (fun a x => match x.2 with
    | some c => if x.1 / 65536 ≠ 0 then a
      else if c.uniform then (if c.value = v then a + 65536 else a)
      else a + s.imageCount 0 (storeAddr c.block) v
    | none => a) 0

/-- `DIRECTORY_READ` (R354, R356): the scan is complete. -/
def execDirectoryRead (t : Nat) (s : State) : Res :=
  let s := s.at t
  if s.covState ≠ 2 then .next s
  else
    let s := { s with cov := { s.cov with dir := s.copies s.openField } }
    let s := overN 3 (fun k s => s.put (COV_AREA_CELLS k) (s.storedArea (k + 1))) s
    let s := s.put COV_STORE_FREE_BLK s.storeFree.length
    .next (covShow (s.put COV_STAT_STATE (if s.posValid then 3 else 4)))

/-- A flush begins. -/
def flushStart (s : State) : State :=
  let s := s.flag COV_STAT_FLUSH_BUSY true
  { s with cov := { s.cov with flushAt := s.now } }

/-- `FIELD_CLOSE` (R353). -/
def execFieldClose (t : Nat) (s : State) : Res :=
  let s := s.at t
  if s.fieldIsOpen then .next (flushStart (covCancelAll (s.put COV_STAT_STATE 5))) else .next (cmdRej s)

/-- `FIELD_FLUSH` (R353). -/
def execFieldFlush (t : Nat) (s : State) : Res :=
  let s := s.at t
  if s.fieldIsOpen then .next (flushStart s) else .next (cmdRej s)

/-- Some tile is dirty. -/
def State.anyDirty (s : State) : Bool := s.cov.rt.any (fun x => x.2.any (fun t => t.dirty))

/-- All residents are dropped; `lost` counts the unwritten updates of dirty tiles (R356). -/
def dropResidents (lost : Bool) (s : State) : State :=
  let n := s.cov.rt.foldl (fun a x => match x.2 with | some t => if t.dirty then a + t.chg else a | none => a) 0
  let s := if lost then s.sat COV_STAT_LOST n else s
  covShow { s with cov := { s.cov with rt := [], log := [], ticks := [], points := [], res := [], resOld := [] } }

/-- `FLUSH_COMPLETE` (R354, R356): every dirty tile is written; a FLUSHING engine returns to IDLE. -/
def execFlushComplete (t : Nat) (s : State) : Res :=
  let s := s.at t
  if s.on COV_STAT_FLUSH_BUSY && !s.anyDirty then
    let s := s.flag COV_STAT_FLUSH_BUSY false
    .next (if s.covState = 5 then dropResidents false (s.put COV_STAT_STATE 1) else s)
  else .next s

/-- `FLUSH_LATE` (R354): the flush runs longer than 2.2 s. -/
def execFlushLate (t : Nat) (s : State) : Res :=
  let s := s.at t
  if s.on COV_STAT_FLUSH_BUSY && decide (s.cov.flushAt + ms 2200 < s.now) then .next (report 281 s) else .next s

/-- Appends deleted records for every stored tile of a field (R353). -/
def deleteTiles (id : Nat) (s : State) : State :=
  forEach (s.copies id) (fun x s => match x.2 with
    | some c =>
      let s := nextSeq s
      let r := appendRec (tileRec id (x.1 / 65536) (x.1 % 256) (x.1 / 256 % 256) c.uniform true c.value c.block
        s.store.seq c.crc) s
      freeBlocks (copyBlocks x.1 (some c)) r.2
    | none => s) s

/-- Marks the field record of an ID deleted. -/
def deleteField (id : Nat) (s : State) : State :=
  match s.fieldRec id with
  | some (n, _) =>
    let a := storeAddr (if s.store.half then 16 else 0) + 16 * n
    s.setWord a (s.word a &&& 0x3FFFFFFF)
  | none => s

/-- `FIELD_ERASE` (R353). -/
def execFieldErase (id : BitVec 16) (s : State) : Res :=
  if s.covState ≠ 1 then .next (cmdRej s)
  else .next (covShow (deleteField id.toNat (deleteTiles id.toNat s)))

/-- The rest of a write-back that R352 permits now: outside the set, in a flush, or `WB_MIN_S` after the last. -/
def State.wbAllowed (s : State) (t : Tile) : Bool :=
  !s.inPaging t || s.on COV_STAT_FLUSH_BUSY ||
    (match t.wbAt with | some a => decide (a + sec (s.get COV_PAGE_CFG_WB_MIN_S) ≤ s.now) | none => true)

/-- `WRITE_BACK` (R351, R352). -/
def execWriteBackTile (e : Fin 1024) (t : Nat) (fail : Bool) (s : State) : Res :=
  let s := s.at t
  match s.tile e with
  | some x =>
    if x.dirty && s.wbAllowed x && (s.fieldIsOpen || s.covState == 5) then .next (covShow (writeBack e fail s)) else .next s
  | none => .next s

/-- SLEEP freezes the engine; a return to RUN leaves it SUSPENDED (R356, R357). -/
def covFreeze (s : State) : State :=
  if s.fieldIsOpen then { (covCancelAll (s.put COV_STAT_STATE 6)) with cov := { s.cov with ticks := [] } } else s
def covThaw (s : State) : State := if s.covState = 6 then s.put COV_STAT_STATE 4 else s

/-! ### The scheduler's commands that feed the engine -/

/-- `PSCH_TICK` (R264): at a time base that is a multiple of 20,000. -/
def execPschTick (t : Nat) (s : State) : Res :=
  let s := s.at t
  if s.pschRuns && t % 20000 == 0 then .next (covTick t (pschTick t s)) else .next s

/-- `EVENT_FIRE` (R295): the placed events whose latch has come fire; a change of `APPLY_OK` due at that latch too. -/
def execEventFire (t : Nat) (s : State) : Res :=
  let s := s.at t
  .next (noteOpens (fireDue t s.psch.placed.length (applyDue t s)))

end Sys2Proof.Machine
end

