-- ==== Sys2Proof/Machine/Led.lean ====
section
/-!
DEFINITION. Sys2Proof/Machine/Led.lean: the two LED chain ports (R255–R258): the latch with its loop check, the port states and the
replacement of a driver; and their commands but `LCP_SUB_REQ`, which the maintenance arbiter starts.
-/
namespace Sys2Proof.Machine

/-- `NDRV` as the port uses it (R262). -/
def State.ndrv (s : State) (p : Nat) : Nat := min 16 (s.get (LCP_CTL_NDRV p))

/-- The LED output index of bit `j` of port `p`, `j` = 8d + b (R255). -/
def ledChan (p j : Nat) : Nat := 168 + 128 * p + j

/-- The outputs of a port the cache holds. -/
def State.cachedLeds (s : State) (p : Nat) : List Nat :=
  (s.chans.filter (fun x => decide (168 + 128 * p ≤ x.1) && decide (x.1 < 296 + 128 * p))).map (fun x => x.1)

/-- The bit a driver applies at this latch: none of the omitted driver or beyond `NDRV`; all 0 in MISMATCH (R257). -/
def State.ledBit (s : State) (p i : Nat) : Bool :=
  let d := (i - 168 - 128 * p) / 8
  decide (d < s.ndrv p) && s.get (LCP_STAT_STATE p) != 4 &&
    !((s.led p).omitted && d == s.get (LCP_SUB_DRV p)) && (s.chan i).bit

/-- Packs the drivers' status codes into `LCP_DRVSTp`. -/
def packCodes (codes : List (Fin 4)) : Nat :=
  (codes.take 16).foldr (fun (c : Fin 4) a => c.val + 4 * a) 0

/-- The port leaves a state. -/
def ledState (p st : Nat) (s : State) : State :=
  let x := s.led p
  (s.put (LCP_STAT_STATE p) st).setLed p { x with hdrBad := 0, cntBad := 0 }

/-- The loop check in RUNNING (R257). -/
def loopRunning (p : Nat) (hdrOk cntOk : Bool) (s : State) : State :=
  let x := s.led p
  let h := if hdrOk then 0 else x.hdrBad + 1
  let c := if cntOk then 0 else x.cntBad + 1
  let s := s.setLed p { x with hdrBad := h, cntBad := c }
  if 3 ≤ h then report (248 + p) (ledState p 5 s)
  else if 3 ≤ c && !s.on (LCP_SUB_REQ p) then report (248 + p) (ledState p 4 s)
  else s

/-- The loop check in REPLACING (R257): the segment is omitted once the count falls, restored once it returns. -/
def loopReplacing (p nret : Nat) (s : State) : State :=
  let x := s.led p
  let n := s.ndrv p
  if nret + 1 = n then s.setLed p { x with omitted := true }
  else if nret = n ∧ x.omitted then
    let s := (s.flag (LCP_SUB_REQ p) false).setLed p { x with omitted := false }
    mntFinish 15 p true (ledState p 2 s)
  else s

/-- The loop check of one LED latch (R256, R257). -/
def loopCheck (p nret : Nat) (hdrOk : Bool) (s : State) : State :=
  let cntOk := nret == s.ndrv p
  let st := s.get (LCP_STAT_STATE p)
  let s := if hdrOk && (cntOk || st == 3) then s else s.wrap (LCP_STAT_LOOP_ERR p)
  match st with
  | 1 => if cntOk && hdrOk then ledState p 2 s else s
  | 2 => loopRunning p hdrOk cntOk s
  | 3 => loopReplacing p nret s
  | _ => if hdrOk && cntOk then ledState p 2 s else s

/-- The port sends frames: not OFF, in RUN or IDLE (R257, R259). -/
def State.ledRuns (s : State) (p : Nat) : Bool :=
  s.clocks && s.get (LCP_STAT_STATE p) != 0

/-- `LED_LATCH` (R255–R258): the pulse engine decides the bits of the port, the drivers apply them, the loop is checked;
a driver that reports code 1, 2 or 3 reports source 250 + p. -/
def execLedLatch (p : Fin 2) (t : Nat) (hdrOk : Bool) (nret : Fin 17) (codes : List (Fin 4)) (s : State) : Res :=
  let go := s.ledRuns p && t % 6400 == 0
  let s := s.at t
  if go then
    let s := forEach (s.cachedLeds p) (fun i s => pulseSlot i (t / 6400) s) s
    let bits := (s.cachedLeds p).foldl (fun m i => tset false m (i - 168 - 128 * p) (s.ledBit p i)) []
    let s := s.setLed p { s.led p with bits := bits }
    let s := (s.put (LCP_STAT_NRET p) nret).put (LCP_DRVST_ST p) (packCodes codes)
    let s := loopCheck p nret hdrOk s
    .next (if codes.any (fun c => c != 0) then report (250 + p) s else s)
  else .next s

/-- `LCP_EN` (R257): ignored while `NDRV` is 0; OFF becomes STARTING. -/
def lcpEnable (p : Nat) (s : State) : State :=
  if s.get (LCP_CTL_NDRV p) = 0 then s
  else
    let s := s.flag (LCP_CTL_EN p) true
    if s.get (LCP_STAT_STATE p) = 0 then ledState p 1 s else s

/-- `LCP_EN` (R257). -/
def execLcpEn (p : Fin 2) (s : State) : Res := if s.alive then .next (lcpEnable p s) else .next s

/-- The replacement of a driver starts; the arbiter holds it as an activity (R257, R601). -/
def ledReplace (p : Nat) (s : State) : State :=
  if s.get (LCP_STAT_STATE p) = 2 && s.on (LCP_SUB_REQ p) then
    let s := ledState p 3 s
    mntHold 15 p (s.setLed p { s.led p with omitted := false, reqAt := s.now })
  else s

/-- `LCP_SUB_TIMEOUT` (R257): `TMO_S` s without a return to `NDRV`; the port stays REPLACING. -/
def execLcpSubTimeout (p : Fin 2) (t : Nat) (s : State) : Res :=
  let s := s.at t
  let x := s.led p
  if s.get (LCP_STAT_STATE p) == 3 && decide (x.reqAt + sec (orOne (s.get (LCP_SUB_TMO_S p))) ≤ s.now) then
    .next (report (252 + p) s)
  else .next s

/-- The port stops in SLEEP and below; with `EN` it starts again at a return to RUN (R257, R259). -/
def ledStop (p : Nat) (s : State) : State := (ledState p 0 s).setLed p {}
def ledRestart (p : Nat) (s : State) : State :=
  if s.on (LCP_CTL_EN p) && s.get (LCP_STAT_STATE p) == 0 then ledState p 1 s else s

end Sys2Proof.Machine
end

