-- ==== Sys2Proof/Machine/Field.lean ====
section
/-!
DEFINITION. Sys2Proof/Machine/Field.lean: the isolated field die FLD (chapter 09): barrier and link, output latch, modes, timeout,
inputs and tests; and their commands.
-/
namespace Sys2Proof.Machine

/-- The field outputs, indices 136–151. -/
def fieldOuts : List Nat := (List.range 16).map (136 + ·)

/-- The mode of FLD: 0 NORMAL, 1 STARTUP, 2 TEST, 3 RECOVERY (R410). -/
def State.fldMode (s : State) : Nat := s.get FLD_STAT_MODE

/-- FLD enters a mode. -/
def fldEnter (m : Nat) (s : State) : State :=
  let s := s.put FLD_STAT_MODE m
  { s with field := { s.field with modeAt := s.now, told := false } }

/-- The field outputs take the state that now applies. -/
def settleField (s : State) : State := settleAll fieldOuts s

/-- The level a held output keeps in its safe state HOLD: that of the last field latch, of R214 for PWM (R412). -/
def heldLevel (c : Chan) : Nat :=
  if c.entry.mode = 2 then (if c.entry.duty ≥ 0x8000 then 1 else 0) else if c.out then 1 else 0

/-- Every output takes its safe state (R411, R413). -/
def fldSafe (s : State) : State :=
  if s.field.safe then s
  else
    let s := forEach fieldOuts (fun i s => s.modChan i (fun c => { c with held := heldLevel c })) s
    settleField { s with field := { s.field with safe := true, safeNext := false, valid := 0 } }

/-- Barrier power is lost: every output off, STARTUP at its return (R389, R415). -/
def fldPowerOff (s : State) : State :=
  let s := ((s.put FLD_STAT_MODE 1).flag FLD_STAT_TMO_ACT false).put FLD_STAT_LINK 0
  let s := s.flag FLD_STAT_BAR_OK false
  let s := { s with field := {}, tl := s.tl.filter (fun e => e.1 < 136) }
  let s := forEach fieldOuts (fun i s => s.modChan i (fun c => { c with
    adopted := false, fresh := false, latched := false, thermal := false, retryEnd := none, retryLeft := none,
    retryCnt := 0, hold := none, withheld := false, inrush := none, old := none, pend := none })) s
  settleField s

/-- The barrier may be powered: `EN` in RUN or IDLE (R389). -/
def State.barrierOn (s : State) : Bool := s.on FLD_CTL_EN && (s.power == .run || s.power == .idle)

/-- Barrier power rises: STARTUP, outputs off (R410). -/
def fldPowerUp (s : State) : State :=
  if s.barrierOn && !s.field.powered then
    let s := fldPowerOff s
    let s := { s with field := { powered := true, tmoAt := s.now, modeAt := s.now } }
    s.flag FLD_STAT_BAR_OK true
  else s

/-- `FLD_EN` (R389): only the causes of R389 clear it. -/
def execFldEn (s : State) : Res := if s.alive then .next (s.flag FLD_CTL_EN true) else .next s

/-- `BARRIER_POWER_UP` (R410). -/
def execBarrierPowerUp (t : Nat) (s : State) : Res := .next (fldPowerUp (s.at t))

/-- A CRC error of one direction of the link: 16 within 1 ms report source 320 (R417). -/
def linkErr (l : List Nat) (s : State) : List Nat × Bool := countErr s.now l

/-- FLD finds a downlink frame invalid (R391). -/
def downBad (s : State) : State :=
  let r := linkErr s.field.dnErr s
  let s := ({ s with field := { s.field with dnErr := r.1, valid := 0, frameOk := false } }).wrap FLD_LINK_DN_ERR
  if r.2 then report 320 s else s

/-- A configuration frame reaches FLD: RECOVERY from NORMAL and TEST, outputs held (R410, R691). -/
def fldConfig (s : State) : State :=
  if s.fldMode = 0 ∨ s.fldMode = 2 then fldEnter 3 s else s

/-- `DOWNLINK_FRAME` (R390, R391): a valid frame with a new `LIVE` restarts the timeout. -/
def execDownlinkFrame (t : Nat) (cfg ok : Bool) (s : State) : Res :=
  let s := s.at t
  if !s.clocks || !s.field.powered then .next s
  else if !ok then .next (downBad s)
  else
    let live := s.chain.live
    let f := s.field
    let s := { s with field := { f with
      lastLive := some live, tmoAt := if f.lastLive == some live then f.tmoAt else s.now,
      valid := min 64 (f.valid + 1), frameOk := !cfg } }
    let s := s.put FLD_STAT_LINK (if cfg then 1 else 2)
    .next (if cfg then fldConfig s else s)

/-- The rotating measurement of an output (R400) and `VFIELD` (R418). -/
def fieldMeasure (n mA : Nat) (tj : Int) (v : Nat) (s : State) : State :=
  let s := s.modChan (136 + n) (fun c => { c with
    iMean := mA, iPeak := max c.iPeak mA, tjNow := tj, tjPeak := max c.tjPeak tj })
  let sum := fieldOuts.foldl (fun a i => a + (s.chan i).iMean) 0
  let s := (s.put FLD_VFIELD_V v).put FLD_VFIELD_I_TOTAL (min 65535 sum)
  s.flag FLD_STAT_VF_OK (decide (1600 ≤ v) && decide (v ≤ 3600))

def State.fieldIn (s : State) (n : Nat) : FieldIn := tget {} s.field.ins n
def State.setFieldIn (s : State) (n : Nat) (x : FieldIn) : State :=
  { s with field := { s.field with ins := tset {} s.field.ins n x } }

/-- The entry that governs field input `n`. -/
def State.inEntry (s : State) (n : Nat) : Entry := (s.chan (152 + n)).entry
/-- `INV` of a field input (R406). -/
def Entry.inv (e : Entry) : Bool := e.w0.getLsbD 25
/-- `STAMP` of a field input. -/
def Entry.stampSel (e : Entry) : Nat := wbits e.w0 27 26
/-- `FILT_N` of a field input. -/
def Entry.filtN (e : Entry) : Nat := wbits e.w0 7 0

/-- A fault of a field input: its `FLT` bit and count (R407). -/
def inputFault (n b : Nat) (s : State) : State :=
  s.modChan (152 + n) (fun c => { c with flt := setBit c.flt b, fltCnt := min 255 (c.fltCnt + 1) })

/-- What one input has sent reaches the FLD block (R394). -/
def inputSeen (n : Nat) (s : State) : State :=
  let x := s.fieldIn n
  let s := (s.putBit FLD_IN_RAW n x.now.raw).putBit FLD_IN_LEVEL n (x.now.level != (s.inEntry n).inv)
  let s := s.setFieldIn n { x with seen := x.now, lost := false }
  if x.lost then report 327 (inputFault n 1 s) else s

/-- `UPLINK_FRAME` (R390, R394, R400): levels and stamps reach the block; errors count. -/
def execUplinkFrame (t : Nat) (ok hdrOk : Bool) (n : Fin 16) (mA : Nat) (tj : Int) (v : Nat) (s : State) : Res :=
  let s := s.at t
  if !s.clocks || !s.field.powered then .next s
  else if !ok then
    let r := linkErr s.field.upErr s
    let s := ({ s with field := { s.field with upErr := r.1 } }).wrap FLD_LINK_UP_ERR
    .next (if r.2 then report 320 s else s)
  else
    let h := if hdrOk then 0 else s.field.hdrBad + 1
    let s := { s with field := { s.field with hdrBad := if h = 3 then 0 else h } }
    let s := overN 16 inputSeen (fieldMeasure n mA tj v s)
    .next (if h = 3 then report 320 s else s)

/-- The parameter block of an output has taken effect (R397): the new values alone bind. -/
def fieldParams (i : Nat) (s : State) : State :=
  s.modChan i (fun c => { c with old := none, pend := none, bstop := c.entry.bstop })

/-- The Touchline bank of FLD swaps (R401). -/
def fieldSwap (s : State) : State :=
  match s.field.stagedTl with
  | some b =>
    if s.field.swapNow then
      let s := forEach fieldOuts (fun i s => { s with tl := tset {} s.tl i (tget {} b i) }) s
      settleField { s with field := { s.field with stagedTl := none, swapNow := false } }
    else s
  | none => s

/-- The parameter blocks that take effect at latch `t`: those named, and every one 400 µs after its T0 (R397). -/
def fieldTakes (t : Nat) (take : BitVec 16) (s : State) : State :=
  forEach fieldOuts (fun i s => match (s.chan i).pend with
    | some a => if take.getLsbD (i - 136) || decide (a + us 400 ≤ t) then fieldParams i s else s
    | none => s) s

/-- `FIELD_LATCH` (R390, R396, R397): the outputs follow the frame that governs the latch in NORMAL. -/
def execFieldLatch (t : Nat) (take : BitVec 16) (s : State) : Res :=
  let go := s.field.powered && t % 4000 == 0
  let s := s.at t
  if go then
    let s := if s.field.safeNext then fldSafe s else s
    let s := fieldTakes t take (fieldSwap s)
    let s := if s.clocks then forEach fieldOuts (fun i s => pulseSlot i (t / 4000) s) s else s
    let follow := s.fldMode == 0 && s.field.frameOk && !s.field.safe
    let s := { s with field := { s.field with frameOk := false } }
    .next (if follow then applyBits fieldOuts (t / 4000) s else s)
  else .next s

/-- The base of the active Touchline bank (R568); the keeper's update record selects it. -/
def State.tlBank (s : State) : Nat := if s.tlActive then 0x420C0000 else 0x42080000

/-- The Touchline entry at an offset of the active set. -/
def State.tlEntryAt (s : State) (o : Nat) : TlEntry := tlOfWords (s.words (s.tlBank + o) 5)

/-- FLD becomes NORMAL by an arming (R410, R568): its Touchline section and the safe states of `BSTOP_INIT`; each output
keeps its level until the first adoption of its entry. -/
def fldArm (s : State) : State :=
  let startup := s.fldMode == 1
  let s := fldEnter 0 s
  let s := overN 16 (fun n s => { s with tl := tset {} s.tl (136 + n) (s.tlEntryAt (0x1200 + 32 * n)) }) s
  let s := { s with field := { s.field with fails := 0 } }
  settleField (forEach fieldOuts (fun i s => s.modChan i (fun c => { c with
    adopted := false, fresh := false, old := none, pend := none, bstop := (s.tlOf i).bstopInit,
    held := if startup then 0 else if c.out then 1 else 0,
    latched := c.latched && !c.latchedUnarmed, latchedUnarmed := false })) s)

/-- `FLD_ARMING` (R410, R583): image, Touchline and safe-state table received; the third failure reports source 322. -/
def execFldArming (t : Nat) (ok : Bool) (s : State) : Res :=
  let s := s.at t
  if !s.field.powered || s.fenced 0x040 || !(s.fldMode == 1 || s.fldMode == 3) then .next s
  else if ok then .next (fldArm s)
  else
    let n := s.field.fails + 1
    let s := { s with field := { s.field with fails := if n = 3 then 0 else n } }
    .next (if n = 3 then report 322 s else s)

/-- `TIMEOUT_MS` as FLD uses it (R418). -/
def State.fldTimeout (s : State) : Nat := ms (clamp 1 100 (s.get FLD_TIMEOUT_TIMEOUT_MS))
/-- `MODE_MAX_MS` as FLD uses it. -/
def State.fldModeMax (s : State) : Nat := ms (clamp 10 1000 (s.get FLD_TIMEOUT_MODE_MAX_MS))

/-- R411: silence above the timeout in NORMAL. -/
def fldSilence (s : State) : State :=
  if s.field.powered && s.fldMode == 0 && !s.field.safe && decide (s.field.tmoAt + s.fldTimeout < s.now) then
    report 321 (fldSafe (s.flag FLD_STAT_TMO_ACT true))
  else s

/-- `FLD_TMO` (R411). -/
def execFldTmo (t : Nat) (s : State) : Res := .next (fldSilence (s.at t))

/-- TEST ends: NORMAL, where silence already counted applies R411 at once (R691). -/
def testEnd (s : State) : State := fldSilence (fldEnter 0 s)

/-- `MODE_MAX` (R410, R691): the limit of a mode has passed. -/
def execModeMax (t : Nat) (s : State) : Res :=
  let s := s.at t
  if !s.field.powered || s.now < s.field.modeAt + s.fldModeMax || s.field.told then .next s
  else
    let told (s : State) : State := { s with field := { s.field with told := true } }
    match s.fldMode with
    | 0 => .next s
    | 2 => .next (testEnd s)
    | 1 => .next (report 322 (told s))
    | _ => .next (report 322 (fldSafe (told s)))

/-- `FLD_RESUME` (R413): with 64 valid frames and no fence each output follows its cached entry. -/
def execFldResume (s : State) : Res :=
  if s.field.safe && !s.field.safeNext && s.field.valid == 64 && !s.fenced 0x040 && s.fldMode == 0 then
    let s := { (s.flag FLD_STAT_TMO_ACT false) with field := { s.field with safe := false } }
    .next (settleField (forEach fieldOuts (fun i s => s.modChan i (fun c => { c with
      adopted := c.adopted || c.cached, fresh := true, arm := true,
      bstop := if c.cached then c.entry.bstop else c.bstop })) s))
  else .next s

/-- `TEST_REQ` (R410, R692): ignored outside NORMAL. -/
def execTestReq (sel : BitVec 2) (t : Nat) (s : State) : Res :=
  let s := (s.at t).put FLD_CTL_TEST_SEL sel.toNat
  if s.field.powered && s.fldMode == 0 then .next (fldEnter 2 s) else .next s

/-- The input test of R414. -/
def inputTest (fail : BitVec 16) (s : State) : State :=
  let bad := (List.range 16).filter (fun n => fail.getLsbD n && (s.inEntry n).mode != 0)
  let s := forEach bad (fun n s => inputFault n 2 s) s
  if bad.isEmpty then s else report 328 s

/-- The output test of R414: an output that does not fall is stuck on; an off output runs its off-state checks. -/
def outputTest (notOff openOff shortBat : BitVec 16) (s : State) : State :=
  let ev := fieldOuts.filterMap (fun i =>
    let n := i - 136
    let c := s.chan i
    if c.out then (if notOff.getLsbD n then some (i, 7) else none)
    else if shortBat.getLsbD n then some (i, 6) else if openOff.getLsbD n then some (i, 5) else none)
  let s := forEach ev (fun x s => fltEvent x.1 x.2 s) s
  if ev.isEmpty then s else report 328 s

/-- `TEST_COMPLETE` (R414). -/
def execTestComplete (t : Nat) (inFail notOff openOff shortBat : BitVec 16) (s : State) : Res :=
  let s := s.at t
  if s.field.powered && s.fldMode == 2 then
    let s := if s.get FLD_CTL_TEST_SEL = 1 then outputTest notOff openOff shortBat s else inputTest inFail s
    .next (testEnd s)
  else .next s

/-- `SPER` in time-base units (R403). -/
def State.samplePeriod (s : State) : Nat := 2000 * clamp 5 1000 (s.get FLD_IN_CFG_SPER)

/-- The stamp of a filtered change (R405, R408). -/
def inputStamp (e : Entry) (up : Bool) (x : FieldIn) : FieldIn :=
  let v := x.now
  let at' := x.runAt / 200 * 200
  if up then
    if e.stampSel.testBit 0 then
      { x with now := { v with rise := at' }, stampUp := true, lost := x.lost || x.stampUp } else x
  else
    if e.stampSel.testBit 1 then
      { x with now := { v with fall := at' }, stampDn := true, lost := x.lost || x.stampDn } else x

/-- A filtered change of an input (R404, R405, R407). -/
def inputChange (e : Entry) (up : Bool) (x : FieldIn) : FieldIn :=
  let v := x.now
  let v := if up then { v with level := true, ups := (v.ups + 1) % 65536 }
    else { v with level := false, downs := (v.downs + 1) % 65536 }
  inputStamp e up { x with now := v, run := 0 }

/-- One sample of one input (R404, R409). -/
def inputSample (t : Nat) (raw : Bool) (e : Entry) (x : FieldIn) : FieldIn :=
  let x := { x with now := { x.now with raw := raw } }
  if x.restart then { x with restart := false, run := 0, now := { x.now with level := raw } }
  else if raw = x.now.level then { x with run := 0 }
  else
    let x := { x with run := x.run + 1, runAt := if x.run = 0 then t else x.runAt }
    if e.filtN ≤ x.run then inputChange e raw x else x

/-- `FIELD_INPUT_SAMPLE` (R403–R405): every enabled input at a sample instant; frozen in TEST. -/
def execFieldInputSample (t : Nat) (raw : BitVec 16) (s : State) : Res :=
  let go := s.field.powered && t % s.samplePeriod == 0 && s.fldMode != 1 && s.fldMode != 2
  let s := s.at t
  if go then
    .next (overN 16 (fun n s =>
      if (s.inEntry n).mode = 0 then s
      else s.setFieldIn n (inputSample t (raw.getLsbD n) (s.inEntry n) (s.fieldIn n))) s)
  else .next s

/-- An adoption of an input's entry (R409): a change of `MODE` or `FILT_N` restarts the filter. -/
def inputAdopt (n : Nat) (old new : Entry) (s : State) : State :=
  if old.mode = new.mode ∧ old.filtN = new.filtN then s
  else s.setFieldIn n { s.fieldIn n with restart := true, run := 0 }

/-- Stamps since the last T0 begin anew (R408). -/
def inputFrame (n : Nat) (s : State) : State :=
  s.setFieldIn n { s.fieldIn n with stampUp := false, stampDn := false }

/-- `VFIELD_UNDERVOLTAGE` (R398): below 15 V. -/
def execVfieldUndervoltage (t : Nat) (s : State) : Res :=
  let s := s.at t
  if (s.grp 8).uv || !s.field.powered then .next s
  else
    let s := (s.setGrp 8 { s.grp 8 with uv := true }).flag FLD_STAT_VF_OK false
    .next (report 323 (forEach fieldOuts (fun i s => settle i (fltEvent i 11 s)) s))

/-- `VFIELD_RELEASE` (R398): above 16 V; a new inrush window opens. -/
def execVfieldRelease (t : Nat) (s : State) : Res :=
  let s := s.at t
  if (s.grp 8).uv then
    let s := (s.setGrp 8 { s.grp 8 with uv := false }).flag FLD_STAT_VF_OK true
    .next (forEach fieldOuts (fun i s => settle i (s.modChan i (fun c => { c with arm := true }))) s)
  else .next s

/-- `VFIELD_OV` (R417): above 36 V. -/
def execVfieldOv (t : Nat) (s : State) : Res :=
  let s := s.at t
  if s.field.powered then .next (report 324 (s.flag FLD_STAT_VF_OK false)) else .next s

/-- `BARRIER_SUPPLY_FAULT` (R417). -/
def execBarrierSupplyFault (t : Nat) (s : State) : Res :=
  let s := s.at t
  if s.field.powered then .next (report 325 (s.flag FLD_STAT_BAR_OK false)) else .next s

/-- `FLD_HEALTH` (R417). -/
def execFldHealth (t : Nat) (cond : FldCond) (s : State) : Res :=
  let s := s.at t
  match cond with
  | .hot c => if 160 ≤ c then .next (report 326 s) else .next s
  | .selfCheck => .next (report 326 s)
  | .tlBank => .next (report 326 { s with field := { s.field with stagedTl := none, swapNow := false } })

/-- Words 8–15 of a field input (R407). -/
def State.inWords (s : State) (n : Nat) : List Word :=
  let c := s.chan (152 + n)
  let v := (s.fieldIn n).seen
  let b (x : Bool) (k : Nat) := if x then 2 ^ k else 0
  let st := if s.fldMode = 1 then 14 else if s.fenced 0x040 then 15 else if c.entry.mode = 0 then 0 else 1
  [BitVec.ofNat 32 (s.fldMode * 2 ^ 28 + b (v.level != c.entry.inv) 13 + b v.raw 12 + st),
   BitVec.ofNat 32 v.rise, BitVec.ofNat 32 v.fall, BitVec.ofNat 32 (v.ups * 65536 + v.downs), 0, 0,
   BitVec.ofNat 32 c.genAck, BitVec.ofNat 32 (c.fltCnt * 2 ^ 24 + c.flt)]

/-- Words 8–15 of an LED output: mode, bit, `GEN_ACK`, rejected posts. -/
def State.ledWords (s : State) (i : Nat) : List Word :=
  let c := s.chan i
  let p := (i - 168) / 128
  let out := tget false (s.led p).bits (i - 168 - 128 * p)
  [BitVec.ofNat 32 ((if out then 2 ^ 13 else 0) + min 2 c.entry.mode), 0, 0, 0, 0, 0,
   BitVec.ofNat 32 c.genAck, BitVec.ofNat 32 (c.fltCnt * 2 ^ 24 + c.flt)]

end Sys2Proof.Machine
end

