-- ==== Sys2Proof/Machine/Subst.lean ====
section
/-!
DEFINITION. Sys2Proof/Machine/Subst.lean: the substitution unit (R608–R614, R619): its commands, their start by the arbiter, the T0
at which they take hold.
-/
namespace Sys2Proof.Machine

/-! ### The command under way -/

/-- `SUB_STAT` shows a state of an operation. -/
def subShow (op st : Nat) (s : State) : State := (s.put SUB_STAT_OP op).put SUB_STAT_STATE st

/-- The command under way ends: DONE with the frame number of the swap, or FAILED. -/
def subDone (frame : Nat) (s : State) : State :=
  let s := (subShow s.sub.op 3 s).put SUB_STAT_FRAME frame
  { s with sub := { s.sub with op := 0, phase := 0 } }
def subFailed (s : State) : State :=
  let s := subShow s.sub.op 4 s
  { s with sub := { s.sub with op := 0, phase := 0 } }

/-- A substitution is abandoned: source 457 (R616). -/
def subAbandon (s : State) : State := report 457 (subFailed s)

/-- The arbiter's kind of an operation, 0 where it is no activity. -/
def subKind (op : Nat) : Nat := if op = 1 then 11 else if op = 2 then 12 else if op = 3 then 13 else if op = 4 then 14 else 0

/-- A command is accepted: LOADING. -/
def subAccept (op unit : Nat) (s : State) : State :=
  let s := subShow op 1 s
  { s with sub := { s.sub with op := op, unit := unit, phase := 0 } }

/-- A command is refused: FAILED. -/
def subRefuse (op : Nat) (s : State) : State := subShow op 4 s

/-- SUB takes commands. -/
def State.subOn (s : State) : Bool := s.alive && s.on SUB_CTL_EN

/-! ### What an accepted command loads -/

/-- A die enters SUBSTITUTE at the start of a sequencer or Touchline substitution (R219). -/
def dieSubstitute (k : Nat) (s : State) : State :=
  if s.dieMode k = 1 then (s.put (CHT_DIE_STAT_MODE k) 3).modDie k (fun d => { d with
    loads := [], seqStaged := false, tlStaged := false, swapNow := false })
  else s

/-- The calibration words of a set at `b` (R612): channels 0–151, then the ADC inputs. -/
def State.calWords (s : State) (b : Nat) : Tab (List Word) :=
  let m := (List.range 152).foldl (fun m i => tset [] m i (s.words (b + 0x40 + 8 * i) 2)) []
  (List.range 16).foldl (fun m i => tset [] m (152 + i) (s.words (b + 0x500 + 4 * i) 1)) m

/-- The Touchline entries of FLD in a set at `b` (R565). -/
def State.fldEntries (s : State) (b : Nat) : Tab TlEntry :=
  (List.range 16).foldl (fun m i => tset {} m (136 + i) (tlOfWords (s.words (b + 0x1200 + 32 * i) 5))) []

/-- The address of shared SRAM bank `b`. -/
def bankAddr (b : Nat) : Nat := 0x20000000 + 65536 * b

/-- SEG_MAP copies the segment into its bank and checks the copy against its CRC (R613). -/
def segCopy (w : Nat) (s : State) : State :=
  let f := s.get (SUB_SEG_MAP0_FLASH w)
  let b := s.get (SUB_SEG_MAP1_BANK w)
  if f < 0x4008 ∨ 0x4107 < f ∨ 191 < b then subFailed (mntFinish 14 w false s)
  else
    let img := s.bytes (65536 * f) 65536
    let s := s.setBytes (bankAddr b) img
    if (Config.crc32 img).toNat = s.get (SUB_SEGCRC_CRC (f - 0x4008)) then
      let s := mntFinish 14 w true s
      subShow 4 2 { s with sub := { s.sub with phase := 2, nextMaps := s.sub.nextMaps ++ [(w, some (f, b))] } }
    else subAbandon (mntFinish 14 w false s)

/-- SUB_CAL: the set is loaded into the inactive bank (R611, R612). -/
def calLoad (s : State) : State :=
  let b := calBank !s.calActive
  if s.wordN b = 0x4C414343 ∧ s.wordN (b + 4) % 65536 = 1 then
    subShow 3 2 { s with sub := { s.sub with phase := 2, calStaged := s.calWords b } }
  else subAbandon (mntFinish 13 0 false s)

/-- The load begins, once the arbiter has started the activity. -/
def subLoad (s : State) : State :=
  let s := { s with sub := { s.sub with phase := 1 } }
  match s.sub.op with
  | 1 => dieSubstitute s.sub.unit s
  | 2 =>
    let s := overN 4 dieSubstitute s
    { s with field := { s.field with stagedTl := some (s.fldEntries (tlBank !s.tlActive)), swapNow := false } }
  | 3 => calLoad s
  | 4 => segCopy s.sub.unit s
  | _ => s

/-- The unit the arbiter knows the command by. -/
def State.subUnit (s : State) : Nat := if s.sub.op = 2 ∨ s.sub.op = 3 then 0 else s.sub.unit

/-- Starts the activity of a queued command, if the arbiter may start it. -/
def subTryStart (s : State) : State :=
  if s.sub.op ≠ 0 ∧ s.sub.phase = 0 ∧ subKind s.sub.op ≠ 0 then
    let r := mntStartOf (subKind s.sub.op) s.subUnit true s
    if r.1 then subLoad r.2 else r.2
  else s

/-- A command that is an activity: accepted, requested from the arbiter, started when it may start. -/
def subActivity (op unit : Nat) (s : State) : State :=
  let s := subAccept op unit s
  subTryStart (mntRequest (subKind op) s.subUnit .block s)

/-! ### The commands -/

/-- The verified container may be substituted (R611): no image, no PATCH. -/
def State.subContainer (s : State) : Bool := s.vault.phase == 2 && s.vault.staged.sectors.isEmpty && !s.vault.staged.patch

/-- The new Touchline set differs from the active one in the die and FLD sections alone (R569). -/
def State.tlSame (s : State) : Bool :=
  s.bytes (Machine.tlBank s.tlActive + 0x1400) 0xD00 == s.bytes (Machine.tlBank (!s.tlActive) + 0x1400) 0xD00

/-- A write of `SUB_CMD` (R609–R614, R619). -/
def subCommand (op unit : Nat) (s : State) : State :=
  if op = 0 ∨ 7 < op ∨ !s.subOn then s
  else if s.sub.op ≠ 0 then subRefuse op s
  else match op with
    | 1 => if unit < 4 ∧ s.dieMode unit = 1 then subActivity 1 unit s else subRefuse 1 s
    | 2 =>
      if !s.subContainer || s.vault.staged.tl.isNone then subRefuse 2 s
      else if !s.tlSame then report 427 (subRefuse 2 s)
      else subActivity 2 0 s
    | 3 => if s.subContainer && s.vault.staged.cal then subActivity 3 0 s else subRefuse 3 s
    | 4 => if s.vault.phase = 0 then subActivity 4 unit s else subRefuse 4 s
    | 5 =>
      let s := subAccept 5 unit s
      subShow 5 2 { s with sub := { s.sub with phase := 2, nextMaps := s.sub.nextMaps ++ [(unit, none)] } }
    | 6 =>
      if 4 ≤ unit ∨ s.stranded unit then subRefuse 6 s
      else
        let s := (subAccept 6 unit s).putBit SUB_CORES_OUT unit true
        subShow 6 2 { s with sub := { s.sub with phase := 2, again := true } }
    | _ =>
      if 4 ≤ unit then subRefuse 7 s
      else needCoreTest unit (((subAccept 7 unit s)).putBit SUB_CORES_OUT unit false)

def execSubSeq (k : Fin 4) (t : Nat) (s : State) : Res := .next (subCommand 1 k (s.at t))
def execSubTl (t : Nat) (s : State) : Res := .next (subCommand 2 0 (s.at t))
def execSubCal (t : Nat) (s : State) : Res := .next (subCommand 3 0 (s.at t))
def execSegMap (w : Fin 16) (t : Nat) (s : State) : Res := .next (subCommand 4 w (s.at t))
def execSegUnmap (w : Fin 16) (t : Nat) (s : State) : Res := .next (subCommand 5 w (s.at t))
def execCoreOutCmd (c : Fin 4) (t : Nat) (s : State) : Res := .next (subCommand 6 c (s.at t))
def execCoreIn (c : Fin 4) (t : Nat) (s : State) : Res := .next (subCommand 7 c (s.at t))

/-! ### At a T0 -/

/-- Die `k` holds the bank this substitution loads. -/
def State.dieStaged (s : State) (k : Nat) : Bool :=
  s.dieMode k == 3 && (if s.sub.op = 1 then (s.die k).seqStaged else (s.die k).tlStaged)

/-- The dies of a die substitution. -/
def State.subDies (s : State) : List Nat := if s.sub.op = 1 then [s.sub.unit] else [0, 1, 2, 3]

/-- The swap of a die substitution: SWAP set for this T0 once every bank is staged; DONE at the T0 after it; FAILED once a die
has left SUBSTITUTE without it (R223, R610, R611). -/
def subDieFrame (s : State) : State :=
  let kind := subKind s.sub.op
  let ds := s.subDies
  if s.sub.phase = 3 then
    if ds.all (fun k => s.dieMode k == 1) then
      let rev := s.wordN (tlBank (!s.tlActive) + 8)
      let s := if s.sub.op = 2 then overN 4 (fun k s => s.put (CHT_DIE_STAT_TL_REV k) rev) s else s
      subDone (s.get FRAME_COUNT_LO_COUNT + 2 ^ 32 - 1) (mntFinish kind s.subUnit true s)
    else subAbandon (mntFinish kind s.subUnit false s)
  else if ds.any (fun k => s.dieMode k != 3) then
    subAbandon (mntFinish kind s.subUnit false { s with field := { s.field with stagedTl := none, swapNow := false } })
  else if ds.all s.dieStaged then
    let s := forEach ds (fun k s => s.modDie k (fun d => { d with swapNow := true })) s
    let s := if s.sub.op = 2 then { s with field := { s.field with swapNow := true } } else s
    subShow s.sub.op 2 { s with sub := { s.sub with phase := 3 } }
  else s

/-- A mapped bank holds a double-bit error. -/
def State.bankDed (s : State) (b : Nat) : Bool := s.ded.any (fun k => decide (bankAddr b ≤ k) && decide (k < bankAddr b + 65536))

/-- Window `w` is mapped or unmapped. -/
def setMap (w : Nat) (m : Option (Nat × Nat)) (s : State) : State :=
  let s := s.flag (SUB_SEG_MAP1_ACTIVE w) m.isSome
  { s with sub := { s.sub with maps := tset none s.sub.maps w m } }

/-- The windows at a T0 (R613, R614): pending changes hold, a mapped bank with a double-bit error is unmapped. -/
def mapsFrame (s : State) : State :=
  let l := s.sub.nextMaps
  let s := forEach l (fun p s => setMap p.1 p.2 s) { s with sub := { s.sub with nextMaps := [] } }
  forEach s.sub.maps (fun p s => if p.2.any (fun m => s.bankDed m.2) then report 457 (setMap p.1 none s) else s) s

/-- The substitution unit at a T0. -/
def subFrame (s : State) : State :=
  let s := mapsFrame s
  let n := s.get FRAME_COUNT_LO_COUNT
  match s.sub.op with
  | 0 => s
  | 1 | 2 => if s.sub.phase = 0 then subTryStart s else subDieFrame s
  | 3 =>
    if s.sub.phase = 0 then subTryStart s
    else
      let c := s.sub.calStaged
      subDone n (mntFinish 13 0 true { s with calSet := c, calLive := c, sub := { s.sub with calStaged := [] } })
  | 4 => if s.sub.phase = 0 then subTryStart s else subDone n s
  | 7 => if s.sub.phase = 2 then subDone n s else s
  | _ => subDone n s

/-- The entry to SLEEP or below abandons a substitution; source 457 reports at the return (R696). -/
def subPowerDown (s : State) : State :=
  if s.sub.op = 0 then s
  else
    let s := subFailed s
    { s with pwr := { s.pwr with subLost := true } }

end Sys2Proof.Machine
end

