-- ==== Sys2Proof/Machine/Maint.lean ====
section
/-!
DEFINITION. Sys2Proof/Machine/Maint.lean: the commands of the maintenance arbiter (R601–R605, R608, R618).
-/
namespace Sys2Proof.Machine

/-! ### Requests (R602, R618) -/

/-- Units that exist for a kind. -/
def unitOk (kind unit : Nat) : Bool :=
  match kind with
  | 1 => decide (unit < 1024)
  | 2 => decide (unit < 384)
  | 3 | 4 => decide (unit < 7680)
  | 7 => unit == 0
  | 8 | 9 => decide (unit < 152)
  | 10 => decide (unit < 4)
  | _ => false

/-- A firmware request: refused with `REJ` for a kind it may not ask for, a unit that does not exist, or no slot. -/
def mntFirmware (kind unit : Nat) (s : State) : State :=
  if !s.alive then s
  else if !unitOk kind unit then s.flag MNT_REQ_STAT_REJ true
  else match mntAsk kind unit .firmware s with
    | (some k, s) => mntClass k (s.canMove unit) (s.put MNT_REQ_STAT_SLOT k)
    | (none, s) => s.flag MNT_REQ_STAT_REJ true

/-- CANCEL of a queued or deferred slot. -/
def mntDrop (k : Nat) (s : State) : State :=
  let x := s.slot k
  if x.state = 1 ∨ x.state = 2 then s.setSlot k {} else s

/-- `MNT_REQUEST` (R602). -/
def execMntRequest (kind : Fin 16) (unit : BitVec 20) (t : Nat) (s : State) : Res := .next (mntFirmware kind unit.toNat (s.at t))
/-- `MNT_CANCEL` (R618). -/
def execMntCancel (slot : Fin 64) (t : Nat) (s : State) : Res := .next (mntDrop slot (s.at t))

/-- A write of `MNT_REQ`. -/
def mntReqWrite (op kind unit : Nat) (s : State) : State :=
  if op = 1 then mntFirmware kind unit s else if op = 2 then mntDrop (unit % 64) s else s

/-- `ACTIVITY_EXPIRED` (R601): not started within `WAIT_S`. -/
def execActivityExpired (slot : Fin 64) (t : Nat) (s : State) : Res :=
  let s := s.at t
  let x := s.slot slot
  let w := s.get MNT_WAIT_WAIT_S
  if s.clocks && decide (1 ≤ x.state) && decide (x.state ≤ 3) && w != 0 && decide (x.reqAt + sec w ≤ s.now) then
    .next (report 447 (s.setSlot slot { x with state := 7, ranAt := s.now }))
  else .next s

/-! ### A step of an activity -/

/-- One step of an activity: it starts when it is its turn; it ends with its effect, and what waited for it may start. -/
def actStep (kind unit : Nat) (step : ActStep) (canMove : Bool) (onStart : State → State) (onEnd : Bool → State → State)
    (s : State) : Res :=
  match step with
  | .start =>
    let r := mntStartOf kind unit canMove s
    .next (if r.1 then onStart r.2 else r.2)
  | .finish ok =>
    match s.runningSlot kind unit with
    | some k => if s.clocks then .next (subTryStart (mntEnd k ok (onEnd ok s))) else .next s
    | none => .next s

/-- The arbiter's own request for a periodic activity (R601). -/
def arbiterAsk (due : Bool) (kind unit : Nat) (step : ActStep) (s : State) : State :=
  if due && s.alive && s.on MNT_CTL_EN && step == .start then mntRequest kind unit .arbiter s else s

/-- A pass over the flash is due: `SCRUB_H` hours after the last began, sector by sector. -/
def State.scrubDue (s : State) (u : Nat) : Bool :=
  u == s.mnt.scrubNext && (u != 0 || decide (s.mnt.scrubAt + sec (3600 * orOne (s.get MNT_CTL_SCRUB_H)) ≤ s.now))

/-- Counts corrected bits of blocks (R601 kind 4). -/
def countCorrected (l : List (Nat × Nat)) (s : State) : State :=
  forEach l (fun p s => { s with mnt := { s.mnt with corrected := tset 0 s.mnt.corrected p.1 (tget 0 s.mnt.corrected p.1 + p.2) } }) s

/-- `SCRUB_FLASH` (R601, R604): an uncorrectable word reports source 449. -/
def execScrubFlash (u : Fin 1024) (t : Nat) (step : ActStep) (corr : List (Nat × Nat)) (bad : Bool) (s : State) : Res :=
  let s := s.at t
  let s := arbiterAsk (s.scrubDue u) 1 u step s
  actStep 1 u step true
    (fun s => { s with mnt := { s.mnt with scrubNext := (u + 1) % 1024, scrubAt := if u.val = 0 then s.now else s.mnt.scrubAt } })
    (fun _ s => if bad then report 449 (countCorrected corr s) else countCorrected corr s) s

/-- The source of R161 for a double-bit error in an SRAM bank. -/
def bankSource (u : Nat) : Nat := if u < 192 then 80 else if u < 320 then 81 else 76 + (u - 320) / 16

/-- `SCRUB_SRAM` (R601, R604). -/
def execScrubSram (u : Fin 384) (t : Nat) (step : ActStep) (bad : Bool) (s : State) : Res :=
  let s := s.at t
  let due := decide (tget 0 s.mnt.bankAt u + sec (orOne (s.get MNT_CTL_SRAM_S)) ≤ s.now)
  let s := arbiterAsk due 2 u step s
  actStep 2 u step true (fun s => { s with mnt := { s.mnt with bankAt := tset 0 s.mnt.bankAt u s.now } })
    (fun _ s => if bad then report (bankSource u) (report 449 s) else s) s

/-- A block is erased (R351): it is free again, and the least recently erased of all. -/
def blockErased (b : Nat) (s : State) : State :=
  let n := s.store.erasures + 1
  let s := eraseRange (storeAddr b) 4096 s
  { s with store := { s.store with freed := s.store.freed.filter (fun x => x != b), erased := tset 0 s.store.erased b n, erasures := n },
           mnt := { s.mnt with corrected := tset 0 s.mnt.corrected b 0 } }

/-- `ERASE` (R351, R601). -/
def execEraseBlock (u : Fin 7680) (t : Nat) (step : ActStep) (s : State) : Res :=
  let s := s.at t
  actStep 3 u step true id (fun ok s => if ok then blockErased u s else s) s

/-- The tile of some field whose image holds block `b`: field, key, copy. -/
def State.ownerOf (s : State) (b : Nat) : Option (Nat × Nat × Copy) :=
  (s.fieldIds.flatMap (fun id => (s.copies id).filterMap (fun x => x.2.bind (fun c =>
    if (copyBlocks x.1 (some c)).contains b then some (id, x.1, c) else none)))).head?

/-- The image of a tile moves to free blocks, with a new record (R351, R601). -/
def relocTile (id key : Nat) (c : Copy) (s : State) : State :=
  let layer := key / 65536
  match s.storeRun (tileBlocks layer) with
  | none => s
  | some b =>
    let s := nextSeq (s.setBytes (storeAddr b) (s.bytes (storeAddr c.block) (imageBytes layer)))
    let r := appendRec (tileRec id layer (key % 256) (key / 256 % 256) false false 0 b s.store.seq c.crc) s
    if !r.1 then report 277 r.2
    else
      let s := r.2
      let s := if id = s.openField then { s with cov := { s.cov with dir := tset none s.cov.dir key (some { c with block := b }) } } else s
      freeBlocks (copyBlocks key (some c)) s

/-- A block is relocated: a directory half is compacted into the other, a tile image moves, a log block moves. -/
def relocBlock (b : Nat) (s : State) : State :=
  if b < 32 then (if decide (16 ≤ b) == s.store.half then compactDir s else s)
  else if b < 6144 then
    match s.ownerOf b with
    | some p => relocTile p.1 p.2.1 p.2.2 s
    | none => s
  else
    let d := 6144 + s.free 16 % 1536
    let s := (s.draw.setBytes (storeAddr d) (s.bytes (storeAddr b) 4096))
    if d = b then s else blockErased b s

/-- `WEAR_RELOC` (R601): after 4 corrected bits in a block. -/
def execWearReloc (u : Fin 7680) (t : Nat) (step : ActStep) (s : State) : Res :=
  let s := s.at t
  let s := arbiterAsk (decide (4 ≤ tget 0 s.mnt.corrected u)) 4 u step s
  actStep 4 u step true id (fun ok s =>
    if ok then { relocBlock u s with mnt := { (relocBlock u s).mnt with corrected := tset 0 (relocBlock u s).mnt.corrected u 0 } } else s) s

/-- `PAGE` (R345, R346): the tile becomes resident and its deferred increments are applied. -/
def execPage (layer : Fin 3) (tx ty : BitVec 8) (t : Nat) (step : ActStep) (s : State) : Res :=
  let s := s.at t
  actStep 5 (layer * 65536 + tx.toNat * 256 + ty.toNat) step true id
    (fun ok s => if ok then pageIn (tileKey layer tx.toNat ty.toNat) s else s) s

/-- The logs and telemetry partition. -/
def logBlock (s : State) : Nat := 0x43980000 + 4096 * (s.free 16 % 1536)

/-- The newest uncopied records of the Umpire's ring, oldest first. -/
def State.uncopied (s : State) : List Word :=
  let n := s.get UMP_LOG_STAT_UNCOPIED
  let q := s.get UMP_LOG_SEQ_SEQ
  (List.range n).flatMap (fun i => tget [] s.ump.log ((q + 256 - n + i) % 256))

/-- `LOG_COPY` (R545, R601): the Umpire asks while records are uncopied; they go into flash, to a place the spec leaves open. -/
def execLogCopy (t : Nat) (step : ActStep) (s : State) : Res :=
  let s := s.at t
  let s := if s.get UMP_LOG_STAT_UNCOPIED ≠ 0 ∧ step = .start then mntRequest 6 0 .block s else s
  actStep 6 0 step true id
    (fun ok s => if ok then ((s.draw.setWords (logBlock s) s.uncopied)).put UMP_LOG_STAT_UNCOPIED 0 else s) s

/-- `TELEMETRY` (R601): 4 KB from `MNT_TEL_SRC` go into flash, to a place the spec leaves open. -/
def execTelemetry (t : Nat) (step : ActStep) (s : State) : Res :=
  let s := s.at t
  let src := 4096 * s.get MNT_TEL_SRC_ADDR
  actStep 7 0 step true id
    (fun ok s => if ok && inShared src then s.draw.setBytes (logBlock s) (s.bytes src 4096) else s) s

/-- The gain a trim leaves: within ±5 % of the set's (R612). -/
def trimmed (set aim : Nat) : Nat := clamp (set * 95 / 100) (set * 105 / 100) aim

/-- `CAL_ON` (R601, R208): off by more than 5 % is a `SENSE` fault; else the sense path works again, trimmed. -/
def execCalOn (i : Fin 152) (t : Nat) (step : ActStep) (off : Nat) (gain : BitVec 16) (s : State) : Res :=
  let s := s.at t
  actStep 8 i step true id (fun ok s =>
    if !ok then s
    else if 50 < off then fltEvent i 12 (s.modChan i (fun c => { c with senseBad := true }))
    else
      let w := tget [] s.calSet i
      let g := trimmed (wbits (w.getD 0 0) 31 16) gain.toNat
      let lo := wbits (w.getD 0 0) 15 0
      let s := s.modChan i (fun c => { c with senseBad := false })
      { s with calLive := tset [] s.calLive i [BitVec.ofNat 32 (g * 65536 + lo), w.getD 1 0] }) s

/-- `DIAG_OFF` (R205, R601): the off-state diagnostic in the next off window; a criterion counts as in any window. -/
def execDiagOff (i : Fin 152) (t : Nat) (step : ActStep) (down up : Bool) (s : State) : Res :=
  let s := s.at t
  actStep 9 i step true id (fun ok s =>
    let c := s.chan i
    if !ok || c.out then s
    else
      let o := if up then c.offHits + 1 else 0
      let b := if down then c.batHits + 1 else 0
      twice i 6 b (twice i 5 o (s.setChan i { c with offHits := o, batHits := b }))) s

/-- `CORE_TEST` (R601, R608, R609): under a firmware test the core counts as out; a pass returns its tasks at the next T0, a failure
reports source 450 + n. -/
def execCoreTest (c : Fin 4) (t : Nat) (step : ActStep) (s : State) : Res :=
  let s := s.at t
  actStep 10 c step (s.canMove c)
    (fun s => { s.putBit SUB_CORES_TEST c true with sub := { s.sub with again := true } })
    (fun ok s =>
      let s := s.putBit SUB_CORES_TEST c false
      let mine := s.sub.op == 7 && s.sub.unit == c.val
      let s := { s with sub := { s.sub with again := true } }
      if ok then
        let s := { s with sub := { s.sub with needTest := clrBit s.sub.needTest c } }
        if mine then subShow 7 2 { s with sub := { s.sub with phase := 2 } } else s
      else report (450 + c) (if mine then subFailed s else s)) s

/-- A write of `LCP_SUBp` (R257): its fields, and the replacement that `REQ` starts. -/
def ledSubWrite (p drv tmo : Nat) (req : Bool) (s : State) : State :=
  let s := (s.put (LCP_SUB_DRV p) drv).put (LCP_SUB_TMO_S p) tmo
  ledReplace p (s.flag (LCP_SUB_REQ p) req)

/-- `LCP_SUB_REQ` (R257). -/
def execLcpSubReq (p : Fin 2) (drv : Fin 16) (tmo : BitVec 8) (t : Nat) (s : State) : Res :=
  let s := s.at t
  if s.alive then .next (ledSubWrite p drv tmo.toNat true s) else .next s

end Sys2Proof.Machine
end

