-- ==== Sys2Proof/Machine/Journal.lean ====
section
/-!
DEFINITION. Sys2Proof/Machine/Journal.lean: the work journal (R589–R600) and its commands. The controller's view changes when it
takes an operation; `JOURNAL_DURABLE` makes the oldest one durable in MRAM and writes its event records.
-/
namespace Sys2Proof.Machine

def State.item (s : State) (i : Nat) : Item := tget {} s.jrnl.view.items i
def State.jrec (s : State) (q : Nat) : SrcRec := tget {} s.jrnl.view.recs q

/-- Changes an entry, or a source record, of a book. -/
def Book.setItem (b : Book) (i : Nat) (x : Item) : Book := { b with items := tset {} b.items i x }
def Book.setRec (b : Book) (q : Nat) (x : SrcRec) : Book := { b with recs := tset {} b.recs q x }

/-- Sequence number `a` comes before `b`, wrap-safe (R591). -/
def seqBefore (a b : Nat) : Bool := decide (2 ^ 31 ≤ (a + 2 ^ 32 - b % 2 ^ 32) % 2 ^ 32)

/-- The next sequence number. -/
def seqNext (a : Nat) : Nat := (a + 1) % 2 ^ 32

/-- The entry of item (q, seq) in a book. -/
def Book.find (b : Book) (q seq : Nat) : Option (Nat × Item) :=
  b.items.find? (fun e => e.2.state != 0 && e.2.src == q && e.2.seq == seq)

/-! ### MRAM image and event ring (R589, R590, R617) -/

/-- Bytes of words. -/
def wordBytes (l : List Word) : List Byte := l.flatMap (fun w => leBytes 4 w.toNat)

/-- Fifteen words with their CRC-32 in word 15. -/
def sealEntry (l : List Word) : List Word :=
  let l := (List.range 15).map (fun i => l.getD i 0)
  l ++ [Config.crc32 (wordBytes l)]

def Item.words (x : Item) : List Word :=
  let w (n : Nat) : Word := BitVec.ofNat 32 n
  sealEntry ([w (x.state * 2 ^ 28 + x.outcome * 2 ^ 24 + x.src * 2 ^ 16 + x.kind), w x.seq, w x.since,
    w (x.attempts * 2 ^ 24 + x.claimant * 2 ^ 16 + x.ttl)] ++ (List.range 10).map (fun i => x.data.getD i 0) ++ [w x.result])

def SrcRec.words (x : SrcRec) : List Word := sealEntry [BitVec.ofNat 32 x.next, BitVec.ofNat 32 x.rpt]

/-- The journal partition (R38). -/
def journalBase : Nat := 0x50000000

/-- Writes an entry of the journal partition. -/
def mramItem (e : Nat × Item) (s : State) : State :=
  { s.setWords (journalBase + 64 * e.1) e.2.words with book := s.book.setItem e.1 e.2 }
def mramRec (e : Nat × SrcRec) (s : State) : State :=
  { s.setWords (journalBase + 64 * e.1) e.2.words with book := s.book.setRec e.1 e.2 }

/-- Writes an event record: type, outcome or reason, source, index, item `SEQ`, word 3. -/
def jEvent (e : List Nat) (s : State) : State :=
  let n := (s.get JRNL_EV_SEQ_SEQ + 1) % 2 ^ 32
  let a := 64 * s.get JRNL_EV_BASE_BASE + 16 * ((n + 2 ^ 32 - 1) % 256)
  let g (i : Nat) := e.getD i 0
  let w1 := g 0 * 2 ^ 28 + g 1 * 2 ^ 24 + g 2 * 2 ^ 16 + g 3
  let s := s.put JRNL_EV_SEQ_SEQ n
  if inShared a then
    s.setWords a [BitVec.ofNat 32 n, BitVec.ofNat 32 w1, BitVec.ofNat 32 (g 4), BitVec.ofNat 32 (g 5)]
  else s

/-- The OUTCOME record of an item. -/
def outcomeEvent (i : Nat) (x : Item) : List Nat := [3, x.outcome, x.src, i, x.seq, x.result]

/-- Writes the OUTCOME records of source `q` that are now in order (R595), at most `fuel` of them. -/
def jOutcomes (q : Nat) : Nat → State → State
  | 0, s => s
  | fuel + 1, s =>
    let n := seqNext (tget 0 s.jrnl.outNext q)
    match s.book.find q n with
    | some e =>
      if e.2.state = 3 then
        jOutcomes q fuel (jEvent (outcomeEvent e.1 e.2) { s with jrnl := { s.jrnl with outNext := tset 0 s.jrnl.outNext q n } })
      else s
    | none => s

/-- REPLAY (R595): in order, the OUTCOME records already written of DONE items not yet acknowledged. -/
def jReplay (q : Nat) : Nat → Nat → State → State
  | 0, _, s => s
  | fuel + 1, n, s =>
    if seqBefore (tget 0 s.jrnl.outNext q) n then s
    else match s.book.find q n with
      | some e => jReplay q fuel (seqNext n) (if e.2.state = 3 then jEvent (outcomeEvent e.1 e.2) s else s)
      | none => s

/-! ### Taking an operation (R591–R593) -/

/-- REJECT (R591, R592, R598): reasons 1 and 5 report source 443. -/
def jReject (reason q i seq : Nat) (s : State) : State :=
  let s := jEvent [2, reason, q, i, seq, 0] s
  if reason = 1 ∨ reason = 5 then report 443 s else s

/-- The controller takes an operation: none while `EN` is 0, BUSY while it is fenced or its queue is full, NOT_READY before
recovery ends. -/
def jTake (q i seq : Nat) (f : State → State) (s : State) : State :=
  if !s.alive || !s.on JRNL_CTL_EN then s
  else if s.on JRNL_STAT_FENCED then jReject 5 q i seq s
  else if !s.on JRNL_STAT_READY then jReject 6 q i seq s
  else if 64 ≤ s.jrnl.queue.length then jReject 5 q i seq s
  else f s

/-- Queues what an operation leaves to be made durable, and changes the view. -/
def jPush (w : JWork) (s : State) : State :=
  let v := w.items.foldl (fun b e => b.setItem e.1 e.2) s.jrnl.view
  let v := w.recs.foldl (fun b e => b.setRec e.1 e.2) v
  { s with jrnl := { s.jrnl with view := v, queue := s.jrnl.queue ++ [w] } }

/-- An operation that does not match (R593). -/
def jBad (s : State) : State := report 444 (s.flag JRNL_STAT_OP_REJ true)

/-- Entries not FREE, of the journal or of a source. -/
def State.openItems (s : State) : Nat := s.jrnl.view.items.countP (fun e => e.2.state != 0)
def State.openOf (s : State) (q : Nat) : Nat := s.jrnl.view.items.countP (fun e => e.2.state != 0 && e.2.src == q)

/-- The free entry that a new item takes: the first at or after a free start, in entries 64–49,151. -/
def State.freeEntry (s : State) : Nat :=
  let st := s.free 32 % 49088
  let cand := (List.range (s.jrnl.view.items.length + 1)).map (fun k => 64 + (st + k) % 49088)
  (cand.find? (fun i => (s.item i).state == 0)).getD 64

/-- A SUBMIT that is accepted (R591). -/
def jAccept (q kind seq : Nat) (s : State) : State :=
  let i := s.freeEntry
  let x : Item := { state := 1, src := q, kind := kind, seq := seq, since := s.now, ttl := s.get JRNL_SUB_TTL_TTL_S,
                    data := (List.range 10).map (fun k => BitVec.ofNat 32 (s.get (JRNL_SUB_DATA_W k))) }
  let r := s.jrec q
  jPush { items := [(i, x)], recs := [(q, { r with next := seqNext r.next })], events := [[0, 0, q, i, seq, kind]] } s.draw

/-- The DUPLICATE record (R591). -/
def jDuplicate (q seq : Nat) (s : State) : State :=
  match s.jrnl.view.find q seq with
  | some e => jEvent [1, if e.2.state = 3 then e.2.outcome else 0, q, e.1, seq, 0] s
  | none => jEvent [1, 15, q, 0xFFFF, seq, 0] s

/-- SUBMIT of the staged item (R591). -/
def jSubmit (s : State) : State :=
  let q := s.get JRNL_SUB_HDR_SRC
  let kind := s.get JRNL_SUB_HDR_KIND
  let seq := s.get JRNL_SUB_SEQ_SEQ
  let r := s.jrec q
  jTake q 0 seq (fun s =>
    if !s.on (JRNL_SRC_CFG_EN q) then jReject 3 q 0 seq s
    else if kind == 0 || s.jrnl.hdrBad then jReject 4 q 0 seq s
    else if seq = r.next then
      if s.openItems < 49088 ∧ s.openOf q < orOne (s.get (JRNL_SRC_CFG_MAX_OPEN q)) then jAccept q kind seq s
      else jReject 1 q 0 seq s
    else if seqBefore seq r.next then jDuplicate q seq s
    else jReject 2 q 0 seq s) s

/-- An operation on entry `i` whose item `SEQ` must be in `JRNL_ARG`; `f` gives the entry it leaves, none where the state does
not match. -/
def jItemOp (i : Nat) (f : Item → Option Item) (s : State) : State :=
  let x := s.item i
  let seq := s.get JRNL_ARG_ARG
  jTake x.src i seq (fun s =>
    if x.state = 0 ∨ x.seq ≠ seq then jBad s
    else match f x with
      | some y => jPush { items := [(i, y)] } s
      | none => jBad s) s

/-- CLAIM, DONE, CANCEL (R593). -/
def jClaim (i task : Nat) (s : State) : State :=
  jItemOp i (fun x => if x.state = 1 then some { x with state := 2, claimant := task } else none) s
def jDone (i outcome task : Nat) (s : State) : State :=
  jItemOp i (fun x => if x.state = 2 ∧ x.claimant = task ∧ 1 ≤ outcome ∧ outcome ≤ 3 then
    some { x with state := 3, outcome := outcome, result := s.get JRNL_RESULT_RESULT } else none) s
def jCancel (i : Nat) (s : State) : State :=
  jItemOp i (fun x => if x.state = 1 then some { x with state := 3, outcome := 3 } else none) s

/-- RPT_ACK (R593, R595): the report of `RPT_SEQ` + 1, named in `JRNL_ARG`. -/
def jAck (q : Nat) (s : State) : State :=
  let r := s.jrec q
  let seq := s.get JRNL_ARG_ARG
  jTake q 0xFFFF seq (fun s =>
    match s.jrnl.view.find q seq with
    | some e =>
      if seq = seqNext r.rpt ∧ e.2.state = 3 then jPush { items := [(e.1, {})], recs := [(q, { r with rpt := seq })] } s
      else jBad s
    | none => jBad s) s

/-- REPLAY (R595). -/
def jReplayOp (q : Nat) (s : State) : State := jTake q 0xFFFF (s.get JRNL_ARG_ARG) (jPush { replay := some q }) s

/-- A write of `JRNL_OP` by the task that commits it, 0xFF from S mode. -/
def jOp (op outcome i task : Nat) (s : State) : State :=
  if op = 1 then jSubmit s
  else if op = 2 then jClaim i task s
  else if op = 3 then jDone i outcome task s
  else if op = 4 then jCancel i s
  else if op = 5 then jAck (i % 64) s
  else if op = 6 then jReplayOp (i % 64) s
  else s

/-! ### Reverts, expiry, durability, recovery (R592, R595–R598) -/

/-- The entry a revert leaves (R596). -/
def Item.reverted (x : Item) (maxAtt : Nat) : Item :=
  if maxAtt ≤ x.attempts + 1 then { x with state := 3, outcome := 5, attempts := x.attempts + 1 }
  else { x with state := 1, attempts := x.attempts + 1, claimant := 0 }

/-- A claim reverts, with a RECLAIM record; one that brings `ATTEMPTS` to `MAX_ATT` reports source 446. -/
def jRevert (i : Nat) (s : State) : State :=
  let x := s.item i
  let y := x.reverted (orOne (s.get JRNL_CTL_MAX_ATT))
  let s := jPush { items := [(i, y)], events := [[4, 0, x.src, i, x.seq, 0]] } s
  if y.state = 3 then report 446 s else s

/-- Reverts every claim of a task. -/
def jRevertTask (task : Nat) (s : State) : State :=
  if s.on JRNL_STAT_READY then
    forEach (s.jrnl.view.items.filter (fun e => e.2.state == 2 && e.2.claimant == task)) (fun e s => jRevert e.1 s) s
  else s

/-- What an operation leaves becomes durable: entries, then records; then the event records, in order (R592, R595). -/
def jDurable (w : JWork) (s : State) : State :=
  let s := forEach w.items mramItem s
  let s := forEach w.recs (fun e s =>
    let s := mramRec e s
    if seqBefore (tget 0 s.jrnl.outNext e.1) e.2.rpt then
      { s with jrnl := { s.jrnl with outNext := tset 0 s.jrnl.outNext e.1 e.2.rpt } } else s) s
  let s := forEach w.events jEvent s
  let s := match w.replay with
    | some q => jReplay q s.book.items.length (seqNext (tget {} s.book.recs q).rpt) s
    | none => s
  forEach (w.items.map (fun e => e.2.src) ++ w.recs.map (fun e => e.1)) (fun q s => jOutcomes q s.book.items.length s) s

/-- `JOURNAL_DURABLE` (R592): the oldest operation taken. -/
def execJournalDurable (t : Nat) (s : State) : Res :=
  let s := s.at t
  match s.jrnl.queue with
  | [] => .next s
  | w :: l =>
    if s.clocks && !s.on JRNL_STAT_FENCED then .next (jDurable w { s with jrnl := { s.jrnl with queue := l } }) else .next s

/-- `SUBMIT` (R591). -/
def execSubmit (t : Nat) (s : State) : Res := .next (jSubmit (s.at t))
/-- `CLAIM` (R593). -/
def execClaim (i : BitVec 16) (task : BitVec 8) (t : Nat) (s : State) : Res := .next (jClaim i.toNat task.toNat (s.at t))
/-- `DONE` (R593, R594). -/
def execDone (i : BitVec 16) (outcome : BitVec 4) (task : BitVec 8) (t : Nat) (s : State) : Res :=
  .next (jDone i.toNat outcome.toNat task.toNat (s.at t))
/-- `CANCEL` (R593). -/
def execJournalCancel (i : BitVec 16) (t : Nat) (s : State) : Res := .next (jCancel i.toNat (s.at t))
/-- `RPT_ACK` (R593, R595). -/
def execRptAck (q : Fin 64) (t : Nat) (s : State) : Res := .next (jAck q (s.at t))
/-- `REPLAY` (R595). -/
def execReplay (q : Fin 64) (t : Nat) (s : State) : Res := .next (jReplayOp q (s.at t))

/-- `CLAIM_HOLD_EXPIRY` (R596): a claimant that has not reached COMMITTED for `HOLD_MS`. -/
def execClaimHoldExpiry (task : Fin 64) (t : Nat) (s : State) : Res :=
  let s := s.at t
  if tget 0 s.jrnl.commits task + ms (s.get JRNL_CTL_HOLD_MS) ≤ s.now then .next (jRevertTask task s) else .next s

/-- `TTL_EXPIRY` (R597). -/
def execTtlExpiry (i : BitVec 16) (t : Nat) (s : State) : Res :=
  let s := s.at t
  let x := s.item i.toNat
  if s.on JRNL_STAT_READY && x.state == 1 && x.ttl != 0 && decide (x.since + sec x.ttl ≤ s.now) then
    .next (report 446 (jPush { items := [(i.toNat, { x with state := 3, outcome := 4 })] } s))
  else .next s

/-- Entry `i` as recovery leaves it (R598). -/
def Item.recovered (x : Item) (bad : Bool) (maxAtt : Nat) : Item :=
  if bad then { x with state := 3, outcome := 2, result := 0xDEAD0000 }
  else if x.state = 2 then x.reverted maxAtt else x

/-- Recovers one entry. -/
def jRecoverItem (bad : List Nat) (e : Nat × Item) (s : State) : State :=
  let b := bad.contains e.1
  let y := e.2.recovered b (orOne (s.get JRNL_CTL_MAX_ATT))
  let s := if y = e.2 then s else mramItem (e.1, y) s
  if b then report 445 s
  else if e.2.state = 2 then
    let s := jEvent [4, 0, e.2.src, e.1, e.2.seq, 0] s
    if y.state = 3 then report 446 s else s
  else s

/-- `JOURNAL_RECOVERY_COMPLETE` (R598): from the partition alone; claims revert, outcomes not yet acknowledged are written again,
`READY` is set. -/
def execJournalRecoveryComplete (t : Nat) (bad : List Nat) (s : State) : Res :=
  let s := s.at t
  if !s.clocks || s.on JRNL_STAT_READY || s.on JRNL_STAT_FENCED then .next s
  else
    let s := forEach s.book.items (jRecoverItem bad) s
    let out := s.book.recs.foldl (fun m e => tset 0 m e.1 e.2.rpt) []
    let s := { s with jrnl := { s.jrnl with view := s.book, queue := [], outNext := out } }
    let s := overN 64 (fun q s => jOutcomes q s.book.items.length s) s
    .next (s.flag JRNL_STAT_READY true)

end Sys2Proof.Machine
end

