-- ==== Sys2Proof/Machine/Prism.lean ====
section
/-!
DEFINITION. Sys2Proof/Machine/Prism.lean: the clock unit (chapter 16): monitors and forcing, qualification, the wait, the return to
the PLL, and the gating of units.
-/
namespace Sys2Proof.Machine

/-- The clock unit works: in every state of R620 in which its clocks may run. -/
def State.prismRuns (s : State) : Bool := s.alive && (s.power == .run || s.power == .idle)

/-- A switch has completed (R626, R645). -/
def noteSwitch (s : State) : State := s.put PRISM_SW_T s.now

/-- A cause persists from here on (R644); its source reports. -/
def causeBegins (n : Nat) (s : State) : State :=
  report n { s with prism := { s.prism with causes := tset none s.prism.causes n (some s.now) } }

/-- A cause has gone. -/
def causeEnds (n : Nat) (s : State) : State :=
  { s with prism := { s.prism with causes := tset none s.prism.causes n none } }

/-- The increment per `TBASE` cycle on HFRC, as the Prism measures it: free within the ±2 % of R622 (R639). -/
def hfrcIncrement (s : State) : State :=
  let v := 16441672 + s.free 32 % 671089
  ((s.draw).put TBASE_INC_INT (v / 2 ^ 24)).put TBASE_INC_FRAC v

/-- Every domain runs on HFRC (R625, R626): ETH stopped. -/
def runOnHfrc (s : State) : State := overN 2 ethDown (noteSwitch (hfrcIncrement (s.put PRISM_STAT_SRC 1)))

/-- The device waits for HFRC, every domain stopped (R633). -/
def waitForHfrc (s : State) : State :=
  { overN 2 ethDown (s.put PRISM_STAT_SRC 2) with prism := { s.prism with waiting := true } }

/-- The wait ends: every domain restarts on HFRC, and held reports reach the Umpire (R633, R634). -/
def endWait (s : State) : State :=
  if s.prism.waiting && s.on PRISM_STAT_HFRC_Q then
    let l := s.prism.held
    let s := runOnHfrc { s with prism := { s.prism with waiting := false, held := [] } }
    forEach l reportHeld s
  else s

/-- The forcing of R632: Backstop requests, the safe state of FLD, `FORCED`; then HFRC or the wait. `isolated`: the trip stops
the domains in use. -/
def clockForce (isolated : Bool) (s : State) : State :=
  let s := overN 4 (fun k s => dieBackstop k .clock s) (s.flag PRISM_STAT_FORCED true)
  let s := { s with field := { s.field with safeNext := s.field.powered } }
  let s := { s with prism := { s.prism with ret := false } }
  if isolated then (if s.on PRISM_STAT_HFRC_Q then runOnHfrc s else waitForHfrc s) else s

/-- The domain `d` runs on the source in use: 0 CORE, 1 FABRIC, 2 TBASE, 3 PERIPH, 4 CHAIN, 5 CAN, 6 ETH, which HFRC does not feed
(R621). -/
def State.domainFed (s : State) (d : Nat) : Bool :=
  !s.prism.waiting && (decide (d < 6) || (d == 6 && s.get PRISM_STAT_SRC == 0))

/-- The XIN monitor trips (R630–R632, R644): the PLL loses its reference with it. -/
def tripXin (s : State) : State :=
  let onPll := s.get PRISM_STAT_SRC == 0
  let hadPll := s.on PRISM_STAT_PLL_Q
  let s := clockForce onPll ((s.flag PRISM_STAT_XIN_Q false).flag PRISM_STAT_PLL_Q false)
  let s := causeBegins 0 s
  if hadPll then causeBegins 1 s else s

/-- The PLL monitor trips. -/
def tripPll (s : State) : State :=
  causeBegins 1 (clockForce (s.get PRISM_STAT_SRC == 0) (s.flag PRISM_STAT_PLL_Q false))

/-- The HFRC monitor trips: with HFRC as the source the device waits (R632), otherwise it is logged. -/
def tripHfrc (s : State) : State :=
  let isSource := s.get PRISM_STAT_SRC == 1
  let s := s.flag PRISM_STAT_HFRC_Q false
  if isSource then causeBegins 4 (clockForce true s)
  else causeBegins 3 s

/-- The monitor of LXTAL trips: in SLEEP and DEEP the time base goes on on LFRC, and source 5 reports at the return (R643). -/
def tripLxtal (s : State) : State :=
  let s := s.flag PRISM_STAT_LXTAL_Q false
  if s.power = .sleep ∨ s.power = .deep then
    if s.pwr.lf = 1 then { s with pwr := { s.pwr with lf := 3 } } else s
  else causeBegins 5 s

/-- A monitor trips. -/
def clockTrip (m : ClockMon) (s : State) : State :=
  match m with
  | .lxtal => if s.alive && s.on PRISM_STAT_LXTAL_Q && s.power != .off then tripLxtal s else s
  | .lfrc => if s.alive && s.on PRISM_STAT_LFRC_Q && s.power != .off then causeBegins 6 (s.flag PRISM_STAT_LFRC_Q false) else s
  | .xin => if s.prismRuns && s.on PRISM_STAT_XIN_Q then tripXin s else s
  | .pll => if s.prismRuns && s.on PRISM_STAT_PLL_Q then tripPll s else s
  | .hfrc => if s.prismRuns && s.on PRISM_STAT_HFRC_Q then tripHfrc s else s
  | .domain d => if s.prismRuns && s.domainFed d then report 2 (clockForce true s) else s
  | .switching => if s.prismRuns then report 10 s else s

/-- `CLOCK_MONITOR_TRIP` (R630–R635). -/
def execClockMonitorTrip (m : ClockMon) (t : Nat) (s : State) : Res := .next (clockTrip m (s.at t))

/-- A source qualifies (R631): XIN against a qualified HFRC, the PLL on a qualified XIN, LXTAL while fitted. -/
def qualify (c : ClockSrc) (s : State) : State :=
  match c with
  | .xin => if s.on PRISM_STAT_HFRC_Q then causeEnds 0 (s.flag PRISM_STAT_XIN_Q true) else s
  | .pll => if s.on PRISM_STAT_XIN_Q then causeEnds 7 (causeEnds 1 (s.flag PRISM_STAT_PLL_Q true)) else s
  | .hfrc => endWait (causeEnds 4 (causeEnds 3 (s.flag PRISM_STAT_HFRC_Q true)))
  | .lxtal =>
    if s.on PRISM_STAT_HFRC_Q && s.on PRISM_CTL_LXTAL_EN then causeEnds 5 (s.flag PRISM_STAT_LXTAL_Q true) else s
  | .lfrc => causeEnds 6 (s.flag PRISM_STAT_LFRC_Q true)

/-- `SOURCE_QUALIFIED` (R631, R633). -/
def execSourceQualified (c : ClockSrc) (t : Nat) (s : State) : Res :=
  let s := s.at t
  if s.prismRuns then .next (qualify c s) else .next s

/-- `CLOCK_REREPORT` (R644): a cause that persists reports again every 100 ms. -/
def execClockRereport (n : Fin 16) (t : Nat) (s : State) : Res :=
  let s := s.at t
  match tget none s.prism.causes n with
  | some a => if s.prismRuns && decide (a + ms 100 ≤ s.now) then .next (causeBegins n s) else .next s
  | none => .next s

/-- `LFCAL_MEASURE` (R640): while the PLL is the source. -/
def execLfcalMeasure (t : Nat) (cal : BitVec 32) (s : State) : Res :=
  let s := s.at t
  if s.prismRuns && s.get PRISM_STAT_SRC == 0 then
    .next ((s.put TBASE_LFCAL_INT (cal.toNat / 65536)).put TBASE_LFCAL_FRAC cal.toNat)
  else .next s

/-! ### Return to the PLL (R628) -/

/-- `PRISM_CTL.RETURN` is committed: ignored while `PLL_Q` is 0. -/
def clockReturn (s : State) : State :=
  if s.prismRuns && s.on PRISM_STAT_PLL_Q && s.get PRISM_STAT_SRC == 1 then { s with prism := { s.prism with ret := true } } else s

def execPrismReturn (t : Nat) (s : State) : Res := .next (clockReturn (s.at t))

/-- The states in which a controller's clock branch switches at once. -/
def State.canSwitches (s : State) (n : Nat) : Bool :=
  let st := s.canState n
  st == 0 || st == 4 || st == 7 || st == 8

/-- The return itself, at the first latch after the maintenance slice that falls before T0 `next`. -/
def doReturn (next : Nat) (s : State) : State :=
  let latch := (s.now + 399) / 400 * 400
  if s.prism.ret && s.on PRISM_STAT_PLL_Q && s.get PRISM_STAT_SRC == 1 && decide (latch < next) then
    let s := noteSwitch { s.put PRISM_STAT_SRC 0 with now := latch, prism := { s.prism with ret := false } }
    let s := (s.put TBASE_INC_INT 1).put TBASE_INC_FRAC 0
    overN 13 (fun n s => if s.canSwitches n then s else s.modCan n (fun x => { x with onHfrc := true })) s
  else s

/-! ### Gating (R629) -/

/-- A write of the gates: a unit whose clock stops leaves what it was doing. -/
def gateWrite (v : Nat) (s : State) : State :=
  let can := v % 2 ^ 13
  let eth := v / 2 ^ 13
  let s := overN 13 (fun n s => if can.testBit n && !s.bit PRISM_GATE_CAN n then cutTx n s else s) s
  let s := overN 2 (fun e s => if eth.testBit e && !s.bit PRISM_GATE_ETH e then ethDown e s else s) s
  (s.put PRISM_GATE_CAN can).put PRISM_GATE_ETH eth

def execPrismGate (v : BitVec 15) (s : State) : Res := if s.alive then .next (gateWrite v.toNat s) else .next s

end Sys2Proof.Machine
end

