-- ==== Sys2Proof/Machine/Timer.lean ====
section
/-!
DEFINITION. Sys2Proof/Machine/Timer.lean: timer units, switch inputs and the ADC (chapter 08): posts and adoption, edges and
captures, the capture windows, scans; and their commands.
-/
namespace Sys2Proof.Machine

/-! ### Posts (R362, R363) -/

/-- `TMR_POST`. -/
def tmrPost (c : Nat) (s : State) : State :=
  if s.tmrPosts.contains c then s else { s with tmrPosts := s.tmrPosts ++ [c] }

/-- `TMR_POST` (R363, R386): the entry is read at the commit point. -/
def execTmrPost (c : Fin 32) (s : State) : Res := .next (tmrPost c s)

/-- A post breaks R363. -/
def tmrBad (e : Entry) : Bool :=
  decide (4 < e.tMode) || e.edge == 3 || decide (11 < e.insel) || (e.filt == 0 && decide (2 ≤ e.tMode)) ||
    wbits e.w1 31 28 != 0 || e.w5 != 0 || e.w6 != 0 || wbits e.w7 31 16 != 0 ||
    (e.cmpEn && decide (e.tPer < e.cmp)) || (e.addEn && (e.ivl == 0 || decide (e.tPer < e.ivl)))

/-- The base of the timer channel table. -/
def State.tmrBase (s : State) : Nat := 64 * s.get TMR_BASE_BASE

/-- Reads one posted entry (R164, R363): a rejected post reports source 290. -/
def tmrRead (c : Nat) (s : State) : State :=
  let e := Entry.ofWords (s.words (s.tmrBase + 64 * c) 8)
  let x := s.tmrChan c
  if tmrBad e then
    let s := (s.flag TMR_POST_STAT_REJ true).put TMR_POST_STAT_REJ_INDEX c
    reportFull 290 (0x038 + c / 4) 0 false (s.setTmr c (x.mark 1))
  else s.setTmr c { x with shadow := some e }

/-- The commit point of the timer channel table. -/
def tmrCommitPoint (s : State) : State :=
  let l := s.tmrPosts
  forEach l tmrRead { s with tmrPosts := [] }

/-- The filter restarts at the present synchronised level (R366). -/
def refilter (o e : Entry) : Bool :=
  o.insel != e.insel || o.fclk != e.fclk || o.filt != e.filt || (o.tMode == 0 && e.tMode != 0)

/-- What an adoption does to a channel (R366, R376, R377), at instant `t` with input level `pin`. -/
def tmrTake (x : TmrChan) (e : Entry) (pin : Bool) (t : Nat) : TmrChan :=
  let o := x.entry
  let restart := o.tMode != e.tMode || o.insel != e.insel || o.psc != e.psc || o.edge != e.edge
  let x := if restart then
      { x with cnt := 0, psc := 0, buf := none, frozen := false, flags := clrBit x.flags 5, truncNext := false,
               clrNext := false, edges := 0 }
    else x
  let per := if restart || e.perImm then e.tPer else x.per
  let cmpNow := if restart || o.cmp != e.cmp || o.cmpEn != e.cmpEn then e.cmp else x.cmpNow
  { x with
      entry := e, shadow := none, genAck := e.gen, per := per, cmpNow := cmpNow,
      truncNext := x.truncNext || (!restart && e.perImm && o.tPer != e.tPer && decide (per ≤ x.cnt)),
      lvl := if refilter o e then pin else x.lvl, syncAt := max x.syncAt (t - 1) }

/-- A channel at T0 (R366, R371): ticks before T0 under the old entry, those at T0 under the new one; a freeze no read has
ended ends, and a buffered pair becomes visible. -/
def tmrT0 (t c : Nat) (s : State) : State :=
  let held := s.tmrHeld c
  let x := (s.tmrChan c).sync held (t - 1)
  let x := match x.shadow with
    | some e => if held then x else tmrTake x e (s.captPins.testBit e.insel) t
    | none => x
  let x := x.sync held t
  if !x.frozen then s.setTmr c x
  else match x.buf with
    | none => s.setTmr c { x with frozen := false }
    | some p =>
      let ovr := x.flags.testBit 5
      let y := { x with frozen := false, capLo := p.1, capHi := p.2, buf := none, flags := setBit x.flags 5 }
      let s := s.setTmr c (if ovr then y.mark 3 else y)
      if ovr && s.bit TMR_RPT_CH c then reportFull 289 (0x038 + c / 4) 0 false s else s

/-- Words 8–15 of a channel (R362). -/
def State.tmrWords (s : State) (c : Nat) : List Word :=
  let x := s.tmrAt c
  let b (y : Bool) (k : Nat) := if y then 2 ^ k else 0
  [BitVec.ofNat 32 (x.entry.tMode * 2 ^ 28 + b x.lvl 27 + b (s.tmrHeld c) 26), BitVec.ofNat 32 x.cnt,
   BitVec.ofNat 32 x.capLo, BitVec.ofNat 32 x.capHi, BitVec.ofNat 32 (x.rolls * 65536 + x.hits),
   BitVec.ofNat 32 x.cmpNow, BitVec.ofNat 32 x.genAck, BitVec.ofNat 32 x.flags]

/-- Every channel at T0, and the words latched there. -/
def tmrFrame (t : Nat) (s : State) : State :=
  let s := overN 32 (tmrT0 t) s
  { s with tmrStatus := (List.range 32).map (fun c => (c, s.tmrWords c)) }

/-- Writes words 8–15 back into the table (R362). -/
def tmrWriteBack (s : State) : State :=
  if s.tmrBase = 0 then s
  else forEach s.tmrStatus (fun x s => s.setWords (s.tmrBase + 64 * x.1 + 32) x.2) s

/-! ### Counting and captures -/

/-- `TMR_CLR` with `CNT` 1 (R378): 0 in place of the next increment. -/
def tmrClrCnt (c : Nat) (s : State) : State :=
  let s := tmrSync c s
  s.setTmr c { s.tmrChan c with clrNext := true }

/-- `TMR_CLR_CNT` (R378). -/
def execTmrClrCnt (c : Fin 32) (t : Nat) (s : State) : Res := .next (tmrClrCnt c (s.at t))

/-- `TMR_CLR` with `FLAGS` 1 (R386): clears `FLAGS` [4:1] and both counts. -/
def tmrClrFlags (c : Nat) (s : State) : State :=
  let s := tmrSync c s
  let x := s.tmrChan c
  s.setTmr c { x with flags := x.flags - x.flags / 2 % 16 * 2, rolls := 0, hits := 0 }

/-- `TMR_CLR_FLAGS` (R386). -/
def execTmrClrFlags (c : Fin 32) (s : State) : Res := .next (tmrClrFlags c s)

/-- The timers run: in RUN and IDLE (R379). -/
def State.tmrRuns (s : State) : Bool := s.clocks

/-- `TIMER_TICK` (R365, R374): every tick up to this one advances the counter. -/
def execTimerTick (c : Fin 32) (t : Nat) (s : State) : Res :=
  let s := s.at t
  if s.tmrRuns then .next (tmrSync c s) else .next s

/-- Stores a capture (R370): the pair of counter value and edges with sequence number. -/
def storeCapture (x : TmrChan) (lo hi : Nat) : TmrChan :=
  if x.frozen then
    match x.buf with
    | none => { x with buf := some (lo, hi) }
    | some _ => { x with buf := some (lo, hi) }.mark 3
  else if x.flags.testBit 5 then ({ x with capLo := lo, capHi := hi }).mark 3
  else ({ x with capLo := lo, capHi := hi }).mark 5

/-- A capture overwrites one that has not been read. -/
def TmrChan.overruns (x : TmrChan) : Bool := if x.frozen then x.buf.isSome else x.flags.testBit 5

/-- Passes a capture to the scheduler's wheel slots that name the channel (R369); the direction input is sampled with it
(R268). -/
def toWheels (c t : Nat) (s : State) : State :=
  let dir := s.captPins.testBit (s.get PSCH_DIR_QCAPT)
  overN 4 (fun w s =>
    if s.on (PSCH_WHL_CFG_EN w) && s.get (PSCH_WHL_CFG_TCH w) == c then
      { s with psch := { s.psch with caps := s.psch.caps ++ [(w, t, dir)] } }
    else s) s

/-- A capture at instant `t` (R368–R370). -/
def tmrCapture (c t : Nat) (s : State) : State :=
  let x := s.tmrChan c
  let seq := (x.seq + 1) % 65536
  let over' := x.overruns
  let y := storeCapture x x.cnt (min 65535 x.edges * 65536 + seq)
  let y := { y with seq := seq, edges := 0, cnt := if x.entry.clrCap then 0 else x.cnt }
  let s := toWheels c t (s.setTmr c y)
  if over' && s.bit TMR_RPT_CH c then reportFull 289 (0x038 + c / 4) 0 false s else s

/-- The edge is of the sense `EDGE` selects. -/
def Entry.wants (e : Entry) (up : Bool) : Bool := e.edge == 2 || (e.edge == 0 && up) || (e.edge == 1 && !up)

/-- An edge of the filtered input at instant `t` (R365, R367): the ticks up to `t` have been counted. -/
def tmrEdge (c t : Nat) (up : Bool) (s : State) : State :=
  let x := s.tmrChan c
  let e := x.entry
  let x := { x with lvl := up }
  if e.tMode = 3 then
    let s := s.setTmr c { x with edges := if e.wants up then x.edges + 1 else x.edges }
    if up != e.gateLevel then tmrCapture c t s else s
  else if (e.tMode = 2 ∨ e.tMode = 4) ∧ e.wants up then
    let acts := decide (e.pscEdge ≤ x.psc)
    let x := { x with psc := if acts then 0 else x.psc + 1, edges := x.edges + 1 }
    if !acts then s.setTmr c x
    else if e.tMode = 2 then tmrCapture c t (s.setTmr c x)
    else s.setTmr c (x.inc t)
  else s.setTmr c x

/-- `FILTERED_EDGE` (R367): the filtered level of a channel changes; none of a fenced unit or of an OFF channel acts. -/
def execFilteredEdge (c : Fin 32) (t : Nat) (lvl : Bool) (pins : BitVec 12) (s : State) : Res :=
  let s := { s.at t with captPins := pins.toNat }
  if !s.tmrRuns || s.tmrHeld c then .next s
  else
    let s := tmrSync c s
    let x := s.tmrChan c
    if x.lvl = lvl ∨ x.entry.tMode ≤ 1 then .next s else .next (tmrEdge c t lvl s)

/-- A read of `TMR_CAP_LO` freezes V (R371, R372). -/
def capLoRead (c : Nat) (s : State) : State := s.setTmr c { s.tmrChan c with frozen := true }

/-- A read of `TMR_CAP_HI` ends a freeze and clears `NEW`; a buffered pair moves to V (R371). -/
def capHiRead (c : Nat) (s : State) : State :=
  let x := s.tmrChan c
  if !x.frozen then s
  else match x.buf with
    | some p => s.setTmr c { x with frozen := false, capLo := p.1, capHi := p.2, buf := none, flags := setBit x.flags 5 }
    | none => s.setTmr c { x with frozen := false, flags := clrBit x.flags 5 }

/-- `CAP_LO_READ` (R371). -/
def execCapLoRead (c : Fin 32) (t : Nat) (s : State) : Res := .next (capLoRead c (s.at t))

/-- `CAP_HI_READ` (R371). -/
def execCapHiRead (c : Fin 32) (t : Nat) (s : State) : Res := .next (capHiRead c (s.at t))

/-- The return from SLEEP or DEEP (R375, R379): FREE and CAPTURE channels advance by the ticks that were passed; one event,
and `SKIP` where the step held more than one match. -/
def tmrWake (s : State) : State :=
  overN 32 (fun c s =>
    let x := s.tmrChan c
    if x.entry.tMode = 1 ∨ x.entry.tMode = 2 then
      let y := x.sync (s.tmrHeld c) s.now
      s.setTmr c (if 1 < (y.hits + 65536 - x.hits) % 65536 then y.mark 2 else y)
    else s.setTmr c { x with syncAt := s.now }) s

/-! ### Switch inputs and the ADC (R381–R384) -/

/-- The 4-bit configuration of switch input `i`: EN, PULL, WET. -/
def State.swinCfg (s : State) (i : Nat) : Nat := s.get (SWIN_CFG_CFG (i / 8)) / 16 ^ (i % 8) % 16

/-- One sample of a switch input (R381, R382). -/
def swinSample (i : Nat) (closed oppose : Bool) (s : State) : State :=
  let cfg := s.swinCfg i
  if cfg < 8 then s
  else
    let s := s.putBit SWIN_RAW_LVL i closed
    let n := if closed = s.bit SWIN_STATE_LVL i then 0 else tget 0 s.scan.swin i + 1
    let flip := decide (orOne (s.get SWIN_CTL_DEB) ≤ n)
    let s := { s with scan := { s.scan with swin := tset 0 s.scan.swin i (if flip then 0 else n) } }
    let s := if flip then (s.putBit SWIN_STATE_LVL i closed).putBit SWIN_CHG_CH i true else s
    if oppose && cfg.testBit 1 then report 291 (s.putBit SWIN_FLT_FLT i true) else s

/-- `SWIN_SCAN` (R381). -/
def execSwinScan (t : Nat) (closed oppose : BitVec 32) (s : State) : Res :=
  let go := s.tmrRuns && s.on SWIN_CTL_EN && t % ms (orOne (s.get SWIN_CTL_PER_MS)) == 0
  let s := s.at t
  if go then .next (overN 32 (fun i s => swinSample i (closed.getLsbD i) (oppose.getLsbD i) s) s) else .next s

/-- The instant is a trigger of the selected kind (R383): a period, a match of the channel, a T0. -/
def State.adcDue (s : State) (t : Nat) : Bool :=
  match s.get ADC_CTL_TRIG with
  | 1 => (s.tmrAt (s.get ADC_CTL_TRIG_CH)).matchAt == some t
  | 2 => s.frame.started && t == s.get64 FRAME_T0_LO_T0 FRAME_T0_HI_T0
  | _ => t % us (max 20 (s.get ADC_CTL_PER_US)) == 0

/-- `ADC_TRIGGER` (R383): starts a scan; during one it is skipped, counted and reported. -/
def execAdcTrigger (t : Nat) (s : State) : Res :=
  let s := s.at t
  if !s.tmrRuns || !s.on ADC_CTL_EN || !s.adcDue t then .next s
  else if s.on ADC_STAT_BUSY then .next (report 293 (s.wrap ADC_STAT_SKIPPED))
  else .next { (s.flag ADC_STAT_BUSY true) with scan := { s.scan with adcAt := some s.now } }

/-- The enabled analog inputs. -/
def State.adcInputs (s : State) : List Nat := (List.range 16).filter (fun i => s.bit ADC_EN_IN i)

/-- `ADC_SCAN_COMPLETE` (R383): 1 µs for each input and 2 µs for the reference after the trigger. -/
def execAdcScanComplete (t : Nat) (codes : List (BitVec 12)) (refOk : Bool) (s : State) : Res :=
  let s := s.at t
  match s.scan.adcAt with
  | some a =>
    if s.tmrRuns && decide (a + us (s.adcInputs.length + 2) ≤ s.now) then
      let seq := s.get ADC_STAT_SCANS
      let s := forEach s.adcInputs (fun i s =>
        (s.put (ADC_RES_SEQ i) seq).put (ADC_RES_CODE i) (codes.getD i 0).toNat) s
      let s := (s.wrap ADC_STAT_SCANS).flag ADC_STAT_BUSY false
      let s := { s with scan := { s.scan with adcAt := none } }
      .next (if refOk then s else report 292 (s.flag ADC_STAT_REF_BAD true))
    else .next s
  | none => .next s

end Sys2Proof.Machine
end

