-- ==== Sys2Proof/Machine/Power.lean ====
section
/-!
DEFINITION. Sys2Proof/Machine/Power.lean: supplies, the ignition and the machine state, power requests, the entry to SLEEP, DEEP and
OFF up to the target state, IDLE, and the return from SLEEP (chapter 17).
-/
namespace Sys2Proof.Machine

/-! ### Supplies (R650, R651, R673) -/

/-- `VBAT_L` as measured; below 5.0 V transceivers and PHYs are silent (R650). -/
def noteVbat (mV : Nat) (s : State) : State :=
  { s.put PWR_SUPPLY_VBAT_L (mV / 10) with pwr := { s.pwr with mute := decide (mV < 5000) } }

/-- `VBAT_UV` (R673): below 6.0 V for 1 ms. -/
def execVbatUv (mV t : Nat) (s : State) : Res :=
  let s := noteVbat mV (s.at t)
  .next (if mV < 6000 then report 16 s else s)

/-- `VBAT_OV` (R673): above 36 V for 1 ms. -/
def execVbatOv (mV t : Nat) (s : State) : Res :=
  let s := noteVbat mV (s.at t)
  .next (if 36000 < mV then report 17 s else s)

/-- `FLASH_SUSPEND_UV` (R651): below 5.0 V a flash program or erase stops. -/
def execFlashSuspendUv (mV t : Nat) (s : State) : Res :=
  let s := noteVbat mV (s.at t)
  .next (if mV < 5000 then { s with pwr := { s.pwr with flashOff := true } } else s)

/-- `FLASH_RESUME_UV` (R651): above 5.5 V for 10 ms it is repeated. -/
def execFlashResumeUv (mV t : Nat) (s : State) : Res :=
  let s := noteVbat mV (s.at t)
  .next (if 5500 < mV then { s with pwr := { s.pwr with flashOff := false } } else s)

/-- `GROUP_WIRE` (R673): more than 4 V apart for 100 ms below 1 A. -/
def execGroupWire (_g : Fin 8) (mVg mVl mA t : Nat) (s : State) : Res :=
  let s := s.at t
  .next (if 4000 < mVg - mVl + (mVl - mVg) ∧ mA < 1000 then report 20 s else s)

/-- The temperature of the logic die. -/
def noteTemp (c16 : Int) (s : State) : State := s.put PWR_TEMP_T (unsigned 16 c16)

/-- `LOGIC_HOT` and `LOGIC_TSD` (R673). -/
def execLogicHot (c16 : Int) (t : Nat) (s : State) : Res :=
  let s := noteTemp c16 (s.at t)
  .next (if 2240 ≤ c16 then report 24 s else s)
def execLogicTsd (c16 : Int) (t : Nat) (s : State) : Res :=
  let s := noteTemp c16 (s.at t)
  .next (if 2400 ≤ c16 then report 25 s else s)

/-- `REG_FAULT` (R673). -/
def execRegFault (t : Nat) (s : State) : Res := .next (report 21 (s.at t))

/-- `PKG_LOAD` (R673): above 150 A over 1 s, or above 32 W over 10 s. -/
def execPkgLoad (mA mW t : Nat) (s : State) : Res :=
  let s := s.at t
  .next (if 150000 < mA ∨ 32000 < mW then report 26 s else s)

/-- The source and unit of a parity or ECC error (R161 and the source tables of the blocks). -/
def paritySource : ParityUnit → Nat × Nat
  | .core n => (68 + n, 0)
  | .comparator => (53, 0)
  | .pulse => (240, 0)
  | .scheduler => (256, 0)
  | .coverage => (272, 0)
  | .timer u => (288, 0x038 + u)
  | .can n => (339 + 4 * n, 0)
  | .keeper => (429, 0)
  | .journal => (442, 0)
  | .crossing => (8, 0)
  | .timeBase => (9, 0)

/-- `PARITY_ERROR` (R161). -/
def execParityError (u : ParityUnit) (t : Nat) (s : State) : Res :=
  .next (reportFull (paritySource u).1 (paritySource u).2 0 false (s.at t))

/-! ### Wake levels (R658, R659) -/

/-- The `WAKE` ball presents: its level in a level mode, the latch in an edge mode. -/
def State.wakeBall (s : State) : Bool :=
  match s.get PWR_WAKE_CFG_MODE with
  | 0 => s.pwr.wakeLvl
  | 1 => !s.pwr.wakeLvl
  | _ => s.pwr.wakeLatch

/-- The time base has reached the alarm. -/
def State.alarmDue (s : State) : Bool := decide (s.get64 PWR_ALARM_LO_T PWR_ALARM_HI_T ≤ s.now)

/-- A network presents a bus wake; in DEEP only `CAN0`–`CAN5`. -/
def State.canWakes (s : State) : List Nat :=
  (List.range 13).filter (fun n => (s.nm n).level && (decide (n < 6) || s.power != .deep))

/-- The sources that present now, bits as `PWR_WAKE_EN` numbers them. -/
def State.wakeLevels (s : State) : Nat :=
  let b (x : Bool) (i : Nat) := if x then 2 ^ i else 0
  b s.wakeBall 0 + b s.pwr.ign 1 + b (!s.canWakes.isEmpty) 2 + b (s.pwr.lin != 0) 3 + b s.pwr.touch.isSome 4 +
    b s.alarmDue 5 + b s.pwr.ump 6 + b s.pwr.rx 7

/-- `PWR_WAKE_EN`. -/
def State.wakeEn (s : State) : Nat :=
  let b (f : Fld) (i : Nat) := if s.on f then 2 ^ i else 0
  b PWR_WAKE_EN_WAKE 0 + b PWR_WAKE_EN_KL15 1 + b PWR_WAKE_EN_CAN 2 + b PWR_WAKE_EN_LIN 3 + b PWR_WAKE_EN_CAP 4 +
    b PWR_WAKE_EN_ALARM 5 + b PWR_WAKE_EN_UMP 6 + b PWR_WAKE_EN_RXIDLE 7

/-- The sources that end a state, by `TARGET` code (R658). -/
def wakeMask : Nat → Nat
  | 1 => 0b11110011
  | 2 => 0b01111111
  | 3 => 0b00110111
  | 4 => 0b00000001
  | _ => 0

/-- The code of the state in force. -/
def PState.code : PState → Nat
  | .run => 0 | .idle => 1 | .sleep => 2 | .deep => 3 | .off => 4

/-- The enabled sources that present and that end the state with this code. -/
def State.waking (s : State) (code : Nat) : Nat := s.wakeLevels &&& s.wakeEn &&& wakeMask code

/-- The bit of a wake source in `PWR_WAKE_EN`, its code in `FIRST` less 1. -/
def wakeBit : WakeSrc → Nat
  | .wake => 0 | .kl15 => 1 | .can _ => 2 | .lin _ => 3 | .touch _ => 4 | .alarm => 5 | .umpire => 6 | .reception => 7

/-- The unit of a wake source. -/
def wakeUnit : WakeSrc → Nat
  | .can n => n | .lin m => m | .touch e => e | _ => 0

/-- The unit of the lowest source that presents. -/
def State.unitOf (s : State) (b : Nat) : Nat :=
  if b = 2 then s.canWakes.headD 0
  else if b = 3 then ((List.range 6).find? (fun m => s.pwr.lin.testBit m)).getD 0
  else if b = 4 then s.pwr.touch.getD 0
  else 0

/-- The levels of wakes end with the return to RUN (R659). -/
def clearWakes (s : State) : State :=
  let s := overN 13 (fun n s => s.modNm n (fun y => { y with level := false })) s
  { s with pwr := { s.pwr with ump := false, rx := false, lin := 0, touch := none, old := 0 } }

/-- The wake record of R670: bit and unit of the first wake; levels at the return; time base. -/
def wakeRecord (first unit levels : Nat) (s : State) : State :=
  let s := ((s.put PWR_WAKE_SRC_FIRST first).put PWR_WAKE_SRC_UNIT unit).put PWR_WAKE_SRC_LEVELS levels
  s.put64 PWR_WAKE_TS_LO_T PWR_WAKE_TS_HI_T s.now

/-- A level that was present at the entry to IDLE has fallen (R660). -/
def dropOld (s : State) : State := { s with pwr := { s.pwr with old := s.pwr.old &&& s.wakeLevels } }

/-- LF cycles in time-base units: 3 of LXTAL or LFRC. -/
def State.lf3 (s : State) : Nat := if s.pwr.lf = 1 then 18311 else 18750

/-- The entry is past its point of no return (R665). -/
def State.pastReturn (s : State) : Bool :=
  s.get PWR_STAT_PHASE == 2 &&
    (s.get PWR_STAT_ENTRY == 2 || decide (s.pwr.descAt + us 300 ≤ s.now + s.lf3))

/-- `WAKE_INPUT` (R659): the filtered level; an edge sets the latch, except in the last 3 LF cycles before DEEP or OFF. -/
def execWakeInput (level : Bool) (t : Nat) (s : State) : Res :=
  let s := s.at t
  let m := s.get PWR_WAKE_CFG_MODE
  let edge := (m == 2 && level && !s.pwr.wakeLvl) || (m == 3 && !level && s.pwr.wakeLvl)
  let lost := s.pastReturn && decide (3 ≤ s.get PWR_STAT_ENTRY)
  .next (dropOld { s with pwr := { s.pwr with wakeLvl := level, wakeLatch := s.pwr.wakeLatch || (edge && !lost) } })

/-- `PWR_WAKE_SRC_READ` (R659): in RUN. -/
def wakeSrcRead (s : State) : State :=
  if s.power = .run then { s with pwr := { s.pwr with wakeLatch := false } } else s
def execPwrWakeSrcRead (s : State) : Res := .next (wakeSrcRead s)

/-! ### Ignition and machine state (R654, R655) -/

/-- `IGN_OK_RISE` (R654): the comparator runs in every state except OFF. -/
def execIgnOkRise (t : Nat) (s : State) : Res :=
  let s := s.at t
  if s.power = .off then .next s
  else
    let s := { s with ignOk := true, pwr := { s.pwr with ign := true, ignLow := none } }
    .next (gatesChanged (s.flag PWR_MACH_IGN true))

/-- `IGN_OK_FALL` (R654, R655). -/
def execIgnOkFall (t : Nat) (s : State) : Res :=
  let s := s.at t
  if s.power = .off then .next s
  else
    let low := match s.pwr.ignLow with
      | some a => a
      | none => s.now
    let s := { s with ignOk := false, pwr := { s.pwr with ign := false, ignLow := some low } }
    let s := dropOld (gatesChanged (s.flag PWR_MACH_IGN false))
    .next (if s.get PWR_MACH_STATE = 2 then (s.put PWR_MACH_STATE 0).put PWR_MACH_REQ 0 else s)

/-- A write of `PWR_MACH.REQ` (R655, R680). -/
def machReq (v : Nat) (s : State) : State :=
  if s.get PWR_STAT_PHASE ≠ 0 ∨ (v = 2 ∧ s.pwr.ign = false) then s
  else (s.put PWR_MACH_REQ v).put PWR_MACH_STATE (if v = 3 then 0 else v)

def execMachReq (v : BitVec 2) (s : State) : Res := if s.alive then .next (machReq v.toNat s) else .next s

/-! ### Requests (R661, R662) -/

/-- A request is refused (R661). -/
def State.refuses (s : State) (target : Nat) : Bool :=
  target == s.power.code ||
    (if target = 1 then s.ump.safe else s.get PWR_MACH_STATE != 0 || s.wakeLevels &&& s.wakeEn != 0)

/-- A request is taken: refused, or its entry begins. -/
def takeRequest (target : Nat) (s : State) : State :=
  if s.refuses target then s.flag PWR_STAT_REFUSED true
  else
    let s := clearWakes (s.put PWR_STAT_ENTRY target)
    if target = 1 then s
    else
      let s := { s.put PWR_STAT_PHASE 1 with pwr := { s.pwr with waitAt := s.now } }
      let s := immoReport (immoFall s)
      if target = 2 then s
      else
        let s := if s.fieldIsOpen then flushStart s else s
        if s.get UMP_LOG_STAT_UNCOPIED = 0 then s else mntRequest 6 0 .block s

/-- A write of `PWR_REQ`: taken, or pending while a transition is in progress. -/
def powerRequest (target : Nat) (s : State) : State :=
  if target = 0 ∨ 4 < target ∨ s.clocks = false then s
  else if s.get PWR_STAT_ENTRY ≠ 0 then s.put PWR_STAT_PEND target
  else takeRequest target s

def execIdleRequest (t : Nat) (s : State) : Res := .next (powerRequest 1 (s.at t))
def execSleepRequest (t : Nat) (s : State) : Res := .next (powerRequest 2 (s.at t))
def execDeepRequest (t : Nat) (s : State) : Res := .next (powerRequest 3 (s.at t))
def execOffRequest (t : Nat) (s : State) : Res := .next (powerRequest 4 (s.at t))

/-- A transition has ended in RUN: the pending request is taken (R662). -/
def takePending (s : State) : State :=
  let p := s.get PWR_STAT_PEND
  if p = 0 then s else powerRequest p (s.put PWR_STAT_PEND 0)

/-- The entry in progress is over. -/
def endEntry (s : State) : State := (s.put PWR_STAT_PHASE 0).put PWR_STAT_ENTRY 0

/-- `ENTRY_TMO` (R664). -/
def execEntryTmo (t : Nat) (s : State) : Res :=
  let s := s.at t
  if s.get PWR_STAT_PHASE == 1 && decide (s.pwr.waitAt + sec (orOne (s.get PWR_ENTRY_TMO_TMO_S)) < s.now) then
    .next (takePending (report 22 (clearWakes ((endEntry s).flag PWR_STAT_TIMEOUT true))))
  else .next s

/-- A wake in WAIT aborts the entry: nothing has stopped (R666). -/
def abortWait (s : State) : State := takePending (clearWakes ((endEntry s).flag PWR_STAT_ABORTED true))

/-! ### IDLE (R660, R665) -/

/-- IDLE ends: RUN with interrupt bit 5 (R131, R668). -/
def endIdle (s : State) : State :=
  if s.power = .idle then
    let s := (clearWakes { s with power := .run }).put PWR_STAT_STATE 0
    let s := overN 4 (fun c s => s.setCore c { s.core c with clockOff := false }) s
    takePending (raiseAll 5 s)
  else s

/-- IDLE is entered at a T0; a latch or a due alarm that is enabled ends it at once. -/
def enterIdle (s : State) : State :=
  let old := s.wakeLevels
  let s := (endEntry { s with power := .idle, pwr := { s.pwr with old := old, frames := 0 } }).put PWR_STAT_STATE 1
  let s := overN 4 (fun c s => (dropPasses c s).setCore c { (dropPasses c s).core c with clockOff := true }) s
  let latch := s.pwr.wakeLatch && decide (2 ≤ s.get PWR_WAKE_CFG_MODE) && s.on PWR_WAKE_EN_WAKE
  let events := old &&& s.wakeEn &&& 0b11100000
  if latch || events != 0 then endIdle s else s

/-- The enabled sources that end IDLE now: those that were not present at the entry, and events. -/
def State.idleWakes (s : State) : Nat :=
  let edge := if 2 ≤ s.get PWR_WAKE_CFG_MODE then 1 else 0
  let fresh := (List.range 8).foldl (fun a i => if s.pwr.old.testBit i then a else setBit a i) (0b11100000 ||| edge)
  s.waking 1 &&& fresh

/-- `IDLE_FRAMES` (R660). -/
def execIdleFrames (t : Nat) (s : State) : Res :=
  let s := s.at t
  let n := s.get PWR_IDLE_FRAMES
  if n ≠ 0 ∧ n ≤ s.pwr.frames then .next (endIdle s) else .next s

/-! ### WAIT and DESCENT (R663, R665) -/

/-- Every WAIT condition of the target holds (R663; the fault log is waited for at most 10 ms, R545). -/
def State.waitOver (s : State) : Bool :=
  let deep := decide (3 ≤ s.get PWR_STAT_ENTRY)
  (List.range 13).all (fun n => !s.on (NM_CTL_EN n) || s.nmState n == 1) &&
  s.get DBG_STAT_HALTED == 0 &&
  (List.range 64).all (fun k => (s.slot k).state != 4 || !([3, 4, 6, 7].contains (s.slot k).kind)) &&
  (!deep || (!s.on COV_STAT_FLUSH_BUSY && !s.anyDirty)) &&
  (!deep || s.get UMP_LOG_STAT_UNCOPIED == 0 || decide (s.pwr.waitAt + ms 10 ≤ s.now))

/-- The scheduler stops: `APPLY_OK` low, history cleared (R307). -/
def pschDescent (s : State) : State :=
  let s := s.flag PSCH_STAT_APPLY false
  gatesChanged { s with
    applyOk := false
    psch := { s.psch with applyNext := none, inWin := false, dwell := none, hist := [] } }

/-- The access die stops its exchange (R693). -/
def accDescent (s : State) : State :=
  let s := if s.acc.exch.isSome then s.put ACC_RES_RESULT 0 else s
  { s with acc := { s.acc with exch := none, pend := none } }

/-- The links stop (R455, R491). -/
def linksDescent (s : State) : State :=
  let s := overN 13 cutTx s
  let s := overN 6 (fun m s =>
    (if s.linState m = 1 then s.put (LIN_STAT_STATE m) 2 else s).setLin m { s.lin m with frame := none, sleepCmd := false }) s
  overN 4 uartStop (overN 2 ethDown s)

/-- Sessions of the keeper end (R585, R587, R696). -/
def keeperDescent (s : State) : State :=
  endToken { s with keeper := { s.keeper with session := none, waitSvc := [], dlOpen := false } }

/-- The cores stop: no dispatch, clocks off (R160, R665). -/
def coresDescent (s : State) : State :=
  let s := (s.put FRAME_STAT_PHASE 6).put FRAME_LOCK_STAT_STATE 0
  overN 4 (fun c s => (dropPasses c s).setCore c { (dropPasses c s).core c with clockOff := true })
    { s with tick := {}, frame := { s.frame with grid := false } }

/-- DESCENT from its first T0, T (R665): what the steps to T + 100 µs stop has stopped. -/
def descend (s : State) : State :=
  let s := overN 32 tmrSync s
  let s := overN 4 (fun k s => dieBackstop k .power s) s
  let s := pschDescent s
  let s := subPowerDown (keeperDescent (accDescent (linksDescent s)))
  let s := covFreeze (overN 2 ledStop s)
  let s := coresDescent s
  let lf := if s.on PRISM_CTL_LXTAL_EN && s.on PRISM_STAT_LXTAL_Q then 1 else 2
  let s := { (s.put PCHN_STAT_STATE 0).put PWR_STAT_PHASE 2 with
    power := .sleep
    pwr := { s.pwr with descAt := s.now, slpAt := s.now + us 100, lf := lf } }
  fldPowerOff { s with scan := { s.scan with adcAt := none } }

/-- The power controller at a T0: IDLE or DESCENT begins (R663, R665). -/
def powerT0 (s : State) : State :=
  if s.get PWR_STAT_ENTRY = 1 then enterIdle s
  else if s.get PWR_STAT_PHASE == 1 && s.waitOver then descend s
  else s

/-! ### The return from SLEEP (R642, R666, R668) -/

/-- U in µs, rounded up (R642). -/
def sleepBound (lf e ppm : Nat) : Nat :=
  let lx := if lf = 1 ∨ lf = 3 then 5 * e * ppm + 10 ^ 7 else 0
  let rc := if lf = 2 ∨ lf = 3 then 12500 * e + 32 * 10 ^ 9 else 0
  min (2 ^ 32 - 1) ((lx + rc + 10 ^ 9 - 1) / 10 ^ 9)

/-- The sleep record (R642, R646). -/
def sleepRecord (s : State) : State :=
  let e := s.now - s.pwr.slpAt
  let s := s.put64 TBASE_SLP_IN_LO_T TBASE_SLP_IN_HI_T s.pwr.slpAt
  let s := s.put64 TBASE_SLP_EL_LO_T TBASE_SLP_EL_HI_T e
  (s.put TBASE_SLP_UNC_U_US (sleepBound s.pwr.lf e (s.get TBASE_LXPPM_PPM))).put TBASE_SLP_SRC_SRC s.pwr.lf

/-- The tick lock at a return (R60). -/
def relock (s : State) : State :=
  { s.put FRAME_LOCK_STAT_STATE (if s.get FRAME_LOCK_SRC % 3 = 0 then 0 else 1) with tick := { acq := s.now } }

/-- The controllers of CAN at a return from SLEEP (R455): INTEGRATING, except where the network sleeps. -/
def canReturn (n : Nat) (s : State) : State :=
  let st := s.canState n
  let keeps := st == 0 || st == 4 || st == 5 || st == 7 || (st == 8 && s.nmState n == 1)
  if keeps then s else canGo n 1 s

/-- A touch that woke the device starts its exchange in RUN (R510). -/
def touchReturn (s : State) : State :=
  match s.acc.waitTouch with
  | some e => touchTrigger e { s with acc := { s.acc with waitTouch := none } }
  | none => s

/-- The LIN controllers that heard a wake start (R478). -/
def linReturn (lin : Nat) (s : State) : State := overN 6 (fun m s => if lin.testBit m then linStart m s else s) s

/-- What reports at the return: an abandoned substitution (R696), a crystal lost (R643). -/
def returnReports (s : State) : State :=
  let s := if s.pwr.subLost then report 457 { s with pwr := { s.pwr with subLost := false } } else s
  if s.pwr.lf = 3 then causeBegins 5 s else s

/-- The blocks restart (R219, R259, R307, R357, R379). -/
def blocksReturn (s : State) : State :=
  let s := overN 4 (fun k s => s.modDie k (fun d =>
    { d with autoResume := decide (s.dieMode k = 2) && d.cause == .power, valid := 0 })) s
  let s := { s with
    psch := { s.psch with lost := s.psch.lost || s.get PSCH_STAT_LOC != 0 }
    chain := { s.chain with liveAt := s.now, stallAt := s.now } }
  let s := if s.get PSCH_STAT_LOC = 0 then s else s.put PSCH_STAT_LOC 3
  covThaw (overN 2 ledRestart (tmrWake (overN 13 canReturn s)))

/-- The device returns from SLEEP, or from a DESCENT aborted before its point of no return. -/
def returnFromSleep (first unit : Nat) (s : State) : State :=
  let s := wakeRecord first unit s.wakeLevels s
  let s := sleepRecord s
  let lin := s.pwr.lin
  let s := (clearWakes (endEntry { s with power := .run })).put PWR_STAT_STATE 0
  let s := blocksReturn s
  let s := overN 4 (fun c s => s.setCore c { s.core c with clockOff := false }) (relock s)
  let s := { s with frame := { s.frame with restart := true } }
  returnReports (startPending (touchReturn (linReturn lin s)))

end Sys2Proof.Machine
end

