-- ==== Sys2Proof/Machine/BusView.lean ====
section
/-!
DEFINITION. Sys2Proof/Machine/BusView.lean: what a read of a peripheral register or of the keeper mailbox returns (R8, R13), and what
such a read changes: the freezes of `_HI` registers (R646), a consumed UART byte (R489), a timer capture (R371), a wake record (R659).
Fields that show typed state are derived from it; every other field reads as stored.
-/
namespace Sys2Proof.Machine

/-- A bit as a number. -/
def b01 (b : Bool) : Nat := if b then 1 else 0

/-- A mask of the numbers below `n` that pass a test. -/
def maskOf (n : Nat) (p : Nat → Bool) : Nat := (List.range n).foldl (fun a i => if p i then a + 2 ^ i else a) 0

/-- Word `i` of a list, 0 beyond it. -/
def wordOf (l : List Word) (i : Nat) : Nat := (l.getD i 0).toNat

/-! ### Fields derived from typed state -/

/-- HFRC is being trimmed (R622). -/
def State.trimmed (s : State) : Bool :=
  s.on PRISM_CTL_TRIM_EN && (if s.get PRISM_STAT_SRC = 0 then s.on PRISM_STAT_XIN_Q else s.on PRISM_STAT_LXTAL_Q)

/-- The unfenced cores once `RUN` is set (R117). -/
def State.coreMask (s : State) : Nat := if s.on FRAME_CTL_RUN then maskOf 4 (fun c => !s.fenced (1 + c)) else 0

/-- Fields of PRISM, TBASE, FRAME and UMP. -/
def shownFrame (a lo : Nat) (s : State) : Option Nat :=
  if a = 0x60000004 then if lo = 6 then some (b01 s.trimmed) else none
  else if a = 0x60020000 then some (s.now % 2 ^ 32)
  else if a = 0x60020004 then some (s.now / 2 ^ 32)
  else if a = 0x60030044 then if lo = 4 then some s.level else if lo = 0 then some s.coreMask else none
  else if a = 0x60040008 then
    if lo = 29 then some (b01 (!s.faultLow)) else if lo = 16 then some s.nActive else if lo = 4 then some s.level else none
  else if 0x60040140 ≤ a ∧ a < 0x60040180 then
    some (maskOf 32 (fun b => (s.src (8 * (a - 0x60040140) + b)).state != .clear))
  else if 0x60042000 ≤ a ∧ a < 0x60042800 ∧ lo = 30 then
    some (match (s.src ((a - 0x60042000) / 4)).state with | .clear => 0 | .active => 1 | .permanent => 2)
  else none

/-- The phase group of `PCHN_GRP_SEL` (R261). -/
def State.shownGroup (s : State) : List Nat :=
  if s.get PCHN_GRP_SEL_GROUP = 0 then [] else s.groupOf (s.get PCHN_GRP_SEL_GROUP)

/-- Fields of PCHN, CAN and UART. -/
def shownLinks (a lo : Nat) (s : State) : Option Nat :=
  if a = 0x6006006C then
    if lo = 10 then some (match s.shownGroup with | [] => 3 | i :: _ => groupKind i) else some s.shownGroup.length
  else if a = 0x60060070 then some (match s.shownGroup with | [] => 0 | i :: _ => (s.chan i).entry.per)
  else if a / 0x10000 = 0x600C ∧ a % 0x1000 = 0x64C then
    let x := s.can ((a - 0x600C0000) / 0x1000)
    if lo = 16 then some x.fifo.length else if lo = 2 then some (b01 x.sending.isSome)
    else if lo = 1 then some (b01 (!x.keeper.isEmpty)) else some (b01 x.urgent.isSome)
  else if a / 0x10000 = 0x6011 ∧ a < 0x60110400 then
    let u := (a - 0x60110000) / 0x100
    if a % 0x100 = 0x08 then some (s.uartRxd u)
    else if a % 0x100 = 0x10 then some (if lo = 12 then (s.uartNow u).rx.length else (s.uartNow u).tx.length)
    else none
  else none

/-- `ACC_STAT` (R523). -/
def shownAccStat (lo : Nat) (s : State) : Nat :=
  if lo = 16 then (s.lockLeft + sec 1 - 1) / sec 1
  else if lo = 12 then s.accKept.fail
  else if lo = 8 then s.accKept.esc
  else if lo = 7 then b01 s.acc.pend.isSome
  else if lo = 6 then b01 (s.fenced 0x048)
  else if lo = 5 then b01 s.immoOk
  else if lo = 4 then b01 s.locked
  else if lo = 3 then b01 s.acc.exch.isSome
  else s.accState

/-- Fields of ACC, JRNL and MNT. -/
def shownJobs (a lo : Nat) (s : State) : Option Nat :=
  if a = 0x60120008 then some (shownAccStat lo s)
  else if a = 0x60120030 then some (if s.blocksArmed then s.machineId else 0)
  else if a = 0x60120034 then
    some (if lo = 16 then s.accKept.life else maskOf 8 (fun i => (tget none s.accKept.tokens i).isSome))
  else if a = 0x60130004 then
    if lo = 16 then some (min 63 s.jrnl.queue.length) else if lo = 0 then some s.openItems else none
  else if 0x60130200 ≤ a ∧ a < 0x60130400 then
    some (wordOf (s.jrec ((a - 0x60130200) / 8)).words (a / 4 % 2))
  else if 0x60140100 ≤ a ∧ a < 0x60140200 then
    let x := s.slot ((a - 0x60140100) / 4)
    some (if lo = 28 then x.state else if lo = 24 then x.kind else x.unit)
  else none

/-- The value of the field at bit `lo` of the register at `a`. -/
def shownField (a : Nat) (r : Row) (s : State) : Nat :=
  let o := if a < 0x60050000 then shownFrame a r.lo s else if a < 0x60120000 then shownLinks a r.lo s else shownJobs a r.lo s
  o.getD ((if a < 0x70000000 then s else showKeeper s).get ⟨a, r.lo, r.w⟩)

/-! ### Windows -/

/-- A row of `COV_RT` (R360). -/
def tileWord (t : Option Tile) (w : Nat) : Nat :=
  match t with
  | none => if w = 0 then 0xC000 else 0
  | some t =>
    if w = 0 then t.ty % 256 * 2 ^ 24 + t.tx % 256 * 2 ^ 16 + t.layer * 2 ^ 14 + b01 t.dirty * 2 ^ 13 + b01 t.uniform * 2 ^ 12 +
      b01 t.damaged * 2 ^ 11 + t.block % 2 ^ 11
    else t.value % 256 * 2 ^ 24 + min t.age (2 ^ 24 - 1)

/-- The windows of the position scheduler, as latched at the last T0 (R309); `d` is the offset in the block. -/
def pschWindow (d : Nat) (s : State) : Option Nat :=
  let p (i j : Nat) := some (wordOf (tget [] s.psch.view.points i) j)
  if 0x1000 ≤ d ∧ d < 0x1400 then p ((d - 0x1000) / 4) 4
  else if 0x1400 ≤ d ∧ d < 0x1800 then p ((d - 0x1400) / 4) 3
  else if 0x1800 ≤ d ∧ d < 0x2000 then p ((d - 0x1800) / 8) (1 + d / 4 % 2)
  else if 0x2000 ≤ d ∧ d < 0x2200 then some (maskOf 32 (fun b => s.psch.view.pend.contains (8 * (d - 0x2000) + b)))
  else if 0x3000 ≤ d ∧ d < 0x4000 then some (wordOf (tget [] s.psch.view.hist ((d - 0x3000) / 16)) (d / 4 % 4))
  else if 0x4000 ≤ d ∧ d < 0x5000 then some (wordOf (tget [] s.psch.view.fired ((d - 0x4000) / 16)) (d / 4 % 4))
  else if 0x8000 ≤ d ∧ d < 0xA000 then p ((d - 0x8000) / 32) (d / 4 % 8)
  else none

/-- The windows that hold tables: the fault log, the channel status, the scheduler's, the coverage results and tiles, the timer
channels, the access log. -/
def window (a : Nat) (s : State) : Option Nat :=
  if 0x60044000 ≤ a ∧ a < 0x60045000 then some (wordOf (tget [] s.ump.log ((a - 0x60044000) / 16)) (a / 4 % 4))
  else if 0x60051000 ≤ a ∧ a < 0x60054500 then some (wordOf (tget [] s.status ((a - 0x60051000) / 32)) (a / 4 % 8))
  else if a / 0x10000 = 0x6008 then pschWindow (a - 0x60080000) s
  else if 0x60091000 ≤ a ∧ a < 0x60092000 then some (wordOf (s.covRes ((a - 0x60091000) / 16) s.now) (a / 4 % 4))
  else if 0x60094000 ≤ a ∧ a < 0x60096000 then some (tileWord (s.tile ((a - 0x60094000) / 8)) (a / 4 % 2))
  else if 0x600A1000 ≤ a ∧ a < 0x600A1400 then some (wordOf (s.tmrWords ((a - 0x600A1000) / 32)) (a / 4 % 8))
  else if 0x60120400 ≤ a ∧ a < 0x60120600 then some (wordOf (tget [] s.acc.log ((a - 0x60120400) / 16)) (a / 4 % 4))
  else none

/-- A register of a controller or port whose clock is gated reads as 0 and ignores writes (R629). -/
def State.gatedReg (s : State) (a : Nat) : Bool :=
  (a / 0x10000 == 0x600C && s.bit PRISM_GATE_CAN ((a - 0x600C0000) / 0x1000)) ||
  (a / 0x10000 == 0x600F && decide (a < 0x600F0200) && s.bit PRISM_GATE_ETH ((a - 0x600F0000) / 0x100))

/-- The word of the register at `a` as it stands, without the effects of a read (R8, R13). -/
def State.regNow (s : State) (a : Nat) : Nat :=
  if s.gatedReg a then 0
  else (window a s).getD
    ((rowsAt a).foldl (fun v r => if r.kind = .wo then v else v + shownField a r s * 2 ^ r.lo) 0)

/-! ### Reads -/

/-- The registers whose read freezes the one above them (R117, R490, R646 and the other tables). -/
def freezesHi (a : Nat) : Bool :=
  a == 0x60020000 || a == 0x60020014 || a == 0x6002001C || a == 0x60030020 || a == 0x60030028 || a == 0x60010014 ||
  (a / 0x10000 == 0x600C && a % 0x1000 == 0x70C) || (a / 0x10000 == 0x600D && a % 0x100 == 0x24) ||
  (a / 0x10000 == 0x6011 && (a % 0x100 == 0x14 || a % 0x100 == 0x1C))

/-- The frozen word of a register, or its present one. -/
def State.regRead (s : State) (a : Nat) : Nat := (tget none s.frozen a).getD (s.regNow a)

/-- What a read of the register at `a` changes. -/
def readEffect (a : Nat) (s : State) : State :=
  if freezesHi a then
    if (tget none s.frozen (a + 4)).isSome then s
    else { s with frozen := tset none s.frozen (a + 4) (some (s.regNow (a + 4))) }
  else if (tget none s.frozen a).isSome then { s with frozen := tset none s.frozen a none }
  else if a = 0x60010010 then wakeSrcRead s
  else if a / 0x10000 = 0x6011 ∧ a < 0x60110400 ∧ a % 0x100 = 0x08 then uartTake ((a - 0x60110000) / 0x100) s
  else if 0x600A1000 ≤ a ∧ a < 0x600A1400 ∧ a % 32 = 0x08 then capLoRead ((a - 0x600A1000) / 32) s
  else if 0x600A1000 ≤ a ∧ a < 0x600A1400 ∧ a % 32 = 0x0C then capHiRead ((a - 0x600A1000) / 32) s
  else s

/-- A word read of the register at `a`: the word and the state after the read. -/
def busRead (a : Nat) (s : State) : Word × State := (BitVec.ofNat 32 (s.regRead a), readEffect a s)

end Sys2Proof.Machine
end

