-- ==== Sys2Proof/Machine/Reset.lean ====
section
/-!
DEFINITION. Sys2Proof/Machine/Reset.lean: what each reset of the logic die loses and keeps (R18–R20, R45, R389, R538, R545, R547,
R577, R638, R648, R652, R656, R669). The time base starts at 0 again; the instants that the other dies hold are reckoned from there.
-/
namespace Sys2Proof.Machine

/-! ### Register fields that outlive a reset -/

/-- What the switch dies show of themselves. -/
def dieFields (k : Nat) : List Nat :=
  [(CHT_DIE_STAT_MODE k).key, (CHT_DIE_STAT_TL_REV k).key, (CHT_DIE_STAT_SEQ_BANK k).key, (CHT_DIE_STAT_TL_BANK k).key,
   (CHT_DIE_STAT_T_DIE k).key]

/-- What FLD shows of itself, and `FLD_CTL.EN`, which a reset of the logic die leaves at 1 (R389). -/
def fldFields : List Nat :=
  [FLD_CTL_EN.key, FLD_STAT_MODE.key, FLD_STAT_TMO_ACT.key, FLD_STAT_VF_OK.key, FLD_STAT_BAR_OK.key]

/-- The place of the fault log (R545). -/
def logFields : List Nat := [UMP_LOG_SEQ_SEQ.key, UMP_LOG_STAT_UNCOPIED.key]

/-- The fields of the switch dies. -/
def allDieFields : List Nat := (List.range 4).flatMap dieFields

/-- Fields of the blocks that keep their registers in DEEP: PWR, the sleep record and calibration of TBASE, ACC, the transceivers'
selective wake in NM. -/
def deepBlock (a : Nat) : Bool :=
  (a / 0x10000 == 0x6001 && a != 0x60010034) || a / 0x10000 == 0x6002 || a / 0x10000 == 0x6012 || a / 0x10000 == 0x600D

/-- A field that DEEP keeps: those blocks, the LF oscillators, and what the switch dies show. -/
def deepField (k : Nat) : Bool :=
  deepBlock (k / 32) || allDieFields.contains k ||
    [PRISM_CTL_LXTAL_EN.key, PRISM_STAT_LXTAL_Q.key, PRISM_STAT_LFRC_Q.key].contains k

/-! ### What the other dies hold -/

/-- A list of instants after the time base has started again. -/
def rebaseL (n : Nat) (l : List Nat) : List Nat := l.map (fun x => x - n)
/-- An instant that may be absent. -/
def rebaseO (n : Nat) (o : Option Nat) : Option Nat := o.map (fun x => x - n)

/-- What a die keeps of a channel through a reset of the logic die; the cache, the status words and the pulse engine are lost. -/
def Chan.kept (c : Chan) (n : Nat) : Chan :=
  { entry := c.entry, adopted := c.adopted, fresh := c.fresh, old := c.old, bstop := c.bstop, held := c.held, thermal := c.thermal,
    latched := c.latched, latchedUnarmed := c.latchedUnarmed, retryEnd := rebaseO n c.retryEnd, retryLeft := c.retryLeft,
    retryCnt := c.retryCnt, cuts := c.cuts,
    inrush := c.inrush.map (fun w => { w with start := w.start - n, droopFrom := rebaseO n w.droopFrom }),
    arm := c.arm, since := rebaseO n c.since, hold := c.hold, holdFrom := c.holdFrom - n, turnOns := rebaseL n c.turnOns,
    offAt := rebaseO n c.offAt, onAt := rebaseO n c.onAt, withheld := c.withheld, bit := c.bit, out := c.out,
    sawDroop := c.sawDroop, senseBad := c.senseBad, revEnd := rebaseO n c.revEnd, demagAt := rebaseO n c.demagAt,
    clamps := c.clamps.map (fun p => (p.1 - n, p.2)), tj := c.tj, tjPeak := c.tjPeak, tjNow := c.tjNow }

/-- What a die keeps of itself. -/
def Die.kept (d : Die) (n : Nat) : Die :=
  { d with
    wdAt := d.wdAt - n, crcAt := rebaseL n d.crcAt, retAt := [], bstopReq := false, resumeReq := false, autoResume := false,
    loads := [], loaded := false, seqStaged := false, tlStaged := false, swapNow := false, stagedTl := [] }

/-- What FLD keeps of itself; what the logic die has been sent of its inputs is lost. -/
def Field.kept (x : Field) (n : Nat) : Field :=
  { x with
    tmoAt := x.tmoAt - n, dnErr := rebaseL n x.dnErr, upErr := [], hdrBad := 0, modeAt := x.modeAt - n, fails := 0,
    stagedTl := none, swapNow := false, ins := x.ins.map (fun e => (e.1, { e.2 with runAt := e.2.runAt - n, seen := {} })) }

/-- A cell of flash or MRAM, which keep their content in every state (R656). -/
def lasting (key : Nat) : Bool := decide (0x40000000 ≤ key) && decide (key < 0x60000000)

/-- A cell of a retained bank of shared SRAM (R657). -/
def State.retained (s : State) (key : Nat) : Bool :=
  let b := (key - 0x20000000) / 0x10000
  decide (0x20000000 ≤ key) && decide (b < 64) &&
    (if b < 32 then s.bit PWR_RET0_BANK b else s.bit PWR_RET1_BANK (b - 32))

/-- What lies outside every supply: flash, MRAM and the keeper's records, the commands that wait, and the free values drawn. -/
def lastingState (s : State) : State :=
  { State.reset with
    pending := s.pending, drawn := s.drawn, mem := Tab.keep lasting s.mem, vault := s.vault, accKept := s.accKept,
    book := s.book, store := s.store, tlActive := s.tlActive, calActive := s.calActive }

/-- What the supervisors on `VBAT_L` and `KL15` sense, beside a new power controller. -/
def sensed (s : State) (r : State) : State :=
  { r.flag PWR_MACH_IGN s.pwr.ign with
    ignOk := s.ignOk
    pwr := { r.pwr with
      ign := s.pwr.ign, wakeLvl := s.pwr.wakeLvl, mute := s.pwr.mute, flashOff := s.pwr.flashOff, lfOff := s.pwr.lfOff } }

/-- What the dies keep through a reset of the logic die. -/
def diesKept (s : State) (r : State) : State :=
  let n := s.now
  { r with
    fields := Tab.keep (fun k => (allDieFields ++ fldFields).contains k) s.fields
    chans := ((s.chans.filter (fun e => decide (e.1 < 152))).map (fun e => (e.1, e.2.kept n))).filter
      (fun e => decide (e.2 ≠ {}))
    tl := s.tl, dies := (s.dies.map (fun e => (e.1, e.2.kept n))).filter (fun e => decide (e.2 ≠ {}))
    groups := s.groups, field := s.field.kept n }

/-- The fault log outlives a reset of the logic die (R545). -/
def logKept (s : State) (r : State) : State :=
  let r := { r with ump := { r.ump with log := s.ump.log } }
  ((r.put UMP_LOG_SEQ_SEQ (s.get UMP_LOG_SEQ_SEQ)).put UMP_LOG_STAT_UNCOPIED (s.get UMP_LOG_STAT_UNCOPIED)).flag
    UMP_LOG_STAT_KEPT true

/-- A reset of the logic die by `RESET_N`, `UMP_RST` or the keeper: the logic die is held in reset, `SAFE_N`, `IMMO_OK` and
`APPLY_OK` are low, SRAM keeps its content. `cause` is that of `PWR_RST`. -/
def logicReset (cause : Nat) (s : State) : State :=
  let r := sensed s (diesKept s { lastingState s with mem := s.mem, ded := s.ded })
  gatesChanged ((logKept s r).put PWR_RST_CAUSE cause)

/-- A brownout is a loss of supply to the logic die (R652): SRAM and the log are lost, `FLD_CTL.EN` is cleared and FLD with it. -/
def brownoutReset (s : State) : State :=
  let r := sensed s (diesKept s (lastingState s))
  gatesChanged (fldPowerOff ((r.flag FLD_CTL_EN false).put PWR_RST_CAUSE 2))

/-- A loss of every supply (R648). -/
def powerLost (s : State) : State :=
  (lastingState s).put PWR_WAKE_SRC_FIRST 9

/-- The state in DEEP (R656): the time base, the wake logic, ACC, the timer channels and the switch dies in
BACKSTOP are kept, with the retained banks. -/
def deepLost (s : State) : State :=
  let r := diesKept { s with now := 0 } (lastingState s)
  let r := { r with
    mem := Tab.keep (fun k => lasting k || s.retained k) s.mem, ded := s.ded.filter s.retained
    fields := Tab.keep deepField s.fields
    frozen := s.frozen, now := s.now, power := s.power, pwr := s.pwr, acc := s.acc, tmr := s.tmr, nms := s.nms,
    lins := [], immoOk := s.immoOk, field := {} }
  let r := sensed s r
  gatesChanged { r with chans := r.chans.map (fun e => (e.1, if e.1 < 136 then { e.2 with cached := false } else { e.2 with out := false })) }

/-- At a return from DEEP the NM registers stand at reset (R491), the machine is PARKED (R655). -/
def deepStart (s : State) : State :=
  { s with fields := Tab.keep (fun k => k / 32 / 0x10000 != 0x600D) s.fields, nms := [] }

end Sys2Proof.Machine
end

