-- ==== Sys2Proof/Machine/Bus.lean ====
section
/-!
DEFINITION. Sys2Proof/Machine/Bus.lean: a word write to a peripheral register or to the keeper mailbox (R8–R14): what each access type
does, when an RWL field is locked (R9), and the registers whose write acts. S-mode stores, the commit of captured entries (R83), the
start's own writes and `REGISTER_WRITE` all come through `busWrite`.
-/
namespace Sys2Proof.Machine

/-- The state a meaning leaves. -/
def after (r : Res) (s : State) : State :=
  match r with
  | .next s' => s'
  | .fault _ => s
  | .refused _ => s

/-! ### The access types (R8, R9) -/

/-- The RWL field at `a` is locked. -/
def State.lockedReg (s : State) (l : Lock) (a : Nat) : Bool :=
  match l with
  | .run => s.on FRAME_CTL_RUN
  | .armed => s.blocksArmed
  | .fld => s.fldMode != 1
  | .die => s.dieMode ((a - 0x60050030) / 4) != 0
  | .segs => s.segsWritten

/-- A write of `v` to the register at `a` as the field of one row takes it. -/
def writeField (a v : Nat) (r : Row) (s : State) : State :=
  let f : Fld := ⟨a, r.lo, r.w⟩
  let x := v / 2 ^ r.lo % 2 ^ r.w
  match r.kind with
  | .rw => s.put f x
  | .rwl l => if s.lockedReg l a then s else s.put f x
  | .w1c => s.put f (s.get f - (s.get f &&& x))
  | .w1s => s.put f (s.get f ||| x)
  | .ro => s
  | .wo => s
  | .sc => s

/-- A write to every field of the register at `a` but those whose lowest bit is in `skip`. -/
def storeBut (skip : List Nat) (a v : Nat) (s : State) : State :=
  (rowsAt a).foldl (fun s r => if skip.contains r.lo then s else writeField a v r s) s

/-- A write to every field of the register at `a`. -/
def store (a v : Nat) (s : State) : State := storeBut [] a v s

/-! ### Registers whose write acts, block by block -/

/-- PRISM (R645). -/
def writePrism (o a v : Nat) (s : State) : State :=
  if o = 0 then
    let s := store a v s
    if v.testBit 31 then clockReturn s else s
  else if o = 8 then gateWrite (v % 2 ^ 15) s
  else store a v s

/-- PWR (R661, R655). -/
def writePwr (o a v : Nat) (s : State) : State :=
  if o = 0 then powerRequest (v % 8) s
  else if o = 0x34 then machReq (v % 4) s
  else store a v s

/-- FRAME (R53, R62, R55, R65). -/
def writeFrame (o a v : Nat) (s : State) : State :=
  if o = 0 then if v.testBit 0 then setRun s else s
  else if o = 4 then frameLen (v % 128) s
  else if o = 8 then frameMargin (v % 4096) s
  else if o = 0xC then frameCutres (v % 4096) s
  else if o = 0x10 then frameLock v s
  else if o = 0x14 then frameLockOfs v s
  else if o = 0x34 then ttPost (v % 64) s
  else store a v s

/-- `UMP_SRC_CFGn` (R524, R530): a reserved source takes nothing, a SAFETY source only its default reaction or SAFE. -/
def writeSrcCfg (n a v : Nat) (s : State) : State :=
  let x := v / 2 ^ 28 % 8
  if srcReserved n then s
  else if srcSafety n && x != srcDefault n && x != 6 then storeBut [28] a v s else store a v s

/-- UMP (R537, R538, R540). -/
def writeUmp (o a v : Nat) (s : State) : State :=
  if o = 0 then
    let s := store a v s
    if v.testBit 31 then after (execSafeReq s) s else s
  else if o = 0xC then
    if v / 2 ^ 24 % 256 = 0x5A ∧ v.testBit 0 ∧ s.level = 4 then logicReset 3 s else s
  else if 0x200 ≤ o ∧ o < 0x240 then
    forEach ((List.range 32).filter (fun b => v.testBit b)) (fun b s => reportFull (8 * (o - 0x200) + b) 0 0 true s) s
  else if 0x1000 ≤ o ∧ o < 0x1800 then writeSrcCfg ((o - 0x1000) / 4) a v s
  else store a v s

/-- CHT (R164, R192, R219). -/
def writeCht (o a v : Nat) (s : State) : State :=
  if o = 4 then after (execChtPost (BitVec.ofNat 9 v) s) s
  else if o = 8 then
    let i := v % 512
    let s := if v.testBit 31 then chtClr i clrTherm s else s
    let s := if v.testBit 30 then chtClr i clrLatch s else s
    if v.testBit 29 then chtClr i clrFlt s else s
  else if 0x20 ≤ o ∧ o < 0x30 then
    let k : Fin 4 := Fin.ofNat 4 ((o - 0x20) / 4)
    let s := if v.testBit 0 then after (execBstop k s) s else s
    if v.testBit 1 then after (execResume k s) s else s
  else store a v s

/-- PCHN (R261) and LCP (R257, R262). -/
def writePchn (o a v : Nat) (s : State) : State :=
  if o = 0 then if v.testBit 0 then chainStart s else s else store a v s
def writeLcp (o a v : Nat) (s : State) : State :=
  let p := o / 0x100 % 2
  if o < 0x200 ∧ o % 0x100 = 0 then
    let s := storeBut [31] a v s
    if v.testBit 31 then lcpEnable p s else s
  else if o < 0x200 ∧ o % 0x100 = 8 then ledSubWrite p (v % 16) (v / 2 ^ 16 % 256) (v.testBit 31) s
  else store a v s

/-- A correction command (R277): DELTA or SET with the values staged in `PSCH_CORR`. -/
def corrCmd (v : Nat) (s : State) : State :=
  let e := signed 32 (s.get PSCH_CORR_E_MM)
  let n := signed 32 (s.get PSCH_CORR_N_MM)
  let h := s.get PSCH_CORR_H_H
  let u := s.get PSCH_CORR_U_U_MM
  if v / 2 ^ 30 % 4 = 1 then after (execDelta e n (signed 16 h) u (BitVec.ofNat 8 v) (v.testBit 8) s) s
  else if v / 2 ^ 30 % 4 = 2 then after (execSetCorr e n (BitVec.ofNat 16 h) u s) s
  else s

/-- An event command (R287): POST with the words staged in `PSCH_EV_W`, CANCEL, CANCEL_AP. -/
def eventCmd (v : Nat) (s : State) : State :=
  let w (i : Nat) := BitVec.ofNat 32 (s.get (PSCH_EV_W_W i))
  let slot : Fin 4096 := Fin.ofNat 4096 v
  if v / 2 ^ 30 % 4 = 1 then after (execEventPost slot (w 0) (w 1) (w 2) (w 3) s) s
  else if v / 2 ^ 30 % 4 = 2 then after (execEventCancel slot s) s
  else if v / 2 ^ 30 % 4 = 3 then after (execCancelAp (Fin.ofNat 256 v) s) s
  else s

/-- PSCH (R270, R277, R282, R287). -/
def writePsch (o a v : Nat) (s : State) : State :=
  if o = 0xC then after (execApPost (Fin.ofNat 256 v) s) s
  else if o = 0x10 then if v.testBit 31 then after (execApClr (Fin.ofNat 256 v) s) s else s
  else if o = 0x30 then eventCmd v s
  else if o = 0x90 then corrCmd v s
  else if o = 0x68 then
    let s := store a v s
    { s with psch := { s.psch with vfwAge := some 0 } }
  else store a v s

/-- COV (R352, R353, R338). -/
def writeCov (o a v : Nat) (s : State) : State :=
  if o = 0 then
    let s := storeBut [0] a v s
    if v.testBit 0 && !s.on COV_CTL_EN then after (execCovEn s) s else s
  else if o = 8 then
    let op := v / 2 ^ 29 % 8
    if op = 1 then after (execFieldOpen (BitVec.ofNat 16 v) s) s
    else if op = 2 then after (execFieldClose s.now s) s
    else if op = 3 then after (execFieldFlush s.now s) s
    else if op = 4 then after (execFieldErase (BitVec.ofNat 16 v) s) s
    else s
  else if o = 0x38 then editCmd (v / 2 ^ 30 % 4) (v / 2 ^ 24 % 4) (v % 256) s
  else store a v s

/-- TMR (R363, R386). -/
def writeTmr (o a v : Nat) (s : State) : State :=
  if o = 4 then tmrPost (v % 32) s
  else if o = 8 then
    let s := if v.testBit 31 then tmrClrCnt (v % 32) s else s
    if v.testBit 30 then tmrClrFlags (v % 32) s else s
  else store a v s

/-- FLD (R389, R413, R414). -/
def writeFld (o a v : Nat) (s : State) : State :=
  if o = 0 then
    let s := store a v s
    let s := if v.testBit 4 then after (execFldResume s) s else s
    if v.testBit 3 then after (execTestReq (BitVec.ofNat 2 v) s.now s) s else s
  else store a v s

/-- `CAN_CTL` (R421, R423, R424). -/
def canCtl (n a v : Nat) (s : State) : State :=
  let s := storeBut [0, 1] a v s
  let s := if v.testBit 0 == s.on (CAN_CTL_INIT n) then s else if v.testBit 0 then canInitSet n s else canInitClear n s
  let s :=
    if v.testBit 1 == s.on (CAN_CTL_ROM n) then s
    else if v.testBit 1 then after (execRomSet (Fin.ofNat 13 n) s) s else canRomClear n s
  if v.testBit 8 then canRecover n s else s

/-- CAN (R421–R457): the bit timing is taken only in INIT, and never by `CAN12`. -/
def writeCan (n o a v : Nat) (s : State) : State :=
  if o = 0 then canCtl n a v s
  else if o = 8 ∨ o = 0xC ∨ o = 0x10 then if s.on (CAN_CTL_INIT n) && n != 12 then store a v s else s
  else if o = 0x24 then mbPost n (v % 128) s
  else if o = 0x28 then rxAck n (v % 128) s
  else if o = 0x648 then canTxCmd n v s
  else if o = 0x704 then
    let was := s.on (CAN_REF_CTL_EN n)
    let s := store a v s
    if was == v.testBit 31 then s else canRefEn n (v.testBit 31) s
  else store a v s

/-- `NM_CTL` (R461). -/
def writeNm (n o a v : Nat) (s : State) : State :=
  if o = 0 ∧ n < 13 then
    let s := nmEnable n (v.testBit 31) (storeBut [31, 30] a v s)
    if v.testBit 30 || s.on (NM_CTL_REQ n) then nmReq n (v.testBit 30) s else s
  else store a v s

/-- `LIN_CTL` (R473, R478). -/
def writeLin (m o a v : Nat) (s : State) : State :=
  if o = 0 ∧ m < 6 then
    let s := linEnable m (v.testBit 31) (storeBut [31] a v s)
    if v.testBit 29 then after (execLinWake (Fin.ofNat 6 m) s.now s) s else s
  else store a v s

/-- ETH (R480): a port that is disabled loses its link. -/
def writeEth (e o a v : Nat) (s : State) : State :=
  if o = 0 then
    let s := store a v s
    if v.testBit 31 then s else ethDown e s
  else if o = 0x1C then after (execEthTxPush (Fin.ofNat 2 e) s) s
  else store a v s

/-- `SENT_CFG` (R484, R493): silence counts from the enable. -/
def writeSent (r o a v : Nat) (s : State) : State :=
  if o = 0 ∧ r < 10 then
    let was := s.on (SENT_CFG_EN r)
    let s := store a v s
    if v.testBit 31 && !was then s.setSent r { s.sent r with cal := none, heardAt := s.now } else s
  else store a v s

/-- UART (R488, R489): bytes sent so far are counted before the settings change. -/
def writeUart (u o a v : Nat) (s : State) : State :=
  if o = 0xC then uartSend u (v / 2 ^ 24 % 4) (v % 2 ^ 24) s
  else if o < 8 then store a v (s.setUart u (s.uartNow u))
  else store a v s

/-- ACC (R507, R510, R517). -/
def writeAcc (o a v : Nat) (s : State) : State :=
  if o = 0 then
    let s := store a v s
    if v.testBit 29 then after (execRevoke s) s else s
  else if o = 4 then if v.testBit 31 && s.accOn then serveRequest (v % 4) s else s
  else store a v s

/-- JRNL (R591): an operation carries the task that commits it. -/
def writeJrnl (o a v task : Nat) (s : State) : State :=
  if o = 0x48 then jOp (v / 2 ^ 29 % 8) (v / 2 ^ 24 % 16) (v % 2 ^ 16) task s
  else if o = 0x10 then
    let s := store a v s
    { s with jrnl := { s.jrnl with hdrBad := bits v 31 26 != 0 || bits v 19 16 != 0 } }
  else store a v s

/-- DBG (R106, R107). -/
def writeDbg (o a v : Nat) (s : State) : State :=
  if o = 0 then
    let s := modeReq (v % 4) s
    let s := if v.testBit 4 then haltReq s else s
    if v.testBit 5 then debugResume s else s
  else store a v s

/-- The keeper mailbox (R552, R553). -/
def writeKmb (o a v : Nat) (s : State) : State :=
  if o = 0 then
    let s := store a v s
    let op := v / 2 ^ 16 % 256
    let len := v % 2 ^ 11
    if v.testBit 31 then mbxIssue (mbxDecode op len s) op len s else s
  else store a v s

/-- The blocks of the links. -/
def writeLinks (a v : Nat) (s : State) : State :=
  match a / 0x10000 with
  | 0x600C => if a < 0x600CD000 then writeCan ((a - 0x600C0000) / 0x1000) (a % 0x1000) a v s else s
  | 0x600D => writeNm ((a - 0x600D0000) / 0x100) (a % 0x100) a v s
  | 0x600E => writeLin ((a - 0x600E0000) / 0x100) (a % 0x100) a v s
  | 0x600F => if a < 0x600F0200 then writeEth ((a - 0x600F0000) / 0x100) (a % 0x100) a v s else store a v s
  | 0x6010 => writeSent ((a - 0x60100000) / 0x20) (a % 0x20) a v s
  | 0x6011 => if a < 0x60110400 then writeUart ((a - 0x60110000) / 0x100) (a % 0x100) a v s else store a v s
  | _ => store a v s

/-- The blocks from ACC on. -/
def writeJobs (a v task : Nat) (s : State) : State :=
  match a / 0x10000 with
  | 0x6012 => writeAcc (a % 0x10000) a v s
  | 0x6013 => writeJrnl (a % 0x10000) a v task s
  | 0x6014 =>
    if a % 0x10000 = 4 then mntReqWrite (v / 2 ^ 28 % 16) (v / 2 ^ 24 % 16) (v % 2 ^ 20) s else store a v s
  | 0x6015 => if a % 0x10000 = 4 then subCommand (v / 2 ^ 28 % 16) (v % 16) s else store a v s
  | 0x6017 => writeDbg (a % 0x10000) a v s
  | 0x7000 => writeKmb (a % 0x10000) a v s
  | _ => store a v s

/-- The blocks up to FLD. -/
def writeBlocks (a v : Nat) (s : State) : State :=
  let o := a % 0x10000
  match a / 0x10000 with
  | 0x6000 => writePrism o a v s
  | 0x6001 => writePwr o a v s
  | 0x6003 => writeFrame o a v s
  | 0x6004 => writeUmp o a v s
  | 0x6005 => writeCht o a v s
  | 0x6006 => writePchn o a v s
  | 0x6007 => writeLcp o a v s
  | 0x6008 => writePsch o a v s
  | 0x6009 => writeCov o a v s
  | 0x600A => writeTmr o a v s
  | 0x600B => writeFld o a v s
  | _ => store a v s

/-- A word write to the register at `a`; `task` is the task whose commit makes it, 0xFF where none does. -/
def busWrite (a : Nat) (w : Word) (task : Nat) (s : State) : State :=
  let v := w.toNat
  if s.gatedReg a then s
  else if a < 0x600C0000 then writeBlocks a v s
  else if a < 0x60120000 then writeLinks a v s
  else writeJobs a v task s

/-! ### The rows -/

/-- `REGISTER_WRITE` (R8). -/
def execRegisterWrite (a : Nat) (v : Word) (t : Nat) (s : State) : Res :=
  let s := s.at t
  if s.clocks then .next (busWrite a v 0xFF s) else .next s

/-- `LO_REGISTER_READ` (R646): a read of a `_LO` register freezes its `_HI` register. -/
def execLoRegisterRead (a t : Nat) (s : State) : Res :=
  let s := s.at t
  if s.clocks then .next (busRead a s).2 else .next s

end Sys2Proof.Machine
end

