-- ==== Sys2Proof/Machine/Passes.lean ====
section
/-!
DEFINITION. Sys2Proof/Machine/Passes.lean: passes on the cores (R67, R68, R74, R75), the end of a pass with the compare of its signature
and its `AGREE` sequence (R86), and the compare phase (R87, R90, R92).
-/
namespace Sys2Proof.Machine

/-- The sequencer's return address (R122). -/
def passGate : Word := 0xF00

/-- T0 of the frame in progress. -/
def State.t0 (s : State) : Nat := s.get64 FRAME_T0_LO_T0 FRAME_T0_HI_T0

/-- A report of a frame source: its detail is the low bits of the frame number (R545). -/
def frameReport (n : Nat) (s : State) : State := reportFull n 0 (s.frameNo % 2 ^ 32) false s

/-- A report of a source whose target is the core on which the task ran (R528). -/
def coreReport (n c : Nat) (s : State) : State := reportFull n (1 + c) (s.frameNo % 2 ^ 32) false s

/-- `CORE` cycles that the passes of core `c` have taken in this frame, two to a time-base unit. -/
def State.passCycles (s : State) (c : Nat) : Nat :=
  (s.frame.runs.filter (fun e => e.2.core == c)).foldl (fun a e => a + e.2.primCyc + e.2.mirrCyc) 0 +
    ((s.core c).pass.map (fun p => p.cycles)).getD 0

/-- The time from T0 that core `c` has reached, without halts; on HFRC `CORE` runs at half rate (R623). -/
def State.coreTime (s : State) (c : Nat) : Nat :=
  max (s.now - s.t0 - s.frame.haltTime) (if s.get PRISM_STAT_SRC = 0 then s.passCycles c / 2 else s.passCycles c)

/-! ### State banks (R74, R80) -/

/-- Offset of the working bank: the one that is not committed. -/
def Task.workOfs (x : Task) : Nat := if x.bank then 0 else x.stLen
/-- Offset of the committed bank. -/
def Task.heldOfs (x : Task) : Nat := if x.bank then x.stLen else 0

/-- Copies the committed bank of one sense into the working bank; an uncorrectable word reports source 56 for the core. -/
def copyBank (c base : Nat) (x : Task) (s : State) : State :=
  let src := memKey c (base + x.heldOfs)
  let s' := s.setBytes (memKey c (base + x.workOfs)) (s.bytes src x.stLen)
  if s.ded.any (fun k => decide (src ≤ k + 7) && decide (k < src + x.stLen)) then coreReport 56 c s' else s'

/-- The registers of a pass at its start (R74): those the table does not name keep their content. -/
def passRegs (mirror : Bool) (x : Task) : Tab Word :=
  let v (w : Word) : Word := if mirror then ~~~w else w
  let g := (List.range 29).foldl (fun m r => tset 0 m (r + 1) (v 0)) []
  tset 0 (tset 0 g 30 (v (BitVec.ofNat 32 (x.wkTrue + x.wkLen)))) 31 (v passGate)

/-- Writes a debugger's value into the running bank, or into memory (R111–R113): a register, or a key. -/
def putReplay (c : Nat) (isReg : Bool) (target : Nat) (w : Word) (s : State) : State :=
  if isReg then
    if target = 0 then s
    else
      let k := s.core c
      let b (x : Bank) : Bank := { x with g := tset 0 x.g target w }
      s.setCore c (if k.pass.isSome then { k with tBank := b k.tBank } else { k with sBank := b k.sBank })
  else s.setWord target w

/-- Where the memory of R77 that a debugger writes lies in the mirror pass: state bank, working region, snapshot; any other address
stands as it is. -/
def State.mirrorKey (s : State) (c i a : Nat) : Nat :=
  let x := s.task i
  let snap := 65536 * s.get FRAME_SNAP_BASE_BASE
  if x.stTrue ≤ a ∧ a < x.stTrue + x.stLen then memKey c (x.stMirr + x.workOfs + (a - x.stTrue))
  else if x.wkTrue ≤ a ∧ a < x.wkTrue + x.wkLen then memKey c (x.wkMirr + (a - x.wkTrue))
  else if snap ≤ a ∧ a < snap + 0x20000 then a + 0x20000
  else memKey c a

/-- Delivers the logged writes due at the retired count of a mirror pass (R113), complemented and relocated. -/
def deliver (c : Nat) (s : State) : State :=
  match (s.core c).pass with
  | some p =>
    if p.mirror then
      forEach (s.rlog.filter (fun e => e.core == c && e.task == p.task && e.count == p.retired))
        (fun e s => putReplay c e.isReg (if e.isReg then e.target else s.mirrorKey c p.task e.target) (~~~e.value) s) s
    else s
  | none => s

/-- Starts a pass (R74): the bank is copied at 8 bytes per `FABRIC` cycle, then the registers are set. -/
def startPass (c i : Nat) (mirror : Bool) (s : State) : State :=
  let x := s.task i
  let s := copyBank c (if mirror then x.stMirr else x.stTrue) x s
  if s.fenced (1 + c) then s
  else
    let k := s.core c
    let s := s.setCore c { k with
      pass := some { task := i, mirror := mirror, cycles := x.stLen / 4 }
      tBank := { k.tBank with g := passRegs mirror x, lc := [] }
      tPc := BitVec.ofNat 32 x.entry }
    deliver c s

/-- The next primary pass of core `c`; a class C pass without room is SKIPPED (R68). -/
def nextPrim (c : Nat) : List Nat → State → Option State
  | [], _ => none
  | i :: rest, s =>
    let x := s.task i
    if x.cls = 2 ∧ s.frame.lc < s.coreTime c + 40 * x.wcet then nextPrim c rest (settleTask i .skipped s)
    else some (startPass c i false (s.setCore c { s.core c with primQ := rest }))

/-- Marks as SKIPPED the class C tasks that found no room after the last primary pass. -/
def skipRest (c : Nat) (l : List Nat) (s : State) : State :=
  forEach l (fun i s => settleTask i .skipped s) (s.setCore c { s.core c with primQ := [] })

/-- The core has no pass: its next primary pass starts, then its mirror passes (R67). -/
def nextPass (c : Nat) (s : State) : State :=
  match nextPrim c (s.core c).primQ s with
  | some s' => s'
  | none =>
    let s := skipRest c (s.core c).primQ s
    match (s.core c).mirrQ with
    | i :: rest => startPass c i true (s.setCore c { s.core c with mirrQ := rest })
    | [] => s

/-! ### The compare phase (R87, R90, R92) -/

/-- The commit lanes of the two passes agree (R87). -/
def TaskRun.cmtEqual (r : TaskRun) : Bool := r.primCmt == r.mirrCmt.map (fun e => (e.1, ~~~e.2))

/-- The outcome counts as a mismatch (R90). -/
def TaskRun.mismatch (r : TaskRun) : Bool :=
  match r.out with
  | some .sigMism => true
  | some .cmtMism => true
  | some .agreeSeq => true
  | some .exception => r.primEnd
  | _ => false

/-- A task of this frame had a mismatch on core `c`. -/
def State.coreMism (s : State) (c : Nat) : Bool := s.frame.runs.any (fun e => e.2.core == c && e.2.mismatch)

/-- A task on core `c` takes a mismatch outcome: source `n` reports, and the first of the frame on that core counts toward the frames in a
row of R90. -/
def mismatchOut (c i n : Nat) (o : TaskOut) (s : State) : State :=
  let first := !s.coreMism c
  let s := settleTask i o s
  let s := if n = 48 then coreReport n c s else frameReport n s
  if first then
    let k := tget 0 s.frame.mismRun c + 1
    let s := { s with frame := { s.frame with mismRun := tset 0 s.frame.mismRun c k } }
    if orOne (s.get FRAME_ESC_MISM_LIMIT) ≤ k then frameReport (57 + c) s else s
  else s

/-- Compares the commit lanes of one task. -/
def compareTask (i : Nat) (s : State) : State :=
  let r := s.run i
  if r.out.isNone && r.primEnd && r.mirrEnd && !r.cmtEqual then mismatchOut r.core i (39 + r.core) .cmtMism s else s

/-- The compare phase (R87, R92): the lanes and the live check with its bit position. -/
def compare (s : State) : State :=
  let s := { s.put FRAME_STAT_PHASE 2 with frame := { s.frame with compared := true, livePos := (s.frame.livePos + 1) % 64 } }
  let s := s.wrap FRAME_CMP_STAT_LIVE_CNT
  forEach (s.frame.runs.map (fun e => e.1)) compareTask s

/-- No unfenced core has a pass left. -/
def State.coresIdle (s : State) : Bool :=
  (List.range 4).all (fun c =>
    s.fenced (1 + c) || ((s.core c).pass.isNone && (s.core c).primQ.isEmpty && (s.core c).mirrQ.isEmpty))

/-- The compare starts once all unfenced cores are idle (R61). -/
def compareIfIdle (s : State) : State :=
  if s.get FRAME_STAT_PHASE = 1 ∧ s.coresIdle then compare s else s

/-! ### The end of a pass -/

/-- The core leaves its pass, whose cycles are counted. -/
def leavePass (c : Nat) (p : Pass) (s : State) : State :=
  let r := s.run p.task
  let r := if p.mirror then { r with mirrCyc := p.cycles } else { r with primCyc := p.cycles }
  (s.setRun p.task r).setCore c { s.core c with pass := none }

/-- The compare at the end of a mirror pass (R86). -/
def compareSig (c i : Nat) (s : State) : State :=
  let r := s.run i
  if r.primSig != r.mirrSig then mismatchOut c i (35 + c) .sigMism s
  else if r.agreeBad || r.logUsed != r.log.length then mismatchOut c i 48 .agreeSeq s
  else s

/-- A pass ends at the gate (R75): the mirror pass of the task is still to come, or its signature is compared. -/
def endPass (c : Nat) (s : State) : State :=
  match (s.core c).pass with
  | none => s
  | some p =>
    let s := leavePass c p s
    let r := s.run p.task
    let s :=
      if p.mirror then compareSig c p.task (s.setRun p.task { r with mirrEnd := true })
      else (s.setRun p.task { r with primEnd := true }).setCore c { s.core c with mirrQ := (s.core c).mirrQ ++ [p.task] }
    compareIfIdle (nextPass c s)

/-- A pass ends without its gate (R67, R82, R129): its task takes the outcome, source 61 reports, and an exception in a mirror pass whose
primary pass ended without one reports as a mismatch (R88). -/
def breakPass (c : Nat) (o : TaskOut) (s : State) : State :=
  match (s.core c).pass with
  | none => s
  | some p =>
    let s := leavePass c p s
    let s := if p.mirror && o == .exception then mismatchOut c p.task (35 + c) o s else settleTask p.task o s
    let s := coreReport 61 c s
    compareIfIdle (nextPass c s)

end Sys2Proof.Machine
end

