-- ==== Sys2Proof/Machine/Snapshot.lean ====
section
/-!
DEFINITION. Sys2Proof/Machine/Snapshot.lean: the snapshot at T0 (R69–R73): its header, the descriptors in list order, and the consuming copies of
UART receive FIFOs (R489), Ethernet receive rings (R481) and CAN receive buffers (R434), with the data that `RETAIN` presents again.
-/
namespace Sys2Proof.Machine

/-- A descriptor of the snapshot list. -/
structure Desc where
  src : Nat
  count : Nat
  owner : Nat
  retain : Bool
  ofs : Nat
deriving DecidableEq, Repr

/-- Descriptor `k` of the list at `FRAME_SNAP_LIST`. -/
def State.desc (s : State) (k : Nat) : Desc :=
  let a := 16 * s.get FRAME_SNAP_LIST_BASE + 16 * k
  let w := s.wordN (a + 4)
  { src := s.wordN a, count := bits w 31 16, owner := bits w 15 8, retain := w.testBit 0, ofs := s.wordN (a + 8) / 8 * 8 }

/-- Writes a word of the snapshot: true, and complemented 0x2_0000 higher; nothing past 128 KB or outside shared SRAM. -/
def snapPut (o : Nat) (w v : Word) (s : State) : State :=
  let a := 65536 * s.get FRAME_SNAP_BASE_BASE + o
  if o < 0x20000 ∧ inShared a ∧ inShared (a + 0x20003) then (s.setWord a w).setWord (a + 0x20000) v else s

/-- Writes words of the snapshot at rising offsets. -/
def snapPuts (o : Nat) : List Word → State → State
  | [], s => s
  | w :: l, s => snapPuts (o + 4) l (snapPut o w (~~~w) s)

/-- The header of the snapshot (R70). -/
def State.snapHeader (s : State) : List Word :=
  let w (v : Nat) : Word := BitVec.ofNat 32 v
  [w s.t0, w (s.t0 / 2 ^ 32), w s.frameNo, w (s.frameNo / 2 ^ 32), w (s.frame.level * 16 + s.get FRAME_LOCK_STAT_STATE), w s.gates,
   w s.psch.view.pend.length, w s.coreMask] ++ List.replicate 8 0

/-- The descriptor names an address outside the peripheral region and shared SRAM, or its destination runs past 128 KB (R73). -/
def Desc.bad (d : Desc) : Bool :=
  let last := d.src + 4 * d.count - 1
  !((inShared d.src && inShared last) || (decide (0x60000000 ≤ d.src) && decide (last < 0x60180000))) ||
    decide (0x20000 < d.ofs + 4 * d.count)

/-- A descriptor that is skipped: 0 in the true copy, 0xFF in the other, and source 50 (R73). -/
def snapSkip (d : Desc) (s : State) : State :=
  frameReport 50 ((List.range d.count).foldl (fun s i => snapPut (d.ofs + 4 * i) 0 (BitVec.allOnes 32) s) s)

/-! ### Consuming sources (R72) -/

/-- The data that descriptor `k` presents again. -/
def State.kept (s : State) (k : Nat) : List Word :=
  ((s.frame.retain.find? (fun e => e.1 == k)).map (fun e => e.2.2)).getD []

/-- What descriptor `k` has copied is presented again while its `RETAIN` is 1. -/
def keepData (k : Nat) (d : Desc) (l : List Word) (s : State) : State :=
  let others := s.frame.retain.filter (fun e => e.1 != k)
  { s with frame := { s.frame with retain := if d.retain && !l.isEmpty then others ++ [(k, d.owner, l)] else others } }

/-- Bytes as little-endian words, the last filled with 0. -/
def packAll (l : List Byte) : List Word := packWords ((l.length + 3) / 4) l

/-- The bytes of words. -/
def bytesOf (l : List Word) : List Byte := l.flatMap (fun w => [w.extractLsb' 0 8, w.extractLsb' 8 8, w.extractLsb' 16 8, w.extractLsb' 24 8])

/-- A copy of the receive FIFO of a UART (R489): a header word, then the bytes kept and the new ones. -/
def snapUart (k u : Nat) (d : Desc) (s : State) : State :=
  let old := s.kept k
  let oldBytes := (bytesOf (old.drop 1)).take (wordOf old 0 % 1024)
  let x := s.uartNow u
  let room := 4 * (d.count - 1) - oldBytes.length
  let new := x.rx.take room
  let bad := (wordOf old 0).testBit 31 || new.any (fun r => r.pe || r.fe)
  let bytes := oldBytes ++ new.map (fun r => r.b)
  let words := BitVec.ofNat 32 ((if bad then 2 ^ 31 else 0) + bytes.length % 1024) :: packAll bytes
  if d.count = 0 then s
  else snapPuts d.ofs words (keepData k d (if bytes.isEmpty then [] else words) (s.setUart u { x with rx := x.rx.drop room }))

/-- The descriptor at index `i` of a receive ring. -/
def State.rxDesc (s : State) (e i : Nat) : Nat := 64 * s.get (ETH_RX_BASE_BASE e) + 16 * (i % 64)

/-- A descriptor of the ring followed by its frame, padded to a multiple of 8 bytes (R481). -/
def State.rxFrame (s : State) (a : Nat) : List Word :=
  let len := s.wordN (a + 4) % 2 ^ 11
  s.words a 4 ++ packWords ((len + 7) / 8 * 2) (s.bytes (s.wordN a) len ++ List.replicate 8 0)

/-- Copies the filled descriptors of a ring that fit in `room` words, from index `i` on, and returns them to the device. -/
def snapRing (e : Nat) : Nat → Nat → Nat → List Word → State → List Word × State
  | 0, _, _, acc, s => (acc, s)
  | n + 1, i, room, acc, s =>
    let a := s.rxDesc e i
    if (s.wordN (a + 4)).testBit 31 then snapRing e n (i + 1) room acc s
    else
      let l := s.rxFrame a
      if room < l.length then (acc, s)
      else snapRing e n (i + 1) (room - l.length) (acc ++ l) (s.setWordN (a + 4) (2 ^ 31 + s.get (ETH_CTL_RXBUF e)))

/-- A copy of the receive ring of an Ethernet port (R481). -/
def snapEth (k e : Nat) (d : Desc) (s : State) : State :=
  let old := s.kept k
  let r := snapRing e 64 (s.eth e).rx (d.count - old.length) [] s
  let words := old ++ r.1
  snapPuts d.ofs words (keepData k d words r.2)

/-- The unread CAN receive buffers whose word 8 a copy covers (R434). -/
def State.canCopied (s : State) (d : Desc) : List (Nat × Nat) :=
  (List.range 13).flatMap (fun n => ((List.range 128).filter (fun b =>
    let a := s.mbAddr n b 8
    s.rxNew n b && decide (d.src ≤ a) && decide (a + 4 ≤ d.src + 4 * d.count))).map (fun b => (n, b)))

/-- The words of any other source: registers as they stand, memory with source 50 for a word that cannot be corrected (R71). -/
def State.snapWords (s : State) (d : Desc) : List Word :=
  (List.range d.count).map (fun i =>
    let a := d.src + 4 * i
    if inShared d.src then s.word a else BitVec.ofNat 32 (s.regNow a))

/-- A copy of words; data of unread CAN buffers is presented again while it is kept, ahead of what arrives. -/
def snapPlain (k : Nat) (d : Desc) (s : State) : State :=
  let old := s.kept k
  if d.retain && !old.isEmpty then snapPuts d.ofs old s
  else
    let words := s.snapWords d
    let l := s.canCopied d
    let s := if inShared d.src && s.ded.any (fun x => decide (d.src ≤ x + 7) && decide (x < d.src + 4 * d.count)) then
        frameReport 50 s else s
    let s := forEach l (fun p s => rxAck p.1 p.2 s) s
    snapPuts d.ofs words (keepData k d (if l.isEmpty then [] else words) s)

/-- Copies descriptor `k`. -/
def snapDesc (k : Nat) (s : State) : State :=
  let d := s.desc k
  if d.bad then snapSkip d s
  else if 0x60110000 ≤ d.src ∧ d.src < 0x60110400 ∧ d.src % 0x100 = 0x08 then snapUart k ((d.src - 0x60110000) / 0x100) d s
  else
    match (List.range 2).find? (fun e => s.get (ETH_RX_BASE_BASE e) != 0 && d.src == 64 * s.get (ETH_RX_BASE_BASE e)) with
    | some e => snapEth k e d s
    | none => snapPlain k d s

/-- The snapshot of a frame that dispatches (R69). -/
def snapshot (s : State) : State := overN (min 128 (s.get FRAME_SNAP_CNT_N)) snapDesc (snapPuts 0 s.snapHeader s)

/-- Data kept for a task that has been COMMITTED is not presented again (R72). -/
def dropKept (i : Nat) (s : State) : State :=
  { s with frame := { s.frame with retain := s.frame.retain.filter (fun e => e.2.1 != i) } }

end Sys2Proof.Machine
end

