-- ==== Sys2Proof/Machine/TaskTable.lean ====
section
/-!
DEFINITION. Sys2Proof/Machine/TaskTable.lean: the frame table (R65, R66): reading posted entries at the commit point, their checks, adoption at
T0, and the words the device writes.
-/
namespace Sys2Proof.Machine

/-- The address of word 12 of entry `i`. -/
def State.ttWord12 (s : State) (i : Nat) : Nat := 64 * s.get FRAME_TT_BASE_BASE + 64 * i + 48

/-- Words 0–11 of entry `i` as the table holds them. -/
def State.ttEntry (s : State) (i : Nat) : List Word := s.words (64 * s.get FRAME_TT_BASE_BASE + 64 * i) 12

/-- A frame table entry from its words. -/
def taskOfWords (l : List Word) : Task :=
  let w (i : Nat) := (l.getD i 0).toNat
  let c := w 0
  { en := c.testBit 31, pin := c.testBit 30, cls := bits c 29 28, core := bits c 27 26, order := bits c 23 16, div := bits c 15 8,
    phase := bits c 7 0, entry := w 1, cmtMax := bits (w 2) 31 16, wcet := bits (w 2) 15 0, stTrue := w 3, stMirr := w 4,
    stLen := w 5, wkTrue := w 6, wkMirr := w 7, wkLen := w 8, pubBase := w 9, pubLen := w 10, gen := w 11 }

/-- The regions of an entry that hold bytes: base and length. -/
def Task.regions (x : Task) : List (Nat × Nat) :=
  [(x.stTrue, 2 * x.stLen), (x.stMirr, 2 * x.stLen), (x.wkTrue, x.wkLen), (x.wkMirr, x.wkLen), (x.pubBase, x.pubLen)].filter
    (fun r => r.2 != 0)

/-- The region lies in core-local SRAM. -/
def localRegion (r : Nat × Nat) : Bool := inLocal r.1 && inLocal (r.1 + r.2 - 1)

/-- The region lies in shared SRAM. -/
def sharedRegion (r : Nat × Nat) : Bool := inShared r.1 && inShared (r.1 + r.2 - 1)

/-- Two regions share a byte. Core-local SRAM of different cores is different memory (R30). -/
def regionsMeet (x y : Task) (p q : Nat × Nat) : Bool :=
  decide (p.1 < q.1 + q.2) && decide (q.1 < p.1 + p.2) && !(localRegion p && localRegion q && x.core != y.core)

/-- The form of an entry breaks R65. -/
def Task.badForm (x : Task) (w0 : Nat) : Bool :=
  x.cls == 3 || bits w0 25 24 != 0 || x.entry % 4 != 0 || x.stTrue % 64 != 0 || x.stMirr % 64 != 0 || x.wkTrue % 64 != 0 ||
    x.wkMirr % 64 != 0 || x.stLen % 64 != 0 || x.wkLen % 64 != 0 || x.pubLen % 64 != 0 || decide (0x10000 < x.stLen) ||
    decide (0x40000 < x.wkLen)

/-- A region of the entry stands where R65 does not allow it. -/
def Task.badPlace (x : Task) : Bool :=
  x.regions.any (fun r => (!sharedRegion r && !localRegion r) || (localRegion r && !x.pin))

/-- The table as it will stand at the next T0. -/
def State.ttView (s : State) : List (Nat × Task) :=
  s.frame.staged.reverse ++ s.frame.tasks.filter (fun e => !s.frame.staged.any (fun p => p.1 == e.1))

/-- The post of entry `i` is rejected (R65, R103). An entry with `EN` 0 never is. -/
def State.ttBad (s : State) (i w0 : Nat) (x : Task) : Bool :=
  let others := s.ttView.filter (fun e => e.1 != i && e.2.en)
  x.en && (x.badForm w0 || x.badPlace ||
    others.any (fun e => x.regions.any (fun p => e.2.regions.any (fun q => regionsMeet x e.2 p q))) ||
    !budgetOk (x :: others.map (fun e => e.2)) (s.get FRAME_LEN_LEN) (s.get FRAME_MARGIN_MARGIN_US) (s.get FRAME_CUTRES_RES_US) ||
    s.level == 3)

/-- The device writes words 12–15 of entry `i`. -/
def ttWrite (i : Nat) (x : Task) (s : State) : State :=
  let a := s.ttWord12 i
  if inShared a ∧ inShared (a + 15) then
    s.setWords a [BitVec.ofNat 32 (x.out * 2 ^ 24 + x.outAt % 2 ^ 24), BitVec.ofNat 32 (x.mirrTime * 2 ^ 16 + x.primTime),
      BitVec.ofNat 32 (x.mism * 2 ^ 16 + x.aborts), BitVec.ofNat 32 x.gen]
  else s

/-- Changes an adopted entry. -/
def State.modTask (s : State) (i : Nat) (f : Task → Task) : State := s.setTask i (f (s.task i))

/-- A post is rejected: outcome 10, and source 51 reports. -/
def ttReject (i : Nat) (s : State) : State :=
  let n := s.frameNo
  let a := s.ttWord12 i
  let s := if inShared a then s.setWordN a (10 * 2 ^ 24 + n % 2 ^ 24) else s
  let s := if (s.task i).en then s.modTask i (fun x => { x with out := 10, outAt := n }) else s
  frameReport 51 s

/-- Reads one posted entry. -/
def ttRead (i : Nat) (s : State) : State :=
  let l := s.ttEntry i
  let x := taskOfWords l
  if s.ttBad i (l.getD 0 0).toNat x then ttReject i s
  else { s with frame := { s.frame with staged := s.frame.staged.filter (fun p => p.1 != i) ++ [(i, x)] } }

/-- The commit point of the frame table. -/
def ttCommitPoint (s : State) : State :=
  let l := s.frame.posts
  forEach l ttRead { s with frame := { s.frame with posts := [] } }

/-- Adoption at T0 (R65, R66): an entry with `EN` 0 removes its task, whose claims revert; any other keeps the task's state banks. -/
def ttAdopt (p : Nat × Task) (s : State) : State :=
  let old := s.task p.1
  let x := { p.2 with
    bank := old.bank, out := old.out, outAt := old.outAt, primTime := old.primTime, mirrTime := old.mirrTime, mism := old.mism,
    aborts := old.aborts }
  let s := ttWrite p.1 x s
  if x.en then s.setTask p.1 x else jRevertTask p.1 (s.setTask p.1 {})

/-- The frame table at T0: what the commit point read is adopted, and placement follows (R607). -/
def ttT0 (s : State) : State :=
  let l := s.frame.staged
  if l.isEmpty then s
  else forEach l ttAdopt { s with frame := { s.frame with staged := [] }, sub := { s.sub with again := true } }

/-! ### What a frame leaves in the table -/

/-- `CORE` cycles in 0.1 µs, saturating: 40 at 400 MHz, 20 at half rate. -/
def State.tenths (s : State) (cycles : Nat) : Nat := min 65535 (if s.get PRISM_STAT_SRC = 0 then cycles / 40 else cycles / 20)

/-- Counts with saturation at 16 bits. -/
def sat16 (n : Nat) (b : Bool) : Nat := if b then min 65535 (n + 1) else n

/-- What the frame leaves of a dispatched task: outcome, frame, pass times, counts. -/
def taskDone (i : Nat) (s : State) : State :=
  let r := s.run i
  let o := r.out.getD .none
  s.modTask i (fun x => { x with
    out := o.code, outAt := s.frameNo
    primTime := if r.primCyc = 0 then x.primTime else s.tenths r.primCyc
    mirrTime := if r.mirrCyc = 0 then x.mirrTime else s.tenths r.mirrCyc
    mism := sat16 x.mism r.mismatch, aborts := sat16 x.aborts (o == .aborted) })

/-- Every adopted task after the frame: one that was not dispatched takes outcome 0. -/
def tasksDone (s : State) : State :=
  let ids := s.frame.tasks.map (fun e => e.1)
  let s := forEach ids (fun i s =>
    if s.frame.runs.any (fun e => e.1 == i) then taskDone i s else s.modTask i (fun x => { x with out := 0, outAt := s.frameNo })) s
  forEach s.frame.tasks (fun e s => ttWrite e.1 e.2 s) s

end Sys2Proof.Machine
end

