-- ==== Sys2Proof/Machine/Frame.lean ====
section
/-!
DEFINITION. Sys2Proof/Machine/Frame.lean: the frame (chapter 02): the tick (R51, R52, R56, R59), what happens at T0, the dispatch of primary
passes (R67, R103), the cut (R98), the commit (R80, R83–R85, R89, R100, R164, R171) and the maintenance slice (R61).
-/
namespace Sys2Proof.Machine

/-! ### The tick -/

/-- The latest latch instant not later than an instant (R52). -/
def latchDown (d : Int) : Nat := (d / 400 * 400).toNat

/-- The latch instant of the T0 of frame `k` after Tref, later by the time that halts took out of the frame in progress (R52, R107). -/
def Frame.t0At (x : Frame) (k : Nat) : Nat := latchDown (x.tref + k * x.f + x.ck) + x.haltTime

/-- The number after Tref of the next T0: the next one, or the first that is not yet past. -/
def State.nextK (s : State) : Nat :=
  let x := s.frame
  let k := max (x.k + 1) ((((s.now - x.haltTime : Nat) : Int) - x.tref - x.ck) / x.f).toNat
  ([k, k + 1, k + 2].find? (fun j => decide (s.now ≤ x.t0At j))).getD (k + 2)

/-- The instant of the next T0. -/
def State.nextT0 (s : State) : Nat := s.frame.t0At s.nextK

/-- The frame tick counts: `RUN` is set, in RUN or IDLE, with no halt in force (R53, R103, R107). -/
def State.ticks (s : State) : Bool :=
  s.on FRAME_CTL_RUN && s.clocks && !s.ump.service && s.frame.haltFrom.isNone

/-- A T0 falls on `t`. -/
def State.tickAt (s : State) (t : Nat) : Bool :=
  s.ticks && (if s.frame.grid then t == s.nextT0 else t % 400 == 0 && decide (s.now ≤ t))

/-- The correction of the frame that begins (R56, R59): in HOLDOVER the mean over the last 16 references. -/
def State.correction (s : State) : Int :=
  let x := s.tick
  match s.lockState with
  | 0 => 0
  | 3 =>
    let sum := x.corrs.foldl (fun a p => a + p.1) 0
    let n : Int := x.corrs.foldl (fun a p => a + p.2) 0
    if n = 0 then 0 else ((x.holdN : Int) + 1) * sum / n - (x.holdN : Int) * sum / n
  | _ => clampI (-400) 400 x.rest

/-- Tref, k and Ck for the T0 at `t` (R51, R52): a change of length or of lock state makes it Tref. -/
def tickPlace (t : Nat) (s : State) : State :=
  let x := s.frame
  let len := s.get FRAME_LEN_LEN
  let fresh := !x.grid || x.restart || len != x.len
  let k := s.nextK
  { s with frame := { x with
      tref := if fresh then t else x.tref + x.haltTime
      k := if fresh then 0 else k
      ck := if fresh then 0 else x.ck
      len := len, margin := s.get FRAME_MARGIN_MARGIN_US, res := s.get FRAME_CUTRES_RES_US, grid := true, restart := false,
      haltTime := 0, hadHalt := false } }

/-- The correction of the frame that begins enters Ck. -/
def tickCorrect (s : State) : State :=
  let c := s.correction
  let x := s.tick
  { s with
    frame := { s.frame with ck := s.frame.ck + c }
    tick := { x with
      rest := if s.lockState = 3 then x.rest else x.rest - c, since := x.since + c, frames := x.frames + 1
      holdN := if s.lockState = 3 then x.holdN + 1 else 0 } }

/-- The number and the instant of the frame that begins; the first is frame 0. -/
def tickCount (t : Nat) (s : State) : State :=
  let n := if s.frame.started then s.frameNo + 1 else 0
  (s.put64 FRAME_COUNT_LO_COUNT FRAME_COUNT_HI_COUNT n).put64 FRAME_T0_LO_T0 FRAME_T0_HI_T0 t

/-- The first frame: SAFE that waited for it is entered (R539). -/
def firstFrame (s : State) : State :=
  if s.frame.started then s
  else
    let s := { s with frame := { s.frame with started := true } }
    let s := if s.ump.srcs.any (fun e => e.2.state != .clear && e.2.code == 6) then enterSafe 1 s else s
    dueReports (safeIfNoCore s)

/-! ### What T0 brings to the blocks -/

/-- The frame begins: no task has run, the replay log is empty (R114), the counts of R90 of cores without a mismatch start anew. -/
def frameOpens (s : State) : State :=
  let keep := Tab.keep (fun c => s.coreMism c) s.frame.mismRun
  let s := s.put DBG_RLOG_USED 0
  { s with
    rlog := []
    frame := { s.frame with runs := [], mismRun := keep, compared := false, applied := false, closed := false } }

/-- The measured values shown from this T0 (R176, R231, R674). -/
def takeMeasures (m : Measures) (s : State) : State :=
  let s := (s.put PWR_SUPPLY_VBAT_L m.vbat).put PWR_SUPPLY_KL15 m.kl15
  let s := forEach (m.chans.filter (fun p => decide (p.1 < 152))) (fun p s => s.modChan p.1 (fun c => { c with
    iMean := p.2.1, iPeak := p.2.2.1, tj := p.2.2.2, tjNow := p.2.2.2, tjPeak := max c.tjPeak p.2.2.2 })) s
  let s := forEach (m.groups.filter (fun p => decide (p.1 < 8))) (fun p s =>
    (s.put (CHT_GRP_STAT_V_GRP p.1) p.2.1).put (CHT_GRP_STAT_I_GRP p.1) p.2.2) s
  forEach (m.dies.filter (fun p => decide (p.1 < 4))) (fun p s => s.put (CHT_DIE_STAT_T_DIE p.1) (unsigned 8 p.2)) s

/-- Channel `i` at T0: the entry read at the last commit governs (R165); an input's filter follows (R409); a field output whose values are
all active echoes `GEN` (R397). -/
def chanT0 (i : Nat) (s : State) : State :=
  let c := s.chan i
  let s := if 136 ≤ i ∧ i < 152 ∧ c.pend.isNone ∧ c.cached then s.setChan i { c with genAck := c.entry.gen } else s
  let s := chtAdopt i s
  if 152 ≤ i ∧ i < 168 then inputAdopt (i - 152) c.entry (s.chan i).entry s else s

/-- The channel table at T0. -/
def chtT0 (s : State) : State :=
  let l := (s.chans.filter (fun e => e.2.shadow.isSome)).map (fun e => e.1)
  let s := forEach (s.chans.map (fun e => e.1)) chanT0 s
  s.put CHT_POST_STAT_ADOPTED l.length

/-- A switch die at T0: `BSTOP`, `RESUME`, and the resume after a return from SLEEP (R219, R220). -/
def dieT0 (k : Nat) (s : State) : State :=
  let d := s.die k
  if d.bstopReq then (dieBackstop k .command s).modDie k (fun d => { d with bstopReq := false })
  else if d.resumeReq || (d.autoResume && s.resumeOk k) then
    if s.resumeOk k then dieResume k s else s.modDie k (fun d => { d with resumeReq := false })
  else s

/-- Words 8–15 of entry `i`. -/
def State.statusWords (s : State) (i : Nat) : List Word :=
  if i < 152 then s.outWords i else if i < 168 then s.inWords (i - 152) else s.ledWords i

/-- The status words are latched; what they count since the last T0 begins anew, and so do the reports of R207. -/
def latchStatus (s : State) : State :=
  let s := { s with status := (List.range 424).map (fun i => (i, s.statusWords i)) }
  let s := forEach (s.chans.map (fun e => e.1)) (fun i s => s.modChan i (fun c => { c with
    tlLim := false, sawDroop := decide (i < 136) && (s.grp (grpOf i)).drooped, rptd := 0, tjPeak := c.tj, iPeak := 0 })) s
  overN 16 inputFrame s

/-- Every table and engine at T0, then the power controller, which may leave RUN (R663, R665). -/
def blocksT0 (t : Nat) (m : Measures) (s : State) : State :=
  let s := ttT0 (chtT0 s)
  let s := overN 13 mbFrame (tmrFrame t (pschT0 s))
  let s := overN 4 dieT0 (placeAtT0 (subFrame s))
  let was := s.power
  let s := powerT0 (latchStatus (takeMeasures m s))
  if was = .idle ∧ s.power = .idle then { s with pwr := { s.pwr with frames := s.pwr.frames + 1 } } else s

/-! ### Dispatch (R67, R103, R607) -/

/-- What becomes of adopted task `i` in the frame: SKIPPED where its class is shed or it has no core, else it waits for its passes. -/
def State.taskRun (s : State) (i : Nat) : TaskRun :=
  let c := s.coreOf i
  let ok := levelRuns s.frame.level (s.task i).cls && decide (c < 4) && !s.coreOut c
  { core := c, out := if ok then none else some .skipped }

/-- The primary passes of core `c`, in class and then in `ORDER`. -/
def State.primList (s : State) (c : Nat) : List Nat :=
  (sortBy placeBefore (s.frame.tasks.filter (fun e => s.frame.runs.any (fun r =>
    r.1 == e.1 && r.2.core == c && r.2.out.isNone)))).map (fun e => e.1)

/-- The frame dispatches: its snapshot, the tasks due, the primary passes on every core. -/
def dispatch (s : State) : State :=
  let s := snapshot (s.put FRAME_STAT_PHASE 1)
  let n := s.frameNo
  let due := s.frame.tasks.filter (fun e => e.2.dueIn n)
  let s := forEach due (fun e s => s.setRun e.1 (s.taskRun e.1)) s
  let s := overN 4 (fun c s => s.setCore c { s.core c with primQ := s.primList c, mirrQ := [], pass := none }) s
  compareIfIdle (overN 4 (fun c s => if s.fenced (1 + c) then s else nextPass c s) s)

/-- A frame without dispatch (R103). -/
def noDispatch (s : State) : State :=
  { s.put FRAME_STAT_PHASE 6 with frame := { s.frame with compared := true, applied := true } }

/-- `ALIVE` toggles after a T0 in RUN or IDLE outside SAFE (R543). -/
def toggleAlive (s : State) : State :=
  if (s.power = .run ∨ s.power = .idle) ∧ s.level < 4 then s.flag UMP_STAT_ALIVE (!s.on UMP_STAT_ALIVE) else s

/-- The frame from the adoption on: interrupt bit 0 (R131), the level (R536), then dispatch. -/
def frameRuns (s : State) : State :=
  if s.power = .sleep then s
  else
    let s := toggleAlive (raiseAll 0 s)
    let s := { s with frame := { s.frame with level := s.level } }
    if s.power = .run ∧ s.level < 4 then dispatch s else noDispatch s

/-! ### The cut (R98) -/

/-- The time the frame in progress has been running, without halts. -/
def State.frameTime (s : State) (t : Nat) : Nat := t - s.t0 - s.frame.haltTime

/-- A frame runs that can meet its cut or its deadline at `t`. -/
def State.inFrame (s : State) : Bool := s.frame.started && s.ticks && s.frame.grid

/-- Core `c` stops at the cut; its pass counts. -/
def cutCore (c : Nat) (s : State) : State :=
  let s := match (s.core c).pass with | some p => leavePass c p s | none => s
  dropPasses c s

/-- The cut: every pass stops, tasks whose passes did not both end are ABORTED, the compare follows. -/
def cutFrame (s : State) : State :=
  let s := overN 4 cutCore s
  let s := forEach s.frame.runs (fun e s => if e.2.primEnd && e.2.mirrEnd then s else settleTask e.1 .aborted s) s
  let s := dueReports s
  if s.get FRAME_STAT_PHASE = 1 then compare s else s

/-- `CUT` (R98). -/
def execCut (t : Nat) (s : State) : Res :=
  let s := s.at t
  if s.inFrame && s.get FRAME_STAT_PHASE == 1 && decide (s.frame.cut ≤ s.frameTime t) then .next (cutFrame s) else .next s

/-! ### The commit (R80–R89) -/

/-- The task waits to be applied. -/
def State.ready (s : State) (i : Nat) : Bool := let r := s.run i; r.out.isNone && r.primEnd && r.mirrEnd

/-- The tasks to apply, in ascending `ORDER` (R83). -/
def State.toApply (s : State) : List Nat :=
  let l := s.frame.tasks.filter (fun e => s.ready e.1)
  (sortBy (fun (a b : Nat × Task) => decide (a.2.order < b.2.order) || (a.2.order == b.2.order && decide (a.1 ≤ b.1))) l).map
    (fun e => e.1)

/-- Applies one commit entry: a register, or a word of the published window. -/
def applyEntry (c i : Nat) (e : Nat × Word) (s : State) : State :=
  if !s.alive then s
  else if 0x60000000 ≤ e.1 then busWrite e.1 e.2 i s
  else s.setWord (memKey c e.1) e.2

/-- A task is COMMITTED (R80, R84, R85): its working banks become the committed ones, all of its entries are applied in store order. -/
def commitTask (i : Nat) (s : State) : State :=
  let r := s.run i
  let s := settleTask i .committed s
  let s := dropKept i (s.modTask i (fun x => { x with bank := !x.bank }))
  let s := { s with jrnl := { s.jrnl with commits := tset 0 s.jrnl.commits i s.now } }
  r.primCmt.foldl (fun s e => applyEntry r.core i e s) s

/-- Applies tasks while the commit, at 10 ns an entry after `time`, keeps the deadline (R61, R100). -/
def commitTasks : List Nat → Nat → State → State
  | [], _, s => s
  | i :: l, time, s =>
    let time' := time + 2 * (s.run i).primCmt.length
    if !s.ready i then commitTasks l time s
    else if s.frame.deadline < time' then s
    else commitTasks l time' (commitTask i s)

/-- The networks that a write of `REQ` 1 in this commit takes out of BUS_SLEEP (R467). -/
def State.wakingNms (s : State) (l : List Nat) : List Nat :=
  (List.range 13).filter (fun n => l.any (fun i => (s.run i).primCmt.any (fun e => e.1 == 0x600D0000 + 0x100 * n && e.2.getLsbD 30)))

/-- Sets or clears the mark of R467. -/
def markWaking (b : Bool) (l : List Nat) (s : State) : State :=
  forEach l (fun n s => { s with nms := tset {} s.nms n { tget {} s.nms n with waking := b } }) s

/-! ### The end of the commit -/

/-- Words 8–15 of every entry go back into the channel table (R171). -/
def chtWriteBack (s : State) : State :=
  if s.chtBase = 0 then s else forEach s.status (fun e s => s.setWords (s.chtBase + 64 * e.1 + 32) e.2) s

/-- Busy time of the cores in this frame, in µs. -/
def coreUse (c : Nat) (s : State) : State :=
  let n := min 65535 (s.tenths (s.passCycles c) / 10)
  (s.put (FRAME_USE_LAST_US c) n).put (FRAME_USE_PEAK_US c) (max n (s.get (FRAME_USE_PEAK_US c)))

/-- Frames in a row with a class A task ABORTED or LATE (R101, R109). -/
def countOverrun (s : State) : State :=
  let bad := s.frame.runs.any (fun e => (s.task e.1).cls == 0 && (e.2.out == some .aborted || e.2.out == some .late))
  let n := if bad then s.frame.ovrRun + 1 else 0
  let s := { s with frame := { s.frame with ovrRun := n } }
  if bad && decide (orOne (s.get FRAME_ESC_OVR_LIMIT) ≤ n) && !s.frame.hadHalt then frameReport 54 s else s

/-- Every commit point (R164, R174), and the write-backs that follow it. -/
def commitPoints (s : State) : State :=
  let s := tmrCommitPoint (apCommitPoint (chtCommitPoint s))
  let s := ttCommitPoint (overN 13 mbCommitPoint s)
  tasksDone (tmrWriteBack (apWriteBack (chtWriteBack s)))

/-- The maintenance slice begins where passes were dispatched, with interrupt bit 1 (R61, R131). -/
def openSlice (s : State) : State :=
  if s.get FRAME_STAT_PHASE = 6 then s else raiseAll 1 (s.put FRAME_STAT_PHASE 4)

/-- The frame takes no further commit. -/
def markClosed (s : State) : State :=
  { s with frame := { s.frame with applied := true, closed := true, sliceAt := s.now } }

/-- The frame is closed: counts, commit point, maintenance slice. -/
def closeFrame (s : State) : State :=
  if s.alive then openSlice (markClosed (commitPoints (overN 4 coreUse (countOverrun s)))) else s

/-- The commit, at frame time `time`: its first entry follows 0.5 µs later (R61). -/
def commitFrame (time : Nat) (s : State) : State :=
  let l := s.toApply
  let ws := s.wakingNms l
  let s := commitTasks l (time + 100) (markWaking true ws (s.put FRAME_STAT_PHASE 3))
  let s := { markWaking false ws s with frame := { s.frame with applied := true } }
  if l.any s.ready then s else closeFrame s

/-- `COMMIT` (R83): at the end of the compare. -/
def execCommit (t : Nat) (s : State) : Res :=
  let s := compareIfIdle (s.at t)
  if s.inFrame && s.get FRAME_STAT_PHASE == 2 && !s.frame.applied then .next (commitFrame (s.frameTime t) s) else .next s

/-- The deadline D (R100): what is not yet applied is LATE; in a frame without commit this is the commit point (R164). -/
def deadlineFrame (s : State) : State :=
  let s := if s.get FRAME_STAT_PHASE = 1 then cutFrame s else s
  let l := (s.frame.runs.map (fun e => e.1)).filter s.ready
  let s := forEach l (fun i s => settleTask i .late s) s
  closeFrame (if l.isEmpty || s.frame.hadHalt then s else frameReport 47 s)

/-- `COMMIT_DEADLINE` (R100). -/
def execCommitDeadline (t : Nat) (s : State) : Res :=
  let s := s.at t
  if s.inFrame && !s.frame.closed && decide (s.frame.deadline ≤ s.frameTime t) then .next (deadlineFrame s) else .next s

/-- `MAINTENANCE_SLICE_END` (R61): after S, or 2 µs before the next T0; a return to the PLL follows (R628). -/
def execMaintenanceSliceEnd (t : Nat) (s : State) : Res :=
  let s := s.at t
  let ph := s.get FRAME_STAT_PHASE
  let over' := decide (s.frame.sliceAt + s.frame.slice ≤ t) || decide (s.frame.f - 400 ≤ s.frameTime t)
  if s.inFrame && s.frame.closed && (ph == 4 || ph == 6) && over' then
    .next (doReturn s.nextT0 (if ph = 4 then s.put FRAME_STAT_PHASE 0 else s))
  else .next s

/-! ### T0 -/

/-- A frame that no command has closed has met its deadline before the next T0. -/
def pastDeadline (s : State) : State :=
  if s.inFrame && !s.frame.closed then deadlineFrame (s.at (s.t0 + s.frame.haltTime + s.frame.deadline)) else s

/-- A T0 (R52): the frame before it is over, the tick moves, every block takes its T0, and the frame runs. -/
def frameT0 (t : Nat) (m : Measures) (s : State) : State :=
  let s := pastDeadline s
  if s.alive then
    let s := tickPlace t (setDebugMode (s.get DBG_CTL_MODE_REQ % 3) s)
    let s := firstFrame (frameOpens (tickCount t (tickCorrect (s.at t))))
    frameRuns (blocksT0 t m s)
  else s

/-- `FRAME_TICK` (R52). -/
def execFrameTick (t : Nat) (m : Measures) (s : State) : Res := if s.tickAt t then .next (frameT0 t m s) else .next s

end Sys2Proof.Machine
end

