-- ==== Sys2Proof/Machine/Boot.lean ====
section
/-!
DEFINITION. Sys2Proof/Machine/Boot.lean: the start sequence of R42 and the return from DEEP of R669, their failures (R46), service mode
(R47), the resets that lead to a start, and the power states reached and left through one (R656–R671). A `BootPlan` says what the start
meets; each step's outcome follows from it.
-/
namespace Sys2Proof.Machine

/-! ### Steps 0–3 -/

/-- Service mode (R47). -/
def enterService (s : State) : State := { s with ump := { s.ump with service := true } }

/-- The clocks of a start: HFRC and LFRC run, LXTAL where it is fitted; the PLL, or HFRC with source 7 where it has not qualified by the
end of step 2 (R42, R43, R624). -/
def bootClocks (p : BootPlan) (s : State) : State :=
  let s := (s.flag PRISM_STAT_HFRC_Q true).flag PRISM_STAT_LFRC_Q true
  let s := if s.on PRISM_CTL_LXTAL_EN && p.lxtal then s.flag PRISM_STAT_LXTAL_Q true else s
  if p.pll then
    let s := ((s.flag PRISM_STAT_XIN_Q true).flag PRISM_STAT_PLL_Q true).put PRISM_STAT_SRC 0
    (s.put TBASE_INC_INT 1).put TBASE_INC_FRAC 0
  else causeBegins 7 (hfrcIncrement (s.put PRISM_STAT_SRC 1))

/-- The logic die runs from here on: RUN, the instant of the start, its cause in `PWR_RST`. -/
def bootBegins (cause : Nat) (s : State) : State :=
  { s.put PWR_RST_CAUSE cause with alive := true, power := .run, pwr := { s.pwr with bootAt := s.now } }

/-- The keeper finds both copies of a record bad: source 440 (R564). -/
def bootRecords (p : BootPlan) (s : State) : State :=
  if p.records then s else report 440 { s with vault := { s.vault with damaged := true } }

/-- One more start since ownership (R586). -/
def countStart (s : State) : State :=
  if s.vault.owner.isSome then { s with vault := { s.vault with starts := (s.vault.starts + 1) % 2 ^ 32 } } else s

/-- Step 1 (R42, R46): records, update phase, loader patch. The first component says that the start goes on. -/
def bootKeeper (p : BootPlan) (s : State) : Bool × State :=
  let r := keeperStart p.cutAt (countStart (bootRecords p s))
  (r.1, if p.patch || !r.1 then r.2 else report 426 r.2)

/-- The Touchline set fails its verification: source 427 and service mode (R46). -/
def bootTouchline (p : BootPlan) (s : State) : State :=
  let s := if s.vault.damaged then enterService s else s
  if p.touchline then s else enterService (report 427 s)

/-- Step 3 (R42, R613): the application segments; a failure reports source 428. -/
def bootSegments (p : BootPlan) (s : State) : State :=
  if s.ump.service then s
  else if !p.segments then enterService (report 428 s)
  else
    let s := overN 256 (fun i s => s.put (SUB_SEGCRC_CRC i) (Config.crc32 (s.bytes (imageBase + 65536 * i) 65536)).toNat) s
    { s with segsWritten := true }

/-! ### Step 4: reloads and the direct path -/

/-- FLD is powered and its image loaded; the third failed transfer reports source 322 and leaves it unarmed (R46, R583). -/
def bootField (p : BootPlan) (s : State) : State :=
  let s := fldPowerUp (s.flag FLD_CTL_EN true)
  if p.fld then s
  else
    let s := report 322 { s with field := { s.field with fails := 3 } }
    if s.fldMode = 0 then fldEnter 3 s else s

/-- The switch dies: a failed reload, or at a return from DEEP a failed check and reload, reports source 232 + 2k (R46). -/
def bootDies (p : BootPlan) (s : State) : State :=
  overN 4 (fun k s =>
    let s := s.modDie k (fun d => { d with unpowered := false })
    if p.dies.getLsbD k then s else report (232 + 2 * k) s) s

/-- ACC: reloaded, or at a return from DEEP kept with its remaining lockout (R515, R694); a failure reports source 410. -/
def bootAccess (deep : Bool) (p : BootPlan) (s : State) : State :=
  let s := if deep then { s with accKept := { s.accKept with remain := s.lockLeft } } else s
  if !p.acc then report 410 s
  else if deep then s
  else accRestore s

/-- The self-tests (R46, R93, R542): of the direct path, the comparator, the Umpire. A failed one leaves `SAFE_N` low and the device in
service mode; source 52 is that of the comparator. -/
def bootTests (p : BootPlan) (s : State) : State :=
  if p.direct && p.comparator && p.umpire then setSafeHeld false s
  else
    let s := if p.comparator then s else report 52 s
    enterService (setSafeHeld true s)

/-- Step 4: the chain starts, the loader makes its writes, the dies are reloaded, the direct path is tested. -/
def bootReload (deep : Bool) (p : BootPlan) (s : State) : State :=
  let s := chainStart s
  let s := p.setup.foldl (fun s e => applyEntry 0 0xFF e s) s
  let s := bootDies p s
  let s := bootAccess deep p (bootField p s)
  bootTests p s

/-! ### Step 5: the Touchline set comes into force (R568) -/

/-- The registers that step 5 writes from the Touchline set, each with its offset in the set (R565). -/
def tlRegisters : List (Nat × Nat) :=
  (0x600800B0, 0x1400) :: (List.range 272).map (fun i => (0x60085000 + 4 * i, 0x1410 + 4 * i)) ++
    (List.range 13).map (fun n => (0x600C0780 + 0x1000 * n, 0x1850 + 8 * n)) ++
    (List.range 13).map (fun n => (0x600C0784 + 0x1000 * n, 0x1854 + 8 * n)) ++
    (List.range 4).map (fun i => (0x60120010 + 4 * i, 0x18B8 + 4 * i))

/-- The block registers take their values from the active set (R309, R446, R508, R530, R532). -/
def tlWrite (s : State) : State :=
  let b := s.tlBank
  let s := forEach tlRegisters (fun e s => store e.1 (s.wordN (b + e.2)) s) s
  let s := (s.put ACC_TIMING_IMMO_HOLD_MS (s.wordN (b + 0x18C8))).put UMP_CFG_FORGET_MIN (s.wordN (b + 0x18D0))
  overN 512 (fun n s => writeSrcCfg n (0x60041000 + 4 * n) (s.wordN (b + 0x18D4 + 4 * n)) s) s

/-- An ACTIVE source whose reaction has become SAFE is PERMANENT (R531); SAFE comes with the first frame. -/
def tlPromote (s : State) : State :=
  overN 512 (fun n s =>
    let e := s.src n
    if e.state = .active && s.react n == 6 then s.setSrc n { e with state := .permanent, code := 6 } else s) s

/-- Die `k` is armed, unless it failed its reload or is fenced: with the tables of the active set, or in BACKSTOP at a return from DEEP with
those it holds (R226, R669). -/
def armDie (deep : Bool) (p : BootPlan) (k : Nat) (s : State) : State :=
  if !p.dies.getLsbD k || s.fenced (0x010 + k) || s.dieMode k == 1 then s
  else if deep && s.dieMode k == 2 then dieArm k s
  else
    let s := overN 34 (fun j s => { s with tl := tset {} s.tl (segChan k j) (s.tlEntryAt (0x100 + 0x440 * k + 32 * j)) }) s
    (dieArm k s).put (CHT_DIE_STAT_TL_REV k) s.tlRev

/-- Step 5. -/
def bootArm (deep : Bool) (p : BootPlan) (s : State) : State :=
  let s := tlPromote (tlWrite s)
  let s := overN 4 (armDie deep p) s
  let s := if p.fld && s.field.powered && !s.fenced 0x040 then fldArm s else s
  { s with blocksArmed := true }

/-! ### Steps 6–8 -/

/-- The self-tests have passed (R93, R542); the calibration of the active set; the measurements of R583; `RUN` (R53). The controller's
recovery of the journal ends by `JOURNAL_RECOVERY_COMPLETE`, the first frame starts by `FRAME_TICK`. -/
def bootEnds (p : BootPlan) (s : State) : State :=
  let s := (s.flag FRAME_CMP_STAT_BOOT_PASS true).flag UMP_STAT_BIST true
  let c := s.calWords (calBank s.calActive)
  setRun { s with calSet := c, calLive := c, keeper := { s.keeper with measures := p.measures.map BitVec.toNat } }

/-- The debug port's nonce of this start (R584). -/
def bootNonce (s : State) : State := { s.draw with keeper := { s.keeper with portNonce := s.free 64 } }

/-- The rest of a start once the keeper runs: service mode at the step that calls for it, else every step. -/
def bootSteps (deep : Bool) (p : BootPlan) (s : State) : State :=
  let s := bootSegments p (bootTouchline p (bootNonce s))
  if s.ump.service then s
  else
    let s := bootReload deep p s
    if s.ump.service then s else bootEnds p (bootArm deep p s)

/-- The brownout that this start follows reports source 18 (R673). -/
def bootCause (cause : Nat) (s : State) : State := if cause = 2 then report 18 s else s

/-- A start from power-up, a reset of the logic die or OFF (R42). A loss of supply in an activation ends it (R581). -/
def start (cause : Nat) (p : BootPlan) (s : State) : State :=
  let r := bootKeeper p (bootCause cause (bootClocks p (bootBegins cause s)))
  if r.1 then bootSteps false p r.2 else powerLost r.2

/-! ### Resets -/

/-- `POWER_UP` (R42, R648): every supply has been lost and rises; `RESET_N` is low until `RESET_N_RELEASE`. -/
def execPowerUp (s : State) : Res := .next (powerLost s)

/-- `RESET_N_RELEASE` (R42). -/
def execResetNRelease (plan : BootPlan) (s : State) : Res :=
  if s.alive || s.power != .run then .next s else .next (start (s.get PWR_RST_CAUSE) plan s)

/-- `RESET_N_ASSERT` (R45). -/
def execResetNAssert (t : Nat) (s : State) : Res := .next (logicReset 1 (s.at t))

/-- `FIRST_FRAME_TIMEOUT` (R46): 150 ms after the start began. -/
def execFirstFrameTimeout (t : Nat) (s : State) : Res :=
  let s := s.at t
  if s.alive && s.power == .run && !s.frame.started && !s.ump.service && decide (s.pwr.bootAt + ms 150 ≤ s.now) then
    .next (enterService (setSafeHeld true s))
  else .next s

/-- `BROWNOUT` (R652): below 3.0 V. -/
def execBrownout (mV t : Nat) (plan : BootPlan) (s : State) : Res :=
  let s := s.at t
  if mV < 3000 then .next (start 2 plan (brownoutReset s)) else .next s

/-- `UMP_RST` (R538): `KEY` 0x5A and `GO` 1 while the level is SAFE. -/
def execUmpRst (key : BitVec 8) (go : Bool) (t : Nat) (plan : BootPlan) (s : State) : Res :=
  let s := s.at t
  if s.alive && key == 0x5A && go && s.level == 4 then .next (start 3 plan (logicReset 3 s)) else .next s

/-- `KEEPER_RESET` (R577): 10 ms after the reply to ACTIVATE or ROLLBACK. -/
def execKeeperReset (t : Nat) (plan : BootPlan) (s : State) : Res :=
  let s := s.at t
  match s.keeper.resetAt with
  | some a => if s.clocks && decide (a ≤ s.now) then .next (start 4 plan (logicReset 4 s)) else .next s
  | none => .next s

/-! ### DEEP, OFF and their ends -/

/-- What the return from DEEP starts with (R379, R656, R669). -/
def deepBegins (first unit : Nat) (p : BootPlan) (s : State) : State :=
  let s := sleepRecord (wakeRecord first unit s.wakeLevels s)
  bootBegins 5 (bootClocks p (clearWakes (deepStart { s with alive := true, power := .run })))

/-- The read of every retained bank, and what the timers counted (R379, R669). -/
def deepReads (s : State) : State :=
  let s := if s.ded = [] then s else report 23 s
  tmrWake s

/-- The return from DEEP (R669): a start that finds the dies' tables and ACC kept. -/
def deepReturn (first unit : Nat) (p : BootPlan) (s : State) : State :=
  let r := bootKeeper p (deepBegins first unit p s)
  if r.1 then startPending (touchReturn (returnReports (bootSteps true p (deepReads r.2)))) else powerLost r.2

/-- DEEP is reached (R656): the wake logic, the time base, ACC and the dies' Backstop go on; `FLD_CTL.EN` is cleared. -/
def enterDeep (s : State) : State := { deepLost { s with power := .deep } with alive := true }

/-- The power controller's own registers, which the always-on comparator of `WAKE` needs in OFF. -/
def offField (k : Nat) : Bool := k / 32 / 0x10000 == 0x6001 && k / 32 != 0x60010034

/-- OFF is reached (R656, R665): only the `WAKE` comparator runs; every die is off. -/
def enterOff (s : State) : State :=
  let r := lastingState s
  let r := { r with
    power := .off, fields := Tab.keep offField s.fields
    pwr := { wakeLvl := s.pwr.wakeLvl, wakeLatch := s.pwr.wakeLatch, mute := s.pwr.mute, flashOff := s.pwr.flashOff, lfOff := s.pwr.lfOff } }
  gatesChanged (overN 4 (fun k s => s.modDie k (fun d => { d with unpowered := true })) r)

/-- The return from OFF (R638, R670): a start, with the time base at 0. -/
def offReturn (first : Nat) (p : BootPlan) (s : State) : State :=
  let l := s.wakeLevels
  start 6 p (clearWakes (wakeRecord first 0 l { enterOff s with now := 0, power := .run }))

/-- The return from the state in force (R668). -/
def returnFrom (first unit : Nat) (p : BootPlan) (s : State) : State :=
  match s.power with
  | .run => s
  | .idle => endIdle s
  | .sleep => returnFromSleep first unit s
  | .deep => deepReturn first unit p s
  | .off => offReturn first p s

/-- The target of the entry is reached; the pending request is dropped (R662). -/
def reachTarget (s : State) : State :=
  let e := s.get PWR_STAT_ENTRY
  let s := endEntry (if s.get PWR_STAT_PEND = 0 then s else (s.put PWR_STAT_PEND 0).flag PWR_STAT_PEND_DROP true)
  if e = 3 then enterDeep s else if e = 4 then enterOff s else s

/-- The lowest source of a mask. -/
def firstOf (l : Nat) : Nat := ((List.range 8).find? (fun i => l.testBit i)).getD 0

/-- `TARGET_STATE_REACHED` (R665, R667): a level or latch that presents then starts the return at once. -/
def execTargetStateReached (t : Nat) (plan : BootPlan) (s : State) : Res :=
  let s := s.at t
  if s.get PWR_STAT_PHASE ≠ 2 then .next s
  else
    let s := reachTarget s
    let l := s.waking s.power.code
    if l = 0 then .next s else .next (returnFrom (firstOf l + 1) (s.unitOf (firstOf l)) plan s)

/-- A wake in an entry before its point of no return (R666): WAIT or the entry to IDLE is given up, DESCENT returns as from SLEEP. -/
def abortEntry (first unit : Nat) (s : State) : State :=
  if s.get PWR_STAT_PHASE ≠ 2 then abortWait s
  else if s.pastReturn then s
  else takePending (returnFromSleep first unit (s.flag PWR_STAT_ABORTED true))

/-- A wake of source bit `b` reaches the power controller (R658, R660, R666–R668). -/
def wakeNow (b unit : Nat) (p : BootPlan) (s : State) : State :=
  let e := s.get PWR_STAT_ENTRY
  if e ≠ 0 then (if (s.waking e).testBit b then abortEntry (b + 1) unit s else s)
  else if s.power = .idle then (if s.idleWakes.testBit b then endIdle s else s)
  else if (s.waking s.power.code).testBit b then returnFrom (b + 1) unit p s
  else s

/-- `WAKE` (R666, R668). -/
def execWake (src : WakeSrc) (t : Nat) (plan : BootPlan) (s : State) : Res :=
  .next (wakeNow (wakeBit src) (wakeUnit src) plan (s.at t))

/-- `ALARM` (R658): the time base has reached `PWR_ALARM`. -/
def execAlarm (t : Nat) (plan : BootPlan) (s : State) : Res :=
  let s := s.at t
  if s.alarmDue then .next (wakeNow 5 0 plan s) else .next s

end Sys2Proof.Machine
end

