-- ==== Sys2Proof/Machine/Flags.lean ====
section
/-!
DEFINITION. Sys2Proof/Machine/Flags.lean: what the data instructions of a core compute, with their flags, in the primary pass and in the
mirror pass (R136–R139, R144, R145, R154, R155). The mirror operation is written as R154 gives it, on complemented operands; its
result is the complement of the primary one, which the statements say.
-/
namespace Sys2Proof.Machine

/-- A result with the flags it sets: none where a flag is unchanged. -/
structure Alu where
  r : Word
  n : Bool
  z : Bool
  c : Option Bool := none
  v : Option Bool := none
deriving DecidableEq, Repr

/-- N and Z of a result, in true sense: in the mirror pass N is NOT result[31] and Z is 1 when the result is 0xFFFF_FFFF (R155). -/
def Alu.of (m : Bool) (r : Word) (c v : Option Bool) : Alu :=
  { r := r, n := r.getLsbD 31 != m, z := r == (if m then ~~~(0 : Word) else 0), c := c, v := v }

/-- The flags after an instruction. -/
def Alu.flags (x : Alu) (f : Flags) : Flags := { n := x.n, z := x.z, c := x.c.getD f.c, v := x.v.getD f.v }

/-! ### Adder (R145, R154) -/

/-- Sum, carry out and signed overflow of two words and a carry. -/
def addc (a b : Word) (cin : Bool) : Word × Bool × Bool :=
  let n := a.toNat + b.toNat + (if cin then 1 else 0)
  let r := BitVec.ofNat 32 n
  (r, decide (2 ^ 32 ≤ n), a.getLsbD 31 == b.getLsbD 31 && r.getLsbD 31 != a.getLsbD 31)

/-- An adder result with its flags; the carry of the mirror operation is complemented (R155). -/
def Alu.sum (m : Bool) (x : Word × Bool × Bool) : Alu := Alu.of m x.1 (some (x.2.1 != m)) (some x.2.2)

/-- The data operations with two word operands. `fl` is the flag C in true sense. -/
inductive Bin where
  | add | sub | adc | sbc | and | or | xor | andn | orn | xnor
deriving DecidableEq, Repr

/-- The logic operations. -/
def Bin.logic (op : Bin) (a b : Word) : Word :=
  match op with
  | .and => a &&& b
  | .or => a ||| b
  | .xor => a ^^^ b
  | .andn => a &&& ~~~b
  | .orn => a ||| ~~~b
  | .xnor => ~~~(a ^^^ b)
  | _ => 0

/-- The dual of a logic operation (R154). -/
def Bin.dual : Bin → Bin
  | .and => .or
  | .or => .and
  | .xor => .xnor
  | .xnor => .xor
  | .andn => .orn
  | .orn => .andn
  | op => op

/-- The primary operation. -/
def Bin.prim (op : Bin) (a b : Word) (c : Bool) : Alu :=
  match op with
  | .add => Alu.sum false (addc a b false)
  | .sub => Alu.sum false (addc a (~~~b) true)
  | .adc => Alu.sum false (addc a b c)
  | .sbc => Alu.sum false (addc a (~~~b) c)
  | op => Alu.of false (op.logic a b) none none

/-- The mirror operation: A + B + 1, A − B − 1, A + B + NOT C, A − B − C, and the dual logic operation. -/
def Bin.mirr (op : Bin) (a b : Word) (c : Bool) : Alu :=
  match op with
  | .add => Alu.sum true (addc a b true)
  | .sub => Alu.sum true (addc a (~~~b) false)
  | .adc => Alu.sum true (addc a b (!c))
  | .sbc => Alu.sum true (addc a (~~~b) (!c))
  | op => Alu.of true (op.dual.logic a b) none none

/-- An operation in the pass it runs in. -/
def Bin.run (op : Bin) (m : Bool) (a b : Word) (c : Bool) : Alu := if m then op.mirr a b c else op.prim a b c

/-! ### Shifts (R136) -/

/-- The shifts. -/
inductive Shift where
  | lsl | lsr | asr | ror
deriving DecidableEq, Repr

/-- A left shift by `k` that shifts `fill` in, with the last bit shifted out. -/
def shl (fill : Bool) (a : Word) (k : Nat) : Word × Bool :=
  (if fill then ~~~((~~~a) <<< k) else a <<< k, if k ≤ 32 then a.getLsbD (32 - k) else fill)

/-- A right shift by `k` that shifts `fill` in, with the last bit shifted out. -/
def shr (fill : Bool) (a : Word) (k : Nat) : Word × Bool :=
  (if fill then ~~~((~~~a) >>> k) else a >>> k, if k ≤ 32 then a.getLsbD (k - 1) else fill)

/-- Result and shifted-out bit; `m` shifts ones in (R154). -/
def Shift.raw (op : Shift) (m : Bool) (a : Word) (k : Nat) : Word × Bool :=
  match op with
  | .lsl => shl m a k
  | .lsr => shr m a k
  | .asr => (a.sshiftRight k, a.getLsbD (min (k - 1) 31))
  | .ror => (a.rotateRight (k % 32), (a.rotateRight (k % 32)).getLsbD 31)

/-- A shift by the true amount `k`, 0–255. -/
def Shift.run (op : Shift) (m : Bool) (a : Word) (k : Nat) : Alu :=
  if k = 0 then Alu.of m a none none
  else
    let x := op.raw m a k
    Alu.of m x.1 (some (x.2 != m)) none

/-! ### Products and quotients (R137, R145, R154) -/

/-- The multiplications. -/
inductive Mul where
  | lo | hs | hu
deriving DecidableEq, Repr

/-- The product part of two true operands. -/
def Mul.value (op : Mul) (a b : Word) : Word :=
  match op with
  | .lo => a * b
  | .hs => ((a.signExtend 64) * (b.signExtend 64)).extractLsb' 32 32
  | .hu => ((a.zeroExtend 64) * (b.zeroExtend 64)).extractLsb' 32 32

/-- A multiplication: the mirror pass multiplies the negated true operands, or takes the true operands swapped, and complements the
result. -/
def Mul.run (op : Mul) (m : Bool) (a b : Word) : Alu :=
  if m then
    match op with
    | .lo => Alu.of true (~~~((a + 1) * (b + 1))) none none
    | op => Alu.of true (~~~(op.value (~~~b) (~~~a))) none none
  else Alu.of false (op.value a b) none none

/-- The divisions. -/
inductive Div where
  | quoS | quoU | remS | remU
deriving DecidableEq, Repr

/-- Quotient or remainder of true operands, with V, at every value (R137). -/
def Div.value (op : Div) (a b : Word) : Word × Bool :=
  let wraps := a == 0x80000000 && b == 0xFFFFFFFF
  match op with
  | .quoU => if b = 0 then (0xFFFFFFFF, true) else (a / b, false)
  | .remU => if b = 0 then (a, true) else (a % b, false)
  | .quoS => if b = 0 then (0xFFFFFFFF, true) else if wraps then (0x80000000, true) else (a.sdiv b, false)
  | .remS => if b = 0 then (a, true) else if wraps then (0, true) else (a.srem b, false)

/-- A division. -/
def Div.run (op : Div) (m : Bool) (a b : Word) : Alu :=
  let x := if m then op.value (~~~a) (~~~b) else op.value a b
  Alu.of m (if m then ~~~x.1 else x.1) none (some x.2)

/-! ### Bits, fields and bytes (R138, R139) -/

/-- Leading zeros of a word, 0–32. -/
def clz (a : Word) : Nat := ((List.range 32).find? (fun i => a.getLsbD (31 - i))).getD 32

/-- `CLZ`: the mirror pass counts leading ones and complements the count. -/
def clzRun (m : Bool) (a : Word) : Alu :=
  Alu.of m (if m then ~~~(BitVec.ofNat 32 (clz (~~~a))) else BitVec.ofNat 32 (clz a)) none none

/-- A word of `w` ones at the bottom. -/
def onesLow (w : Nat) : Word := ~~~((~~~(0 : Word)) <<< w)

/-- `BFX`: the field, extended with zeros, with ones in the mirror pass. -/
def bfxRun (m : Bool) (a : Word) (pos w : Nat) : Alu :=
  let x := (a >>> pos) &&& onesLow w
  Alu.of m (if m then x ||| ~~~(onesLow w) else x) none none

/-- `BFXS`: the field, sign-extended. -/
def bfxsRun (m : Bool) (a : Word) (pos w : Nat) : Alu :=
  let x := (a >>> pos) &&& onesLow w
  Alu.of m (if a.getLsbD (pos + w - 1) then x ||| ~~~(onesLow w) else x) none none

/-- `BFI`: the low bits of `a` in place of the field of `d`. -/
def bfiRun (m : Bool) (d a : Word) (pos w : Nat) : Alu :=
  let k := onesLow w <<< pos
  Alu.of m ((d &&& ~~~k) ||| ((a <<< pos) &&& k)) none none

/-- Byte `i` of a word. -/
def wbyte (a : Word) (i : Nat) : BitVec 8 := a.extractLsb' (8 * i) 8

/-- The byte a selector nibble names (R139); 0x8 and 0x9 change places in the mirror pass (R154). -/
def permByte (m : Bool) (d a : Word) (n : Nat) : BitVec 8 :=
  if n < 4 then wbyte a n
  else if n < 8 then wbyte d (n - 4)
  else if n = 8 then (if m then 0xFF else 0)
  else if n = 9 then (if m then 0 else 0xFF)
  else if (wbyte a (n - 10)).getLsbD 7 then 0xFF else 0

/-- `PERM`. -/
def permRun (m : Bool) (d a : Word) (sel : BitVec 16) : Alu :=
  let b (k : Nat) := permByte m d a (sel.extractLsb' (4 * k) 4).toNat
  Alu.of m (b 3 ++ b 2 ++ b 1 ++ b 0) none none

/-- The selector names a byte in each nibble (R139). -/
def permOk (sel : BitVec 16) : Bool :=
  (List.range 4).all (fun k => decide ((sel.extractLsb' (4 * k) 4).toNat < 14))

/-! ### Conditions (R144) -/

/-- The condition holds. Code 15 is no condition. -/
def Flags.holds (f : Flags) (cond : Nat) : Bool :=
  match cond with
  | 0 => f.z
  | 1 => !f.z
  | 2 => f.c
  | 3 => !f.c
  | 4 => f.n
  | 5 => !f.n
  | 6 => f.v
  | 7 => !f.v
  | 8 => f.c && !f.z
  | 9 => !f.c || f.z
  | 10 => f.n == f.v
  | 11 => f.n != f.v
  | 12 => !f.z && f.n == f.v
  | 13 => f.z || f.n != f.v
  | _ => true

end Sys2Proof.Machine
end

