-- ==== Sys2Proof/Machine/Operands.lean ====
section
/-!
DEFINITION. Sys2Proof/Machine/Operands.lean: what every instruction of a core goes through: the bank in use (R119), `g0` (R120), value
and steering operands in the mirror pass (R153, R154), the fetch check (R126), protection (R125–R127), exceptions (R128–R130), hardware
loops at the end of an instruction (R146), taken branches (R150), and the cycles it takes (R159).
-/
namespace Sys2Proof.Machine

/-! ### The core and its bank -/

/-- The core runs a T-mode pass. -/
def State.tMode (s : State) (c : Nat) : Bool := (s.core c).pass.isSome

/-- The running pass is a mirror pass. -/
def State.mirror (s : State) (c : Nat) : Bool := (s.core c).pass.any (fun p => p.mirror)

/-- The bank in use. -/
def State.bank (s : State) (c : Nat) : Bank := if s.tMode c then (s.core c).tBank else (s.core c).sBank

/-- Writes the bank in use. -/
def State.setBank (s : State) (c : Nat) (b : Bank) : State :=
  s.setCore c (if s.tMode c then { s.core c with tBank := b } else { s.core c with sBank := b })

/-- The program counter of the bank in use. -/
def State.pc (s : State) (c : Nat) : Word := if s.tMode c then (s.core c).tPc else (s.core c).sPc

/-- Writes the program counter in use. -/
def State.setPc (s : State) (c : Nat) (a : Word) : State :=
  s.setCore c (if s.tMode c then { s.core c with tPc := a } else { s.core c with sPc := a })

/-- A general register as it holds its value: `g0` is zero, complemented in the mirror pass (R120). -/
def State.reg (s : State) (c r : Nat) : Word :=
  if r = 0 then (if s.mirror c then ~~~(0 : Word) else 0) else tget 0 (s.bank c).g r

/-- Writes a general register; a write to `g0` is discarded. -/
def State.setReg (s : State) (c r : Nat) (w : Word) : State :=
  if r = 0 then s else s.setBank c { s.bank c with g := tset 0 (s.bank c).g r w }

/-- The true value of a word a pass holds, and the word a pass holds of a true value (R153, R154). -/
def State.sense (s : State) (c : Nat) (w : Word) : Word := if s.mirror c then ~~~w else w

/-- A steering operand: the true value of a register. -/
def State.steer (s : State) (c r : Nat) : Word := s.sense c (s.reg c r)

/-- Takes the result and the flags of a data instruction. -/
def State.result (s : State) (c gd : Nat) (x : Alu) : State :=
  (s.setBank c { s.bank c with fl := x.flags (s.bank c).fl }).setReg c gd x.r

/-! ### When a core runs (R121, R160) -/

/-- The phase of the frame, under a halt the one it interrupted. -/
def State.phase (s : State) : Nat :=
  if s.get FRAME_STAT_PHASE = 5 then s.frame.haltPhase else s.get FRAME_STAT_PHASE

/-- S-mode code may run: before `RUN`, in the maintenance slice, and while frames are stopped. -/
def State.sAllowed (s : State) : Bool := !s.on FRAME_CTL_RUN || s.phase == 4 || s.phase == 6

/-- The core executes its next instruction. -/
def State.coreRuns (s : State) (c : Nat) : Bool :=
  let k := s.core c
  s.clocks && !s.fenced (1 + c) && !k.stopped && !k.halted && !k.clockOff &&
    (k.pass.isSome || (s.sAllowed && !(k.waiting && k.ipend == 0)))

/-! ### Exceptions (R128–R130) -/

/-- An exception: its cause, `INFO` where the cause has one, the faulting address or target where there is one, the source that
reports beside it. -/
structure Exc where
  cause : Nat
  info : Option Nat := none
  addr : Option Word := none
  src : Option Nat := none
deriving DecidableEq, Repr

/-- The cause word: where the cause names no `INFO`, that field is a free value. -/
def causeWord (x : Exc) (mp : Bool) (s : State) : Word :=
  BitVec.ofNat 32 (x.info.getD (s.free 16) % 2 ^ 16 * 2 ^ 16 + (if mp then 16 else 0) + x.cause)

/-- The faulting address: a free value where the cause has none. -/
def faultAddr (x : Exc) (s : State) : Word := x.addr.getD (BitVec.ofNat 32 (s.draw.free 32))

/-- `PSR` of S mode. -/
def Core.psr (k : Core) : Word :=
  BitVec.ofNat 32 ((if k.mpuen then 128 else 0) + (if k.exl then 64 else 0) + (if k.ie then 32 else 0))

/-- Writes `PSR` of S mode. -/
def Core.setPsr (k : Core) (w : Word) : Core := { k with mpuen := w.getLsbD 7, exl := w.getLsbD 6, ie := w.getLsbD 5 }

/-- The entry of an exception or interrupt in S mode: `EPC`, `EPSR`, `EXL`, `IE`, and the handler. -/
def Core.enter (k : Core) (ofs : Word) : Core :=
  { k with epc := k.sPc, epsr := k.psr, exl := true, ie := false, sPc := k.svec + ofs }

/-- An exception in S mode (R130). With `EXL` set the core stops and reports. -/
def sExcept (c : Nat) (x : Exc) (s : State) : State :=
  let k := s.core c
  if k.exl then report (64 + c) (s.setCore c { k with stopped := true })
  else
    let k := { k.enter 0 with ecause := causeWord x false s, eaddr := faultAddr x s }
    (s.setCore c k).draw.draw

/-- An exception in a pass (R129): it ends the pass, and source 49 reports a full `AGREE` log (R96). -/
def tExcept (c : Nat) (x : Exc) (s : State) : State :=
  let k := s.core c
  let k := { k with tcause := causeWord x (s.mirror c) s, tepc := k.tPc, teaddr := faultAddr x s }
  let s := (s.setCore c k).draw.draw
  let s := if x.cause = 8 then coreReport 49 c s else s
  breakPass c .exception s

/-- Takes an exception: the source it names reports with `TCAUSE` or 0 as its detail. -/
def takeExc (c : Nat) (x : Exc) (s : State) : State :=
  let t := s.tMode c
  let s := if t then tExcept c x s else sExcept c x s
  match x.src with
  | some n => reportFull n 0 (if t then (s.core c).tcause.toNat else 0) false s
  | none => s

/-! ### The memory map (R29–R39) -/

/-- The regions a core addresses. -/
inductive Region where
  | rom | local | shared | cov | flash | journal | closed | periph | kmb | none
deriving DecidableEq, Repr

/-- The region of an address; `closed` is the part of MRAM that no core reaches (R39). -/
def regionOf (a : Nat) : Region :=
  if a < 0x00100000 then .rom
  else if 0x10000000 ≤ a ∧ a < 0x10100000 then .local
  else if inShared a then .shared
  else if 0x30000000 ≤ a ∧ a < 0x30800000 then .cov
  else if 0x40000000 ≤ a ∧ a < 0x44000000 then .flash
  else if 0x50000000 ≤ a ∧ a < 0x50300000 then .journal
  else if 0x50300000 ≤ a ∧ a < 0x50400000 then .closed
  else if 0x60000000 ≤ a ∧ a < 0x60180000 then .periph
  else if 0x70000000 ≤ a ∧ a < 0x70001000 then .kmb
  else .none

/-- A register: the peripheral region and the keeper mailbox, which take only aligned words (R14, R34). -/
def Region.isReg (r : Region) : Bool := r == .periph || r == .kmb

/-- Where the bytes of an address lie: a mapped flash segment is read from its bank (R613). -/
def State.cellKey (s : State) (c a : Nat) : Nat :=
  match s.sub.maps.find? (fun m => m.2.any (fun p => p.1 == a / 65536)) with
  | some (_, some p) => bankAddr p.2 + a % 65536
  | _ => memKey c a

/-- The source of a double-bit error at a key (R159, R161). -/
def dedSource (key : Nat) : Nat :=
  if 2 ^ 32 ≤ key then 76 + (key / 2 ^ 32 - 1) else if inShared key then 80 else 81

/-- A double-bit error in the word that holds a byte (R32): BUSERR with `INFO` 5. -/
def State.dedAt (s : State) (key : Nat) (a : Word) : Option Exc :=
  if s.ded.contains (key / 8 * 8) then some { cause := 6, info := some 5, addr := some a, src := some (dedSource key) } else none

/-- A bus error with a sub-cause. -/
def busErr (n : Nat) (a : Word) : Exc := { cause := 6, info := some n, addr := some a }

/-! ### Memory protection (R125–R127) -/

/-- The attributes that decide an address: those of the highest-numbered region that matches, or none. -/
def Core.mpuOf (k : Core) (a : Word) : Option Word :=
  ((List.range 16).reverse.find? (fun i =>
      (tget 0 k.mpuAttr i).getLsbD 6 && decide (tget 0 k.mpuBase i / 32 * 32 ≤ a) && decide (a ≤ (tget 0 k.mpuLim i ||| 31)))).map
    (fun i => tget 0 k.mpuAttr i)

/-- Permission bit `b` for an address. -/
def Core.mpuBit (k : Core) (a : Word) (b : Nat) : Bool := (k.mpuOf a).any (fun w => w.getLsbD b)

/-! ### Fetch (R122, R126, R143) -/

/-- A fetch at `a` raises FETCH (3), ALIGN (5) or BUSERR (6). -/
def State.fetchExc (s : State) (c : Nat) (a : Word) : Option Exc :=
  let r := regionOf a.toNat
  if s.tMode c && (r == .rom || !(s.core c).mpuBit a 5) then some { cause := 3, addr := some a }
  else if a % 4 ≠ 0 then some { cause := 5, addr := some a }
  else if r = .none then some (busErr 2 a)
  else if r = .closed then some { cause := 6, addr := some a }
  else s.dedAt (s.cellKey c a.toNat) a

/-! ### The end of an instruction -/

/-- Adds to the count of cycles of the core and of its pass (R158, R159): the issue cost, and further cycles that no rule counts. -/
def spend (c n : Nat) (s : State) : State :=
  let k := s.core c
  let n := n + Config.stall s.drawn
  s.draw.setCore c { k with cycle := (k.cycle + n) % 2 ^ 64, pass := k.pass.map (fun p => { p with cycles := p.cycles + n }) }

/-- Counts an instruction as retired; in REPLAY the mirror pass takes the writes due at its count (R113). -/
def retired (c : Nat) (s : State) : State :=
  let k := s.core c
  deliver c (s.setCore c { k with pass := k.pass.map (fun p => { p with retired := p.retired + 1 }) })

/-- The loop levels after an instruction at `a` (R146), from level `n - 1` down: the bank, and where execution continues. -/
def loopBack (a : Word) : Nat → Bank → Bank × Word
  | 0, b => (b, a + 4)
  | n + 1, b =>
    let k := tget 0 b.lc n
    if k ≠ 0 ∧ tget 0 b.le n = a then
      if k = 1 then loopBack a n { b with lc := tset 0 b.lc n 0 }
      else ({ b with lc := tset 0 b.lc n (k - 1) }, tget 0 b.ls n)
    else loopBack a n b

/-- The instruction retires without a taken branch: the loops (R146), the cycles, the count. -/
def advance (c n : Nat) (s : State) : State :=
  let x := loopBack (s.pc c) 3 (s.bank c)
  retired c (spend c n ((s.setBank c x.1).setPc c x.2))

/-- A level is active. -/
def Bank.active (b : Bank) (n : Nat) : Bool := tget 0 b.lc n != 0

/-- The loop levels after a taken branch (R150): the outermost active level whose body does not hold the target ends, with every
active level inside it. -/
def Bank.leave (b : Bank) (a : Word) : Bank :=
  match (List.range 3).find? (fun n => b.active n && (decide (a < tget 0 b.ls n) || decide (tget 0 b.le n < a))) with
  | some n => { b with lc := Tab.keep (fun i => decide (i < n)) b.lc }
  | none => b

/-- A taken branch to `a`; at the pass-end gate the pass ends (R75, R122). -/
def branchTo (c n : Nat) (a : Word) (s : State) : State :=
  let s := s.setBank c ((s.bank c).leave a)
  let s := retired c (spend c n (s.setPc c a))
  if s.tMode c && a == passGate then endPass c s else s

/-- The instruction is the last of an active level's body (R149). -/
def State.atLoopEnd (s : State) (c : Nat) : Bool :=
  (List.range 3).any (fun n => (s.bank c).active n && tget 0 (s.bank c).le n == s.pc c)

/-- Runs one instruction of a core (R128): the fetch is checked, then the instruction's own exceptions, then it takes effect. A core that
does not run changes nothing. -/
def xob (c : Nat) (chk : State → Option Exc) (eff : State → State) (s : State) : Res :=
  if s.coreRuns c then
    let s := s.setCore c { s.core c with waiting := (s.core c).waiting && s.tMode c }
    match s.fetchExc c (s.pc c) with
    | some x => .next (takeExc c x s)
    | none =>
      match chk s with
      | some x => .next (takeExc c x s)
      | none => .next (eff s)
  else .next s

/-- An instruction that raises no exception of its own. -/
def noExc (_ : State) : Option Exc := none

/-- UNDEF, PRIV and LOOP. -/
def undefExc : Exc := { cause := 1 }
def privExc : Exc := { cause := 2 }
def loopExc : Exc := { cause := 7 }

/-- An exception where a test holds, else what follows. -/
def excIf (b : Bool) (x : Exc) (next : Option Exc) : Option Exc := if b then some x else next

/-- A data instruction: its result and flags, one cycle or more. -/
def dataOp (c gd n : Nat) (f : State → Alu) (s : State) : Res :=
  xob c noExc (fun s => advance c n (s.result c gd (f s))) s

end Sys2Proof.Machine
end

