-- ==== Sys2Proof/Machine/XobAlu.lean ====
section
/-!
DEFINITION. Sys2Proof/Machine/XobAlu.lean: the data instructions of a core (R135–R139, R145, R153, R154): one definition for each, over the
operations of Flags.lean. Immediates that enter the datapath are extended, then complemented in the mirror pass (R153).
-/
namespace Sys2Proof.Machine

/-- A three-register operation. -/
def binOp (op : Bin) (c gd ga gb : Nat) (s : State) : Res :=
  dataOp c gd 1 (fun s => op.run (s.mirror c) (s.reg c ga) (s.reg c gb) (s.bank c).fl.c) s

/-- A sign-extended and a zero-extended immediate. -/
def signImm (imm : BitVec 16) : Word := imm.signExtend 32
def zeroImm (imm : BitVec 16) : Word := imm.zeroExtend 32

/-- An operation with an immediate. -/
def immOp (op : Bin) (c gd ga : Nat) (imm : Word) (s : State) : Res :=
  dataOp c gd 1 (fun s => op.run (s.mirror c) (s.reg c ga) (s.sense c imm) (s.bank c).fl.c) s

/-- A shift by `gb`[7:0], a steering operand, and a shift by an encoded amount. -/
def shiftOp (op : Shift) (c gd ga gb : Nat) (s : State) : Res :=
  dataOp c gd 1 (fun s => op.run (s.mirror c) (s.reg c ga) ((s.steer c gb).toNat % 256)) s
def shiftImm (op : Shift) (c gd ga sh : Nat) (s : State) : Res :=
  dataOp c gd 1 (fun s => op.run (s.mirror c) (s.reg c ga) sh) s

/-- A multiplication. -/
def mulOp (op : Mul) (c gd ga gb : Nat) (s : State) : Res :=
  dataOp c gd 1 (fun s => op.run (s.mirror c) (s.reg c ga) (s.reg c gb)) s

/-- A division (R137, R157): a failed residue check raises DPCHECK and reports source 72 + n. -/
def divOp (op : Div) (c gd ga gb : Nat) (chk : Bool) (s : State) : Res :=
  xob c (fun _ => excIf (!chk) { cause := 10, src := some (72 + c) } none)
    (fun s => advance c 18 (s.result c gd (op.run (s.mirror c) (s.reg c ga) (s.reg c gb)))) s

/-- A bit-field instruction (R138): the width is the encoded one plus 1, and the field must lie in the word. -/
def fieldOp (c gd pos w1 : Nat) (f : State → Nat → Alu) (s : State) : Res :=
  xob c (fun _ => excIf (decide (32 < pos + w1 + 1)) undefExc none) (fun s => advance c 1 (s.result c gd (f s (w1 + 1)))) s

/-- `ADD` (R135, R145). -/
def execAdd (core : Fin 4) (gd ga gb : Fin 32) (s : State) : Res :=
  binOp .add core gd ga gb s
/-- `SUB` (R135, R145). -/
def execSub (core : Fin 4) (gd ga gb : Fin 32) (s : State) : Res :=
  binOp .sub core gd ga gb s
/-- `ADC` (R135, R145). -/
def execAdc (core : Fin 4) (gd ga gb : Fin 32) (s : State) : Res :=
  binOp .adc core gd ga gb s
/-- `SBC` (R135, R145). -/
def execSbc (core : Fin 4) (gd ga gb : Fin 32) (s : State) : Res :=
  binOp .sbc core gd ga gb s
/-- `AND` (R135, R145). -/
def execAndR (core : Fin 4) (gd ga gb : Fin 32) (s : State) : Res :=
  binOp .and core gd ga gb s
/-- `OR` (R135, R145). -/
def execOrR (core : Fin 4) (gd ga gb : Fin 32) (s : State) : Res :=
  binOp .or core gd ga gb s
/-- `XOR` (R135, R145). -/
def execXorR (core : Fin 4) (gd ga gb : Fin 32) (s : State) : Res :=
  binOp .xor core gd ga gb s
/-- `ANDN` (R135, R145). -/
def execAndn (core : Fin 4) (gd ga gb : Fin 32) (s : State) : Res :=
  binOp .andn core gd ga gb s
/-- `ORN` (R135, R145). -/
def execOrn (core : Fin 4) (gd ga gb : Fin 32) (s : State) : Res :=
  binOp .orn core gd ga gb s
/-- `XNOR` (R135, R145). -/
def execXnor (core : Fin 4) (gd ga gb : Fin 32) (s : State) : Res :=
  binOp .xnor core gd ga gb s
/-- `CMP` (R135, R145). -/
def execCmp (core : Fin 4) (ga gb : Fin 32) (s : State) : Res :=
  binOp .sub core 0 ga gb s
/-- `TST` (R135, R145). -/
def execTst (core : Fin 4) (ga gb : Fin 32) (s : State) : Res :=
  binOp .and core 0 ga gb s
/-- `LSL` (R136). -/
def execLsl (core : Fin 4) (gd ga gb : Fin 32) (s : State) : Res :=
  shiftOp .lsl core gd ga gb s
/-- `LSR` (R136). -/
def execLsr (core : Fin 4) (gd ga gb : Fin 32) (s : State) : Res :=
  shiftOp .lsr core gd ga gb s
/-- `ASR` (R136). -/
def execAsr (core : Fin 4) (gd ga gb : Fin 32) (s : State) : Res :=
  shiftOp .asr core gd ga gb s
/-- `ROR` (R136). -/
def execRor (core : Fin 4) (gd ga gb : Fin 32) (s : State) : Res :=
  shiftOp .ror core gd ga gb s
/-- `LSLI` (R136). -/
def execLsli (core : Fin 4) (gd ga : Fin 32) (sh : Fin 32) (s : State) : Res :=
  shiftImm .lsl core gd ga sh s
/-- `LSRI` (R136). -/
def execLsri (core : Fin 4) (gd ga : Fin 32) (sh : Fin 32) (s : State) : Res :=
  shiftImm .lsr core gd ga sh s
/-- `ASRI` (R136). -/
def execAsri (core : Fin 4) (gd ga : Fin 32) (sh : Fin 32) (s : State) : Res :=
  shiftImm .asr core gd ga sh s
/-- `RORI` (R136). -/
def execRori (core : Fin 4) (gd ga : Fin 32) (sh : Fin 32) (s : State) : Res :=
  shiftImm .ror core gd ga sh s
/-- `MUL` (R135, R154). -/
def execMul (core : Fin 4) (gd ga gb : Fin 32) (s : State) : Res :=
  mulOp .lo core gd ga gb s
/-- `MULHS` (R135, R154). -/
def execMulhs (core : Fin 4) (gd ga gb : Fin 32) (s : State) : Res :=
  mulOp .hs core gd ga gb s
/-- `MULHU` (R135, R154). -/
def execMulhu (core : Fin 4) (gd ga gb : Fin 32) (s : State) : Res :=
  mulOp .hu core gd ga gb s
/-- `DIVS` (R137, R157). -/
def execDivs (core : Fin 4) (gd ga gb : Fin 32) (chk : Bool) (s : State) : Res :=
  divOp .quoS core gd ga gb chk s
/-- `DIVU` (R137, R157). -/
def execDivu (core : Fin 4) (gd ga gb : Fin 32) (chk : Bool) (s : State) : Res :=
  divOp .quoU core gd ga gb chk s
/-- `REMS` (R137, R157). -/
def execRems (core : Fin 4) (gd ga gb : Fin 32) (chk : Bool) (s : State) : Res :=
  divOp .remS core gd ga gb chk s
/-- `REMU` (R137, R157). -/
def execRemu (core : Fin 4) (gd ga gb : Fin 32) (chk : Bool) (s : State) : Res :=
  divOp .remU core gd ga gb chk s
/-- `ADDI` (R145, R153). -/
def execAddi (core : Fin 4) (gd ga : Fin 32) (imm : BitVec 16) (s : State) : Res :=
  immOp .add core gd ga (signImm imm) s
/-- `XORI` (R145, R153). -/
def execXori (core : Fin 4) (gd ga : Fin 32) (imm : BitVec 16) (s : State) : Res :=
  immOp .xor core gd ga (zeroImm imm) s
/-- `ANDI` (R145, R153). -/
def execAndi (core : Fin 4) (gd ga : Fin 32) (imm : BitVec 16) (s : State) : Res :=
  immOp .and core gd ga (zeroImm imm) s
/-- `ORI` (R145, R153). -/
def execOri (core : Fin 4) (gd ga : Fin 32) (imm : BitVec 16) (s : State) : Res :=
  immOp .or core gd ga (zeroImm imm) s
/-- `CMPI` (R145, R153). -/
def execCmpi (core : Fin 4) (ga : Fin 32) (imm : BitVec 16) (s : State) : Res :=
  immOp .sub core 0 ga (signImm imm) s
/-- `TSTI` (R145, R153). -/
def execTsti (core : Fin 4) (ga : Fin 32) (imm : BitVec 16) (s : State) : Res :=
  immOp .and core 0 ga (zeroImm imm) s
/-- `MOVHI` (R145, R154). -/
def execMovhi (core : Fin 4) (gd : Fin 32) (imm : BitVec 16) (s : State) : Res :=
  dataOp core gd 1 (fun s => Alu.of (s.mirror core) (s.sense core (imm ++ (0 : BitVec 16))) none none) s
/-- `CLZ` (R145, R154). -/
def execClz (core : Fin 4) (gd ga : Fin 32) (s : State) : Res :=
  dataOp core gd 1 (fun s => clzRun (s.mirror core) (s.reg core ga)) s
/-- `BFX` (R138). -/
def execBfx (core : Fin 4) (gd ga : Fin 32) (pos : Fin 32) (w1 : Fin 32) (s : State) : Res :=
  fieldOp core gd pos w1 (fun s w => bfxRun (s.mirror core) (s.reg core ga) pos w) s
/-- `BFXS` (R138). -/
def execBfxs (core : Fin 4) (gd ga : Fin 32) (pos : Fin 32) (w1 : Fin 32) (s : State) : Res :=
  fieldOp core gd pos w1 (fun s w => bfxsRun (s.mirror core) (s.reg core ga) pos w) s
/-- `BFI` (R138). -/
def execBfi (core : Fin 4) (gd ga : Fin 32) (pos : Fin 32) (w1 : Fin 32) (s : State) : Res :=
  fieldOp core gd pos w1 (fun s w => bfiRun (s.mirror core) (s.reg core gd) (s.reg core ga) pos w) s
/-- `PERM` (R139). -/
def execPerm (core : Fin 4) (gd ga : Fin 32) (sl : BitVec 16) (s : State) : Res :=
  xob core (fun _ => excIf (!permOk sl) undefExc none)
    (fun s => advance core 1 (s.result core gd (permRun (s.mirror core) (s.reg core gd) (s.reg core ga) sl))) s
/-- `SEL` (R144): code 15 is no condition; no flag changes. -/
def execSel (core : Fin 4) (gd ga gb : Fin 32) (cond : Fin 16) (s : State) : Res :=
  xob core (fun _ => excIf (cond == 15) undefExc none)
    (fun s => advance core 1
      (s.setReg core gd (if (s.bank core).fl.holds cond then s.reg core ga else s.reg core gb))) s

end Sys2Proof.Machine
end

