-- ==== Sys2Proof/Machine/XobFlow.lean ====
section
/-!
DEFINITION. Sys2Proof/Machine/XobFlow.lean: branches, jumps and hardware loops (R143, R144, R146–R150).
-/
namespace Sys2Proof.Machine

/-- The target of a displacement, in words from the program counter. -/
def dispTo (pc : Word) (d : Word) : Word := pc + d * 4

/-- `B` (R144): code 15 is no condition; LOOP at the end of an active loop (R149). -/
def execBr (core : Fin 4) (cond : Fin 16) (disp : BitVec 22) (s : State) : Res :=
  xob core (fun s => excIf (cond == 15) undefExc (excIf (s.atLoopEnd core) loopExc none))
    (fun s =>
      if (s.bank core).fl.holds cond then branchTo core 2 (dispTo (s.pc core) (disp.signExtend 32)) s
      else advance core 1 s) s

/-- `BL`: `g31` takes the link, as the pass holds it. -/
def execBl (core : Fin 4) (disp : BitVec 26) (s : State) : Res :=
  xob core (fun s => excIf (s.atLoopEnd core) loopExc none)
    (fun s =>
      let a := dispTo (s.pc core) (disp.signExtend 32)
      branchTo core 2 a (s.setReg core 31 (s.sense core (s.pc core + 4)))) s

/-- LOOP, then ALIGN, of a jump to a register (R143, R149). -/
def State.jumpExc (s : State) (c ga : Nat) : Option Exc :=
  excIf (s.atLoopEnd c) loopExc (excIf ((s.steer c ga) % 4 != 0) { cause := 5, addr := some (s.steer c ga) } none)

/-- `JR` (R75, R143). -/
def execJr (core : Fin 4) (ga : Fin 32) (s : State) : Res :=
  xob core (fun s => s.jumpExc core ga) (fun s => branchTo core 3 (s.steer core ga) s) s

/-- `JALR` (R143). -/
def execJalr (core : Fin 4) (gd ga : Fin 32) (s : State) : Res :=
  xob core (fun s => s.jumpExc core ga)
    (fun s => branchTo core 3 (s.steer core ga) (s.setReg core gd (s.sense core (s.pc core + 4)))) s

/-! ### Loops -/

/-- The new body lies inside the body of every active lower level, and no level from `n` on is active (R148). -/
def Bank.loopFits (b : Bank) (n : Nat) (first last : Word) : Bool :=
  (List.range 3).all (fun i =>
    if i < n then !b.active i || (decide (tget 0 b.ls i ≤ first) && decide (last ≤ tget 0 b.le i)) else !b.active i)

/-- Sets up a loop at level `n` (R146). -/
def Bank.setLoop (b : Bank) (n : Nat) (first last cnt : Word) : Bank :=
  { b with ls := tset 0 b.ls n first, le := tset 0 b.le n last, lc := tset 0 b.lc n cnt }

/-- The exceptions of `LOOP` and `LOOPI`. -/
def State.loopExcs (s : State) (c lvl : Nat) (bad : Bool) (ofs : Word) : Option Exc :=
  let pc := s.pc c
  excIf (bad || ofs == 0 || lvl == 3) undefExc
    (excIf (s.atLoopEnd c || !(s.bank c).loopFits lvl (pc + 4) (dispTo pc ofs)) loopExc none)

/-- A count of 0 sets up nothing and continues behind the body (R147). -/
def loopStart (c lvl : Nat) (cnt ofs : Word) (s : State) : State :=
  let pc := s.pc c
  let last := dispTo pc ofs
  if cnt = 0 then retired c (spend c 1 (s.setPc c (last + 4)))
  else advance c 1 (s.setBank c ((s.bank c).setLoop lvl (pc + 4) last cnt))

/-- `LOOP` (R147, R148): the count is a steering operand. -/
def execLoopR (core : Fin 4) (lvl : Fin 4) (ga : Fin 32) (off : BitVec 19) (s : State) : Res :=
  xob core (fun s => s.loopExcs core lvl false (off.zeroExtend 32))
    (fun s => loopStart core lvl (s.steer core ga) (off.zeroExtend 32) s) s

/-- `LOOPI` (R147, R148). -/
def execLoopi (core : Fin 4) (lvl : Fin 4) (cnt off : BitVec 12) (s : State) : Res :=
  xob core (fun s => s.loopExcs core lvl (cnt == 0) (off.zeroExtend 32))
    (fun s => loopStart core lvl (cnt.zeroExtend 32) (off.zeroExtend 32) s) s

end Sys2Proof.Machine
end

