-- ==== Sys2Proof/Machine/XobMem.lean ====
section
/-!
DEFINITION. Sys2Proof/Machine/XobMem.lean: loads, stores and `AGREE` (R77–R82, R86, R94–R97, R140–R142, R154, R156): relocation in a pass,
captured stores, the lanes of the comparator; the memory map as S mode sees it (R29–R39, R79, R338).
-/
namespace Sys2Proof.Machine

/-! ### Where an access goes -/

/-- Where an access lands: memory, with data complemented on a load or not; a register, read or written at once; a commit entry; nowhere
that R77 permits. -/
inductive Place where
  | cell (key : Nat) (flip : Bool)
  | reg
  | capture
  | refused
deriving DecidableEq, Repr

/-- An address lies in a window. -/
def inWin (a base len : Nat) : Bool := decide (base ≤ a) && decide (a < base + len)

/-- The table of R77 for a pass of task `i` on core `c`. -/
def State.passPlace (s : State) (c i : Nat) (m store : Bool) (a : Nat) : Place :=
  let x := s.task i
  let snap := 65536 * s.get FRAME_SNAP_BASE_BASE
  let r := regionOf a
  if inWin a x.stTrue x.stLen then .cell (memKey c ((if m then x.stMirr else x.stTrue) + x.workOfs + (a - x.stTrue))) false
  else if inWin a x.wkTrue x.wkLen then .cell (memKey c ((if m then x.wkMirr else x.wkTrue) + (a - x.wkTrue))) false
  else if inWin a snap 0x20000 then .cell (if m then a + 0x20000 else a) false
  else if inWin a x.pubBase x.pubLen then (if store then .capture else .cell a m)
  else if r.isReg then (if store then .capture else .refused)
  else if (r == .flash || r == .rom) && !store then .cell (s.cellKey c a) m
  else .refused

/-- Where an access of core `c` lands: by R77 in a pass, at the address itself in S mode. -/
def State.place (s : State) (c : Nat) (store : Bool) (a : Nat) : Place :=
  match (s.core c).pass with
  | some p => s.passPlace c p.task p.mirror store a
  | none => if (regionOf a).isReg then .reg else .cell (s.cellKey c a) false

/-- A block that only the commit reaches while `RUN` is 1 (R79). -/
def commitOnly (a : Nat) : Bool := [0x6005, 0x6006, 0x6007, 0x6008, 0x6009, 0x600B].contains (a / 0x10000)

/-- Bus errors of the memory map (R29–R39, R79, R338). -/
def State.mapExc (s : State) (store : Bool) (a : Word) : Option Exc :=
  match regionOf a.toNat with
  | .none => some (busErr 2 a)
  | .rom => if store then some (busErr 3 a) else none
  | .flash => if store then some (busErr 3 a) else none
  | .journal => if store then some (busErr 3 a) else none
  | .closed => if store then some (busErr 3 a) else some { cause := 6, addr := some a }
  | .cov => if store then some (busErr 4 a) else none
  | .periph => if store && commitOnly a.toNat && s.on FRAME_CTL_RUN then some (busErr 4 a) else none
  | _ => none

/-- ALIGN (R140): the peripheral region and the mailbox raise BUSERR instead (R14). -/
def alignExc (a : Word) (size : Nat) : Option Exc :=
  if a.toNat % size ≠ 0 ∧ (regionOf a.toNat).isReg = false then some { cause := 5, addr := some a } else none

/-- The size rule of registers and of captured stores (R14, R34, R141). -/
def sizeExc (captured : Bool) (a : Word) (size : Nat) : Option Exc :=
  if (captured || (regionOf a.toNat).isReg) && (size != 4 || a.toNat % 4 != 0) then some (busErr 1 a) else none

/-- PROT (R126, R127): the MPU, and in a pass R77. -/
def State.protExc (s : State) (c : Nat) (store : Bool) (p : Place) (a : Word) : Option Exc :=
  let k := s.core c
  let bad :=
    if k.pass.isSome then p == .refused || !k.mpuBit a (if store then 4 else 3)
    else k.mpuen && !k.mpuBit a (if store then 1 else 0)
  if bad then some { cause := 4, addr := some a } else none

/-- A double-bit error where a load lands (R32). -/
def State.loadDed (s : State) (p : Place) (a : Word) : Option Exc :=
  match p with
  | .cell key _ => s.dedAt key a
  | _ => none

/-- The exceptions of a load or store, in the order of R128. -/
def State.accessExc (s : State) (c : Nat) (store : Bool) (a : Word) (size : Nat) : Option Exc :=
  let p := s.place c store a.toNat
  (alignExc a size).or <| (s.protExc c store p a).or <| (sizeExc (p == .capture) a size).or <|
    (if s.tMode c then none else s.mapExc store a).or <| if store then none else s.loadDed p a

/-! ### Loads -/

/-- The bytes of an access as they stand, below zeros. -/
def State.loadRaw (s : State) (key size : Nat) : Word :=
  BitVec.ofNat 32 ((List.range size).foldl (fun v i => v + (s.byte (key + i)).toNat * 256 ^ i) 0)

/-- Extension of a loaded value: by sign; with zeros, with ones in the mirror pass (R154). -/
def extend (size : Nat) (sgn m : Bool) (w : Word) : Word :=
  let ones := onesLow (8 * size)
  if sgn then (if w.getLsbD (8 * size - 1) then w ||| ~~~ones else w &&& ones)
  else if m then w ||| ~~~ones else w &&& ones

/-- The word a load gives, and the state after it. -/
def State.load (s : State) (c : Nat) (a : Word) (size : Nat) (sgn : Bool) : Word × State :=
  match s.place c false a.toNat with
  | .cell key flip =>
    let raw := s.loadRaw key size
    (extend size sgn (s.mirror c) (if flip then ~~~raw else raw), s)
  | .reg => busRead a.toNat s
  | _ => (0, s)

/-- The address of an access: a steering operand and the sign-extended offset (R153). -/
def State.address (s : State) (c ga : Nat) (imm : BitVec 16) : Word := s.steer c ga + imm.signExtend 32

/-- Cycles to issue a load (R159). -/
def loadOp (c gd ga : Nat) (imm : BitVec 16) (size : Nat) (sgn : Bool) (s : State) : Res :=
  xob c (fun s => s.accessExc c false (s.address c ga imm) size)
    (fun s =>
      let x := s.load c (s.address c ga imm) size sgn
      advance c 1 (x.2.setReg c gd x.1)) s

/-! ### Stores -/

/-- Byte enables of a store. -/
def byteEnables (a size : Nat) : Nat := (2 ^ size - 1) * 2 ^ (a % 4)

/-- A store enters the signature lane of its pass: true address, byte enables, true data (R86). -/
def signStore (i : Nat) (m : Bool) (a size : Nat) (w : Word) (s : State) : State :=
  let r := s.run i
  let e : Stored := { addr := a, be := byteEnables a size, data := (if m then ~~~w else w) &&& onesLow (8 * size) }
  s.setRun i (if m then { r with mirrSig := r.mirrSig ++ [e] } else { r with primSig := r.primSig ++ [e] })

/-- Writes the low bytes of a word at a key. -/
def State.storeRaw (s : State) (key size : Nat) (w : Word) : State :=
  s.setBytes key ((List.range size).map (fun i => w.extractLsb' (8 * i) 8))

/-- A captured store becomes a commit entry (R81), the value as the pass holds it. -/
def captureStore (i : Nat) (m : Bool) (a : Nat) (w : Word) (s : State) : State :=
  let r := s.run i
  s.setRun i (if m then { r with mirrCmt := r.mirrCmt ++ [(a, w)] } else { r with primCmt := r.primCmt ++ [(a, w)] })

/-- The pass has captured as many entries as its task may (R82). -/
def State.cmtFull (s : State) (i : Nat) (m : Bool) : Bool :=
  let r := s.run i
  decide ((s.task i).cmtMax ≤ (if m then r.mirrCmt.length else r.primCmt.length))

/-- A store of a pass: captured, where a further entry than `CMT_MAX` ends the pass (R82), or to memory. -/
def passStore (c : Nat) (p : Pass) (a : Nat) (size : Nat) (w : Word) (s : State) : State :=
  match s.place c true a with
  | .capture =>
    if s.cmtFull p.task p.mirror then breakPass c .cmtOvf s
    else advance c 1 (captureStore p.task p.mirror a w (signStore p.task p.mirror a 4 w s))
  | .cell key _ => advance c 1 ((signStore p.task p.mirror a size w s).storeRaw key size w)
  | _ => s

/-- A store takes effect. The program counter moves before a register acts on the store. -/
def storeWord (c : Nat) (a : Word) (size : Nat) (w : Word) (s : State) : State :=
  match (s.core c).pass with
  | some p => passStore c p a.toNat size w s
  | none =>
    match s.place c true a.toNat with
    | .reg => busWrite a.toNat w 0xFF (advance c 1 s)
    | .cell key _ => advance c 1 (s.storeRaw key size w)
    | _ => s

/-- A store instruction: `gd` names the source register. -/
def storeOp (c gd ga : Nat) (imm : BitVec 16) (size : Nat) (s : State) : Res :=
  xob c (fun s => s.accessExc c true (s.address c ga imm) size)
    (fun s => storeWord c (s.address c ga imm) size (s.reg c gd) s) s

/-! ### `AGREE` (R94–R97, R142) -/

/-- Where `AGREE` reads: the address itself. -/
def State.agreePlace (s : State) (c a : Nat) : Place :=
  if (regionOf a).isReg then .reg else .cell (s.cellKey c a) false

/-- The exceptions of `AGREE` in a pass: the MPU still applies (R142), a full log in the primary pass (R96). The mirror pass reads
nothing, so the target raises nothing there. -/
def State.agreeExc (s : State) (c : Nat) (p : Pass) (a : Word) : Option Exc :=
  let prot : Option Exc := if (s.core c).mpuBit a 3 then none else some { cause := 4, addr := some a }
  let full : Option Exc := if 256 ≤ (s.run p.task).log.length then some { cause := 8, addr := some a } else none
  let read := (sizeExc false a 4).or <| (s.mapExc false a).or <| (s.loadDed (s.agreePlace c a.toNat) a).or full
  (alignExc a 4).or <| prot.or <| if p.mirror then none else read

/-- The read of the primary pass, logged (R94). -/
def agreePrim (c gd i : Nat) (a : Word) (s : State) : State :=
  let x : Word × State :=
    match s.agreePlace c a.toNat with
    | .reg => busRead a.toNat s
    | .cell key _ => (s.loadRaw key 4, s)
    | _ => (0, s)
  let s := x.2
  let r := s.run i
  advance c 1 ((s.setRun i { r with log := r.log ++ [(a.toNat, x.1)] }).setReg c gd x.1)

/-- The k-th `AGREE` of the mirror pass takes the k-th logged value (R95); beyond the log the value is free, and the sequences differ. -/
def agreeMirr (c gd i : Nat) (a : Word) (s : State) : State :=
  let r := s.run i
  let s := s.setRun i { r with
    logUsed := r.logUsed + 1
    agreeBad := r.agreeBad || (r.log[r.logUsed]?).all (fun e => e.1 != a.toNat) }
  match r.log[r.logUsed]? with
  | some e => advance c 1 (s.setReg c gd (~~~e.2))
  | none => advance c 1 (s.draw.setReg c gd (BitVec.ofNat 32 (s.free 32)))

/-- `AGREE` (R142): outside a pass it is `LW`. -/
def agreeOp (c gd ga : Nat) (imm : BitVec 16) (s : State) : Res :=
  match (s.core c).pass with
  | none => loadOp c gd ga imm 4 false s
  | some p =>
    xob c (fun s => s.agreeExc c p (s.address c ga imm))
      (fun s =>
        if p.mirror then agreeMirr c gd p.task (s.address c ga imm) s
        else agreePrim c gd p.task (s.address c ga imm) s) s

/-! ### The rows -/

/-- `LW`, `LH`, `LHU`, `LB`, `LBU` (R140, R154, R156). -/
def execLw (core : Fin 4) (gd ga : Fin 32) (imm : BitVec 16) (s : State) : Res := loadOp core gd ga imm 4 false s
def execLh (core : Fin 4) (gd ga : Fin 32) (imm : BitVec 16) (s : State) : Res := loadOp core gd ga imm 2 true s
def execLhu (core : Fin 4) (gd ga : Fin 32) (imm : BitVec 16) (s : State) : Res := loadOp core gd ga imm 2 false s
def execLb (core : Fin 4) (gd ga : Fin 32) (imm : BitVec 16) (s : State) : Res := loadOp core gd ga imm 1 true s
def execLbu (core : Fin 4) (gd ga : Fin 32) (imm : BitVec 16) (s : State) : Res := loadOp core gd ga imm 1 false s

/-- `SW`, `SH`, `SB` (R77, R81, R140, R141). -/
def execSw (core : Fin 4) (gd ga : Fin 32) (imm : BitVec 16) (s : State) : Res := storeOp core gd ga imm 4 s
def execSh (core : Fin 4) (gd ga : Fin 32) (imm : BitVec 16) (s : State) : Res := storeOp core gd ga imm 2 s
def execSb (core : Fin 4) (gd ga : Fin 32) (imm : BitVec 16) (s : State) : Res := storeOp core gd ga imm 1 s

/-- `AGREE` (R94, R95, R142). -/
def execAgree (core : Fin 4) (gd ga : Fin 32) (imm : BitVec 16) (s : State) : Res := agreeOp core gd ga imm s

end Sys2Proof.Machine
end

