-- ==== Sys2Proof/Machine/XobSys.lean ====
section
/-!
DEFINITION. Sys2Proof/Machine/XobSys.lean: the system instructions of a core (R123, R124, R130, R131, R135, R149, R152), the words that are no
instruction, interrupts, and the writes of a debugger (R111–R115).
-/
namespace Sys2Proof.Machine

/-! ### Control registers (R123) -/

/-- `FL` as a word, and from one. -/
def Flags.word (f : Flags) : Word :=
  BitVec.ofNat 32 ((if f.n then 2 ^ 31 else 0) + (if f.z then 2 ^ 30 else 0) + (if f.c then 2 ^ 29 else 0) + (if f.v then 2 ^ 28 else 0))
def Flags.ofWord (w : Word) : Flags := { n := w.getLsbD 31, z := w.getLsbD 30, c := w.getLsbD 29, v := w.getLsbD 28 }

/-- T mode may read a control register: `FL`, `PSR`, `CORE_ID`, the loop registers. -/
def tReads (n : Nat) : Bool := n == 0 || n == 1 || n == 8 || (decide (16 ≤ n) && decide (n ≤ 24))

/-- T mode may write a control register: `FL` and the loop registers. -/
def tWrites (n : Nat) : Bool := n == 0 || (decide (16 ≤ n) && decide (n ≤ 24))

/-- `CYCLE_HI` as it reads: frozen, or the present one. -/
def Core.cycleHiNow (k : Core) : Word := k.cycleHi.getD (BitVec.ofNat 32 (k.cycle / 2 ^ 32))

/-- The control registers of S mode that one field holds; unassigned numbers read 0. -/
def Core.sysReg (k : Core) (n : Nat) : Word :=
  match n with
  | 2 => k.epc
  | 3 => k.ecause
  | 4 => k.eaddr
  | 5 => k.epsr
  | 6 => k.escr
  | 7 => k.svec
  | 9 => k.ipend.zeroExtend 32
  | 10 => k.imask
  | 11 => k.tcause
  | 12 => k.tepc
  | 13 => k.teaddr
  | 14 => BitVec.ofNat 32 k.cycle
  | 15 => k.cycleHiNow
  | n =>
    if 32 ≤ n ∧ n < 48 then tget 0 k.mpuBase (n - 32) &&& ~~~31
    else if 48 ≤ n ∧ n < 64 then tget 0 k.mpuLim (n - 48) ||| 31
    else if 64 ≤ n ∧ n < 80 then tget 0 k.mpuAttr (n - 64)
    else 0

/-- The true value of a control register of core `c`. `PSR` shows `MODE`; `MP` reads 0 in T mode (R124) and in S mode. -/
def State.ctrl (s : State) (c n : Nat) : Word :=
  let b := s.bank c
  if n = 0 then b.fl.word
  else if n = 1 then (s.core c).psr ||| (if s.tMode c then 1 else 0)
  else if n = 8 then BitVec.ofNat 32 c
  else if 16 ≤ n ∧ n < 19 then tget 0 b.ls (n - 16)
  else if 19 ≤ n ∧ n < 22 then tget 0 b.le (n - 19)
  else if 22 ≤ n ∧ n < 25 then tget 0 b.lc (n - 22)
  else (s.core c).sysReg n

/-- What a read of a control register changes: the freeze of `CYCLE_HI`. -/
def ctrlRead (c n : Nat) (s : State) : State :=
  let k := s.core c
  if n = 14 then s.setCore c { k with cycleHi := some k.cycleHiNow }
  else if n = 15 then s.setCore c { k with cycleHi := none }
  else s

/-- A write of a control register of S mode; read-only and unassigned numbers ignore it. -/
def Core.setSysReg (k : Core) (n : Nat) (w : Word) : Core :=
  match n with
  | 1 => k.setPsr w
  | 2 => { k with epc := w }
  | 3 => { k with ecause := w &&& 0xFFFF001F }
  | 4 => { k with eaddr := w }
  | 5 => { k with epsr := w }
  | 6 => { k with escr := w }
  | 7 => { k with svec := w &&& ~~~0xFF }
  | 9 => { k with ipend := k.ipend &&& ~~~(w.extractLsb' 0 8) }
  | 10 => { k with imask := w }
  | n =>
    if 32 ≤ n ∧ n < 48 then { k with mpuBase := tset 0 k.mpuBase (n - 32) (w &&& ~~~31) }
    else if 48 ≤ n ∧ n < 64 then { k with mpuLim := tset 0 k.mpuLim (n - 48) (w &&& ~~~31) }
    else if 64 ≤ n ∧ n < 80 then { k with mpuAttr := tset 0 k.mpuAttr (n - 64) (w &&& 0x7F) }
    else k

/-- Writes a true value to a control register (R123, R152). -/
def State.setCtrl (s : State) (c n : Nat) (w : Word) : State :=
  let b := s.bank c
  if n = 0 then s.setBank c { b with fl := Flags.ofWord w }
  else if 16 ≤ n ∧ n < 19 then s.setBank c { b with ls := tset 0 b.ls (n - 16) w }
  else if 19 ≤ n ∧ n < 22 then s.setBank c { b with le := tset 0 b.le (n - 19) w }
  else if 22 ≤ n ∧ n < 25 then s.setBank c { b with lc := tset 0 b.lc (n - 22) w }
  else s.setCore c ((s.core c).setSysReg n w)

/-- `MFC` (R123, R124): the value as the pass holds it. -/
def execMfc (core : Fin 4) (gd : Fin 32) (cr : Fin 1024) (s : State) : Res :=
  xob core (fun s => excIf (s.tMode core && !tReads cr) privExc none)
    (fun s => advance core 1 ((ctrlRead core cr s).setReg core gd (s.sense core (s.ctrl core cr)))) s

/-- `MTC` (R123, R152): a steering operand. The loop registers it writes take part in R146 at its own end. -/
def execMtc (core : Fin 4) (cr : Fin 1024) (ga : Fin 32) (s : State) : Res :=
  xob core (fun s => excIf (s.tMode core && !tWrites cr) privExc none)
    (fun s => advance core 1 (s.setCtrl core cr (s.steer core ga))) s

/-! ### The other system instructions -/

/-- `NOP`. -/
def execNop (core : Fin 4) (s : State) : Res := xob core noExc (advance core 1) s

/-- `SYNC`: every earlier store has reached its target at the end of its own step; no effect in T mode. -/
def execSync (core : Fin 4) (s : State) : Res := xob core noExc (advance core 1) s

/-- `TRAP` (R128, R149). -/
def execTrap (core : Fin 4) (num : BitVec 10) (s : State) : Res :=
  xob core (fun s => excIf (s.atLoopEnd core) loopExc (some { cause := 9, info := some num.toNat })) id s

/-- `ERET` (R131): S mode only. The loop registers are kept across the handler (R151). -/
def execEret (core : Fin 4) (s : State) : Res :=
  xob core (fun s => excIf (s.tMode core) privExc (excIf (s.atLoopEnd core) loopExc none))
    (fun s =>
      let k := s.core core
      retired core (spend core 1 (s.setCore core { k.setPsr k.epsr with sPc := k.epc }))) s

/-- `WFI`: S mode only. The core stops until a bit of `IPEND` is set, whatever `IE` is. -/
def execWfi (core : Fin 4) (s : State) : Res :=
  xob core (fun s => excIf (s.tMode core) privExc (excIf (s.atLoopEnd core) loopExc none))
    (fun s =>
      let s := advance core 1 s
      s.setCore core { s.core core with waiting := true }) s

/-- The interrupt that is due is taken (R131). -/
def interruptEntry (c : Nat) (s : State) : State :=
  let k := s.core c
  s.setCore c { k.enter 0x40 with waiting := false }

/-- `INTERRUPT` (R131): in S mode, at an instruction boundary. -/
def execInterrupt (core : Fin 4) (s : State) : Res :=
  let k := s.core core
  let due := k.ie && !k.exl && k.ipend.zeroExtend 32 &&& k.imask != 0
  if s.coreRuns core && k.pass.isNone && due then .next (interruptEntry core s) else .next s

/-! ### Words that are no instruction (R134, R135, R138, R139, R144, R147) -/

/-- Bits `hi`..`lo` of an instruction word. -/
def ibits (w : Word) (hi lo : Nat) : Nat := wbits w hi lo

/-- The fields of an R-format word are as its `func` requires. -/
def legalR (w : Word) : Bool :=
  let f := ibits w 5 0
  let sh := ibits w 10 6
  let gd := ibits w 25 21
  let gb := ibits w 15 11
  if (1 ≤ f ∧ f ≤ 0x0A) ∨ (0x10 ≤ f ∧ f ≤ 0x13) ∨ (0x18 ≤ f ∧ f ≤ 0x1E) then sh == 0
  else if f = 0x0B ∨ f = 0x0C then gd == 0 && sh == 0
  else if f = 0x0D then decide (sh < 15)
  else if 0x14 ≤ f ∧ f ≤ 0x17 then gb == 0
  else if f = 0x1F then gb == 0 && sh == 0
  else false

/-- The fields of an S-format word are as its `func` requires. -/
def legalS (w : Word) : Bool :=
  let f := ibits w 5 0
  let n := ibits w 15 6
  let gd := ibits w 25 21
  let ga := ibits w 20 16
  match f with
  | 2 => ga == 0
  | 3 => gd == 0
  | 4 => gd == 0 && ga == 0
  | _ => (f == 1 || f == 5 || f == 6 || f == 7) && gd == 0 && ga == 0 && n == 0

/-- A word is an instruction. -/
def legalWord (w : Word) : Bool :=
  let op := ibits w 31 26
  let gd := ibits w 25 21
  let ga := ibits w 20 16
  if op = 1 then legalR w
  else if op = 2 then (1 ≤ ibits w 5 0 ∧ ibits w 5 0 ≤ 3) && decide (ibits w 15 11 + ibits w 10 6 + 1 ≤ 32)
  else if op = 3 then permOk (w.extractLsb' 0 16)
  else if (4 ≤ op ∧ op ≤ 7) ∨ (0x10 ≤ op ∧ op ≤ 0x18) then true
  else if op = 8 ∨ op = 9 then gd == 0
  else if op = 0x0A then ga == 0
  else if op = 0x20 then decide (ibits w 25 22 < 15)
  else if op = 0x21 then true
  else if op = 0x22 then gd == 0 && ibits w 15 0 == 0
  else if op = 0x23 then ibits w 15 0 == 0
  else if op = 0x28 then decide (ibits w 25 24 < 3) && ibits w 18 0 != 0
  else if op = 0x29 then decide (ibits w 25 24 < 3) && ibits w 23 12 != 0 && ibits w 11 0 != 0
  else if op = 0x3E then legalS w
  else false

/-- `UNDEF` (R135): the word at the program counter is no instruction. A word that is one brings nothing about here. -/
def execUndef (core : Fin 4) (w : Word) (s : State) : Res :=
  if legalWord w then .next s else xob core (fun _ => some undefExc) id s

/-! ### A debugger's writes (R111–R115) -/

/-- A debugger writes a register or a key, as a pass or S mode holds it. -/
def debugPut (c : Nat) (tgt : DbgTarget) (v : Word) (key : Nat → Nat) (s : State) : State :=
  match tgt with
  | .reg r => putReplay c true r v s
  | .mem a => putReplay c false (key a) v s

/-- The true key of R77 that a primary pass reaches. -/
def State.primKey (s : State) (c i a : Nat) : Nat :=
  let x := s.task i
  if x.stTrue ≤ a ∧ a < x.stTrue + x.stLen then memKey c (x.stTrue + x.workOfs + (a - x.stTrue)) else memKey c a

/-- A write in REPLAY to the primary pass, logged with the retired count; the 65th is refused (R112, R114). -/
def replayWrite (c : Nat) (p : Pass) (tgt : DbgTarget) (v : Word) (s : State) : State :=
  let n := s.rlog.length
  if 64 ≤ n then frameReport 55 (s.flag DBG_RLOG_OVF true)
  else
    let e : RLog := match tgt with
      | .reg r => { core := c, task := p.task, count := p.retired, isReg := true, target := r, value := v }
      | .mem a => { core := c, task := p.task, count := p.retired, isReg := false, target := a, value := v }
    let s := debugPut c tgt v (s.primKey c p.task) s
    { s.put DBG_RLOG_USED (n + 1) with rlog := s.rlog ++ [e] }

/-- The target is memory that a debugger may write: SRAM, at a word address. -/
def dbgSram (c : Nat) : DbgTarget → Bool
  | .reg _ => true
  | .mem a => a % 4 == 0 && (inShared a || (inLocal a && decide (c < 4)))

/-- `DEBUGGER_WRITE` (R111–R115): applied as written in JOINT and to S-mode code, logged in REPLAY, refused in the mirror pass of REPLAY, for
registers of the device and for memory that no store writes. -/
def execDebuggerWrite (core : Fin 4) (target : DbgTarget) (v : Word) (t : Nat) (s : State) : Res :=
  let s := s.at t
  if s.debugMode = 0 ∨ dbgSram core target = false ∨ s.clocks = false then .next s
  else
    match (s.core core).pass with
    | none => .next (debugPut core target v (memKey core) s)
    | some p =>
      if s.debugMode = 1 then .next (debugPut core target v (memKey core) s)
      else if p.mirror then .next s
      else .next (replayWrite core p target v s)

end Sys2Proof.Machine
end

