-- ==== Sys2Proof/Machine/Dispatch.lean ====
section
/-!
DEFINITION. Sys2Proof/Machine/Dispatch.lean: one arm for each command, one call of its meaning.
-/
namespace Sys2Proof.Machine

def exec (i : Instr) (s : State) : Host.Outcome State Fault Refusal :=
  match i with
  | .powerUp => Sys2Proof.Machine.execPowerUp s
  | .resetNRelease plan => Sys2Proof.Machine.execResetNRelease plan s
  | .resetNAssert t => Sys2Proof.Machine.execResetNAssert t s
  | .firstFrameTimeout t => Sys2Proof.Machine.execFirstFrameTimeout t s
  | .brownout mV t plan => Sys2Proof.Machine.execBrownout mV t plan s
  | .vbatUv mV t => Sys2Proof.Machine.execVbatUv mV t s
  | .vbatOv mV t => Sys2Proof.Machine.execVbatOv mV t s
  | .flashSuspendUv mV t => Sys2Proof.Machine.execFlashSuspendUv mV t s
  | .flashResumeUv mV t => Sys2Proof.Machine.execFlashResumeUv mV t s
  | .groupWire g mVg mVl mA t => Sys2Proof.Machine.execGroupWire g mVg mVl mA t s
  | .ignOkRise t => Sys2Proof.Machine.execIgnOkRise t s
  | .ignOkFall t => Sys2Proof.Machine.execIgnOkFall t s
  | .gateLineFall g t => Sys2Proof.Machine.execGateLineFall g t s
  | .gateLineRise g t => Sys2Proof.Machine.execGateLineRise g t s
  | .registerWrite a v t => Sys2Proof.Machine.execRegisterWrite a v t s
  | .frameTick t m => Sys2Proof.Machine.execFrameTick t m s
  | .cut t => Sys2Proof.Machine.execCut t s
  | .commit t => Sys2Proof.Machine.execCommit t s
  | .commitDeadline t => Sys2Proof.Machine.execCommitDeadline t s
  | .maintenanceSliceEnd t => Sys2Proof.Machine.execMaintenanceSliceEnd t s
  | .run => Sys2Proof.Machine.execRun s
  | .frameLenWrite v => Sys2Proof.Machine.execFrameLenWrite v s
  | .frameMarginWrite v => Sys2Proof.Machine.execFrameMarginWrite v s
  | .frameCutresWrite v => Sys2Proof.Machine.execFrameCutresWrite v s
  | .frameLockWrite v => Sys2Proof.Machine.execFrameLockWrite v s
  | .lockReference t edge => Sys2Proof.Machine.execLockReference t edge s
  | .referenceMissing t => Sys2Proof.Machine.execReferenceMissing t s
  | .lockFail t => Sys2Proof.Machine.execLockFail t s
  | .ttPost idx => Sys2Proof.Machine.execTtPost idx s
  | .modeReq v => Sys2Proof.Machine.execModeReq v s
  | .halt t => Sys2Proof.Machine.execHalt t s
  | .debugResume t => Sys2Proof.Machine.execDebugResume t s
  | .breakpoint b core t => Sys2Proof.Machine.execBreakpoint b core t s
  | .debuggerWrite core target v t => Sys2Proof.Machine.execDebuggerWrite core target v t s
  | .interrupt core => Sys2Proof.Machine.execInterrupt core s
  | .add core gd ga gb => Sys2Proof.Machine.execAdd core gd ga gb s
  | .sub core gd ga gb => Sys2Proof.Machine.execSub core gd ga gb s
  | .adc core gd ga gb => Sys2Proof.Machine.execAdc core gd ga gb s
  | .sbc core gd ga gb => Sys2Proof.Machine.execSbc core gd ga gb s
  | .andR core gd ga gb => Sys2Proof.Machine.execAndR core gd ga gb s
  | .orR core gd ga gb => Sys2Proof.Machine.execOrR core gd ga gb s
  | .xorR core gd ga gb => Sys2Proof.Machine.execXorR core gd ga gb s
  | .andn core gd ga gb => Sys2Proof.Machine.execAndn core gd ga gb s
  | .orn core gd ga gb => Sys2Proof.Machine.execOrn core gd ga gb s
  | .xnor core gd ga gb => Sys2Proof.Machine.execXnor core gd ga gb s
  | .cmp core ga gb => Sys2Proof.Machine.execCmp core ga gb s
  | .tst core ga gb => Sys2Proof.Machine.execTst core ga gb s
  | .sel core gd ga gb cond => Sys2Proof.Machine.execSel core gd ga gb cond s
  | .lsl core gd ga gb => Sys2Proof.Machine.execLsl core gd ga gb s
  | .lsr core gd ga gb => Sys2Proof.Machine.execLsr core gd ga gb s
  | .asr core gd ga gb => Sys2Proof.Machine.execAsr core gd ga gb s
  | .ror core gd ga gb => Sys2Proof.Machine.execRor core gd ga gb s
  | .lsli core gd ga sh => Sys2Proof.Machine.execLsli core gd ga sh s
  | .lsri core gd ga sh => Sys2Proof.Machine.execLsri core gd ga sh s
  | .asri core gd ga sh => Sys2Proof.Machine.execAsri core gd ga sh s
  | .rori core gd ga sh => Sys2Proof.Machine.execRori core gd ga sh s
  | .mul core gd ga gb => Sys2Proof.Machine.execMul core gd ga gb s
  | .mulhs core gd ga gb => Sys2Proof.Machine.execMulhs core gd ga gb s
  | .mulhu core gd ga gb => Sys2Proof.Machine.execMulhu core gd ga gb s
  | .divs core gd ga gb chk => Sys2Proof.Machine.execDivs core gd ga gb chk s
  | .divu core gd ga gb chk => Sys2Proof.Machine.execDivu core gd ga gb chk s
  | .rems core gd ga gb chk => Sys2Proof.Machine.execRems core gd ga gb chk s
  | .remu core gd ga gb chk => Sys2Proof.Machine.execRemu core gd ga gb chk s
  | .clz core gd ga => Sys2Proof.Machine.execClz core gd ga s
  | .bfx core gd ga pos w1 => Sys2Proof.Machine.execBfx core gd ga pos w1 s
  | .bfxs core gd ga pos w1 => Sys2Proof.Machine.execBfxs core gd ga pos w1 s
  | .bfi core gd ga pos w1 => Sys2Proof.Machine.execBfi core gd ga pos w1 s
  | .perm core gd ga sl => Sys2Proof.Machine.execPerm core gd ga sl s
  | .addi core gd ga imm => Sys2Proof.Machine.execAddi core gd ga imm s
  | .andi core gd ga imm => Sys2Proof.Machine.execAndi core gd ga imm s
  | .ori core gd ga imm => Sys2Proof.Machine.execOri core gd ga imm s
  | .xori core gd ga imm => Sys2Proof.Machine.execXori core gd ga imm s
  | .cmpi core ga imm => Sys2Proof.Machine.execCmpi core ga imm s
  | .tsti core ga imm => Sys2Proof.Machine.execTsti core ga imm s
  | .movhi core gd imm => Sys2Proof.Machine.execMovhi core gd imm s
  | .lw core gd ga imm => Sys2Proof.Machine.execLw core gd ga imm s
  | .lh core gd ga imm => Sys2Proof.Machine.execLh core gd ga imm s
  | .lhu core gd ga imm => Sys2Proof.Machine.execLhu core gd ga imm s
  | .lb core gd ga imm => Sys2Proof.Machine.execLb core gd ga imm s
  | .lbu core gd ga imm => Sys2Proof.Machine.execLbu core gd ga imm s
  | .sw core gd ga imm => Sys2Proof.Machine.execSw core gd ga imm s
  | .sh core gd ga imm => Sys2Proof.Machine.execSh core gd ga imm s
  | .sb core gd ga imm => Sys2Proof.Machine.execSb core gd ga imm s
  | .agree core gd ga imm => Sys2Proof.Machine.execAgree core gd ga imm s
  | .br core cond disp => Sys2Proof.Machine.execBr core cond disp s
  | .bl core disp => Sys2Proof.Machine.execBl core disp s
  | .jr core ga => Sys2Proof.Machine.execJr core ga s
  | .jalr core gd ga => Sys2Proof.Machine.execJalr core gd ga s
  | .loopR core lvl ga off => Sys2Proof.Machine.execLoopR core lvl ga off s
  | .loopi core lvl cnt off => Sys2Proof.Machine.execLoopi core lvl cnt off s
  | .nop core => Sys2Proof.Machine.execNop core s
  | .mfc core gd cr => Sys2Proof.Machine.execMfc core gd cr s
  | .mtc core cr ga => Sys2Proof.Machine.execMtc core cr ga s
  | .trap core num => Sys2Proof.Machine.execTrap core num s
  | .sync core => Sys2Proof.Machine.execSync core s
  | .eret core => Sys2Proof.Machine.execEret core s
  | .wfi core => Sys2Proof.Machine.execWfi core s
  | .chtPost idx => Sys2Proof.Machine.execChtPost idx s
  | .therm idx => Sys2Proof.Machine.execTherm idx s
  | .latchClr idx => Sys2Proof.Machine.execLatchClr idx s
  | .fltClr idx => Sys2Proof.Machine.execFltClr idx s
  | .bstop k => Sys2Proof.Machine.execBstop k s
  | .resume k => Sys2Proof.Machine.execResume k s
  | .chainLatch t bad retBad hdrOk => Sys2Proof.Machine.execChainLatch t bad retBad hdrOk s
  | .configurationFrame t k target block data ok => Sys2Proof.Machine.execConfigurationFrame t k target block data ok s
  | .liveAdvance t => Sys2Proof.Machine.execLiveAdvance t s
  | .liveStall t => Sys2Proof.Machine.execLiveStall t s
  | .serialWatchdogExpiry k t => Sys2Proof.Machine.execSerialWatchdogExpiry k t s
  | .dieLogicReset k t => Sys2Proof.Machine.execDieLogicReset k t s
  | .short idx t => Sys2Proof.Machine.execShort idx t s
  | .overcur idx t a b c => Sys2Proof.Machine.execOvercur idx t a b c s
  | .inrushWindowEnd idx t => Sys2Proof.Machine.execInrushWindowEnd idx t s
  | .groupDroop g t => Sys2Proof.Machine.execGroupDroop g t s
  | .droopRelease g t => Sys2Proof.Machine.execDroopRelease g t s
  | .thermal idx t tj => Sys2Proof.Machine.execThermal idx t tj s
  | .thermalRelease idx t tj => Sys2Proof.Machine.execThermalRelease idx t tj s
  | .retryWaitEnd idx t => Sys2Proof.Machine.execRetryWaitEnd idx t s
  | .retryCntReset idx t => Sys2Proof.Machine.execRetryCntReset idx t s
  | .reversalBrakeEnd b t => Sys2Proof.Machine.execReversalBrakeEnd b t s
  | .uvHold g t => Sys2Proof.Machine.execUvHold g t s
  | .uvRelease g t => Sys2Proof.Machine.execUvRelease g t s
  | .openOn idx t mA => Sys2Proof.Machine.execOpenOn idx t mA s
  | .stuckOff idx t mA => Sys2Proof.Machine.execStuckOff idx t mA s
  | .stuckOn idx t mA => Sys2Proof.Machine.execStuckOn idx t mA s
  | .bridgeStall b t => Sys2Proof.Machine.execBridgeStall b t s
  | .demagEnd idx t plateau => Sys2Proof.Machine.execDemagEnd idx t plateau s
  | .offWindow idx t down up => Sys2Proof.Machine.execOffWindow idx t down up s
  | .ripple b t => Sys2Proof.Machine.execRipple b t s
  | .pullInDip idx t => Sys2Proof.Machine.execPullInDip idx t s
  | .signatureTimeout idx opening t => Sys2Proof.Machine.execSignatureTimeout idx opening t s
  | .tlHold idx t energy => Sys2Proof.Machine.execTlHold idx t energy s
  | .tlHoldEnd idx t energy => Sys2Proof.Machine.execTlHoldEnd idx t energy s
  | .pairGapEnd idx t => Sys2Proof.Machine.execPairGapEnd idx t s
  | .limpInputChange k n lvl t => Sys2Proof.Machine.execLimpInputChange k n lvl t s
  | .limpDiff n t => Sys2Proof.Machine.execLimpDiff n t s
  | .chainEn => Sys2Proof.Machine.execChainEn s
  | .ledLatch p t hdrOk nret codes => Sys2Proof.Machine.execLedLatch p t hdrOk nret codes s
  | .lcpEn p => Sys2Proof.Machine.execLcpEn p s
  | .lcpSubReq p drv tmo t => Sys2Proof.Machine.execLcpSubReq p drv tmo t s
  | .lcpSubTimeout p t => Sys2Proof.Machine.execLcpSubTimeout p t s
  | .pschTick t => Sys2Proof.Machine.execPschTick t s
  | .eventFire t => Sys2Proof.Machine.execEventFire t s
  | .wheelExclude w t => Sys2Proof.Machine.execWheelExclude w t s
  | .wheelReadmit w t => Sys2Proof.Machine.execWheelReadmit w t s
  | .wheelStop w t => Sys2Proof.Machine.execWheelStop w t s
  | .yawLost t => Sys2Proof.Machine.execYawLost t s
  | .zeroRateUpdate t code => Sys2Proof.Machine.execZeroRateUpdate t code s
  | .locDr t => Sys2Proof.Machine.execLocDr t s
  | .delta e n h u spread force => Sys2Proof.Machine.execDelta e n h u spread force s
  | .setCorr e n h u => Sys2Proof.Machine.execSetCorr e n h u s
  | .apPost idx => Sys2Proof.Machine.execApPost idx s
  | .apClr idx => Sys2Proof.Machine.execApClr idx s
  | .eventPost slot w0 w1 w2 w3 => Sys2Proof.Machine.execEventPost slot w0 w1 w2 w3 s
  | .eventCancel slot => Sys2Proof.Machine.execEventCancel slot s
  | .cancelAp idx => Sys2Proof.Machine.execCancelAp idx s
  | .applyWindowEntry t => Sys2Proof.Machine.execApplyWindowEntry t s
  | .pschEn => Sys2Proof.Machine.execPschEn s
  | .coverageCycle t us => Sys2Proof.Machine.execCoverageCycle t us s
  | .cycleOvr t => Sys2Proof.Machine.execCycleOvr t s
  | .covEn => Sys2Proof.Machine.execCovEn s
  | .fieldOpen id => Sys2Proof.Machine.execFieldOpen id s
  | .directoryRead t => Sys2Proof.Machine.execDirectoryRead t s
  | .fieldClose t => Sys2Proof.Machine.execFieldClose t s
  | .fieldFlush t => Sys2Proof.Machine.execFieldFlush t s
  | .fieldErase id => Sys2Proof.Machine.execFieldErase id s
  | .flushComplete t => Sys2Proof.Machine.execFlushComplete t s
  | .flushLate t => Sys2Proof.Machine.execFlushLate t s
  | .fill layer value => Sys2Proof.Machine.execFill layer value s
  | .install layer => Sys2Proof.Machine.execInstall layer s
  | .writeBackTile e t fail => Sys2Proof.Machine.execWriteBackTile e t fail s
  | .tmrPost c => Sys2Proof.Machine.execTmrPost c s
  | .tmrClrCnt c t => Sys2Proof.Machine.execTmrClrCnt c t s
  | .tmrClrFlags c => Sys2Proof.Machine.execTmrClrFlags c s
  | .timerTick c t => Sys2Proof.Machine.execTimerTick c t s
  | .filteredEdge c t lvl pins => Sys2Proof.Machine.execFilteredEdge c t lvl pins s
  | .capLoRead c t => Sys2Proof.Machine.execCapLoRead c t s
  | .capHiRead c t => Sys2Proof.Machine.execCapHiRead c t s
  | .swinScan t closed oppose => Sys2Proof.Machine.execSwinScan t closed oppose s
  | .adcTrigger t => Sys2Proof.Machine.execAdcTrigger t s
  | .adcScanComplete t codes refOk => Sys2Proof.Machine.execAdcScanComplete t codes refOk s
  | .fldEn => Sys2Proof.Machine.execFldEn s
  | .barrierPowerUp t => Sys2Proof.Machine.execBarrierPowerUp t s
  | .downlinkFrame t cfg ok => Sys2Proof.Machine.execDownlinkFrame t cfg ok s
  | .uplinkFrame t ok hdrOk n mA tj v => Sys2Proof.Machine.execUplinkFrame t ok hdrOk n mA tj v s
  | .fieldLatch t take => Sys2Proof.Machine.execFieldLatch t take s
  | .fldArming t ok => Sys2Proof.Machine.execFldArming t ok s
  | .fldTmo t => Sys2Proof.Machine.execFldTmo t s
  | .modeMax t => Sys2Proof.Machine.execModeMax t s
  | .fldResume => Sys2Proof.Machine.execFldResume s
  | .testReq sel t => Sys2Proof.Machine.execTestReq sel t s
  | .testComplete t inFail notOff openOff shortBat => Sys2Proof.Machine.execTestComplete t inFail notOff openOff shortBat s
  | .fieldInputSample t raw => Sys2Proof.Machine.execFieldInputSample t raw s
  | .vfieldUndervoltage t => Sys2Proof.Machine.execVfieldUndervoltage t s
  | .vfieldRelease t => Sys2Proof.Machine.execVfieldRelease t s
  | .initClear n => Sys2Proof.Machine.execInitClear n s
  | .initSet n => Sys2Proof.Machine.execInitSet n s
  | .romSet n => Sys2Proof.Machine.execRomSet n s
  | .romClear n => Sys2Proof.Machine.execRomClear n s
  | .recover n => Sys2Proof.Machine.execRecover n s
  | .integrationComplete n t => Sys2Proof.Machine.execIntegrationComplete n t s
  | .recoveryComplete n t => Sys2Proof.Machine.execRecoveryComplete n t s
  | .frameReceive n t f => Sys2Proof.Machine.execFrameReceive n t f s
  | .transmitStart n t => Sys2Proof.Machine.execTransmitStart n t s
  | .frameSent n t tdcv => Sys2Proof.Machine.execFrameSent n t tdcv s
  | .arbitrationLost n t toRef => Sys2Proof.Machine.execArbitrationLost n t toRef s
  | .busError n t tx code dataPhase weight => Sys2Proof.Machine.execBusError n t tx code dataPhase weight s
  | .push n => Sys2Proof.Machine.execPush n s
  | .urgent n => Sys2Proof.Machine.execUrgent n s
  | .fifoFlush n => Sys2Proof.Machine.execFifoFlush n s
  | .urgAbort n => Sys2Proof.Machine.execUrgAbort n s
  | .mbPost n b => Sys2Proof.Machine.execMbPost n b s
  | .rxAck n b => Sys2Proof.Machine.execRxAck n b s
  | .referenceSlot n t => Sys2Proof.Machine.execReferenceSlot n t s
  | .refMiss n t => Sys2Proof.Machine.execRefMiss n t s
  | .txdDominantTimeout n t => Sys2Proof.Machine.execTxdDominantTimeout n t s
  | .nmEn n en t => Sys2Proof.Machine.execNmEn n en t s
  | .nmReq n req t => Sys2Proof.Machine.execNmReq n req t s
  | .rallyTimer n t => Sys2Proof.Machine.execRallyTimer n t s
  | .networkTimerExpiry n t => Sys2Proof.Machine.execNetworkTimerExpiry n t s
  | .prepareSleepExpiry n t => Sys2Proof.Machine.execPrepareSleepExpiry n t s
  | .busLeave n t => Sys2Proof.Machine.execBusLeave n t s
  | .busWake n k t => Sys2Proof.Machine.execBusWake n k t s
  | .wakeUpFrame n t ok f => Sys2Proof.Machine.execWakeUpFrame n t ok f s
  | .falseWake n t => Sys2Proof.Machine.execFalseWake n t s
  | .linSlot m t => Sys2Proof.Machine.execLinSlot m t s
  | .linFrame m t result data => Sys2Proof.Machine.execLinFrame m t result data s
  | .linBreak m t dominant rate id parity => Sys2Proof.Machine.execLinBreak m t dominant rate id parity s
  | .linInactivity m t => Sys2Proof.Machine.execLinInactivity m t s
  | .linWake m t => Sys2Proof.Machine.execLinWake m t s
  | .wakeRx m t dur => Sys2Proof.Machine.execWakeRx m t dur s
  | .ethTxPush e => Sys2Proof.Machine.execEthTxPush e s
  | .ethFrameReceive e t ts bytes => Sys2Proof.Machine.execEthFrameReceive e t ts bytes s
  | .ethFrameSent e t ts => Sys2Proof.Machine.execEthFrameSent e t ts s
  | .ethLinkLost e t => Sys2Proof.Machine.execEthLinkLost e t s
  | .sentFrame r t edge cal nibs crc ser => Sys2Proof.Machine.execSentFrame r t edge cal nibs crc ser s
  | .sentSilence r t => Sys2Proof.Machine.execSentSilence r t s
  | .uartRxByte u t b pe fe => Sys2Proof.Machine.execUartRxByte u t b pe fe s
  | .uartRxd u => Sys2Proof.Machine.execUartRxd u s
  | .uartTxd u n b t => Sys2Proof.Machine.execUartTxd u n b t s
  | .uartIdle u t => Sys2Proof.Machine.execUartIdle u t s
  | .uartPps u t => Sys2Proof.Machine.execUartPps u t s
  | .touch e t over' => Sys2Proof.Machine.execTouch e t over' s
  | .go zone t => Sys2Proof.Machine.execGo zone t s
  | .replySlotEnd t c => Sys2Proof.Machine.execReplySlotEnd t c s
  | .keeperVerdict t => Sys2Proof.Machine.execKeeperVerdict t s
  | .keeperTmo t => Sys2Proof.Machine.execKeeperTmo t s
  | .lockoutEnd t => Sys2Proof.Machine.execLockoutEnd t s
  | .lockoutSave t => Sys2Proof.Machine.execLockoutSave t s
  | .authHoldExpiry t => Sys2Proof.Machine.execAuthHoldExpiry t s
  | .immoHoldExpiry t => Sys2Proof.Machine.execImmoHoldExpiry t s
  | .revoke => Sys2Proof.Machine.execRevoke s
  | .touchSuspendEnd e t => Sys2Proof.Machine.execTouchSuspendEnd e t s
  | .accEn => Sys2Proof.Machine.execAccEn s
  | .quietExpiry n t => Sys2Proof.Machine.execQuietExpiry n t s
  | .recCntForget n t => Sys2Proof.Machine.execRecCntForget n t s
  | .safeReq => Sys2Proof.Machine.execSafeReq s
  | .umpRst key go t plan => Sys2Proof.Machine.execUmpRst key go t plan s
  | .umpForce n => Sys2Proof.Machine.execUmpForce n s
  | .floorLevel v => Sys2Proof.Machine.execFloorLevel v s
  | .selfProtectionTrip clock => Sys2Proof.Machine.execSelfProtectionTrip clock s
  | .getIdentity t => Sys2Proof.Machine.execGetIdentity t s
  | .getRandom t count => Sys2Proof.Machine.execGetRandom t count s
  | .tokenEnrol t idx zone token epoch count sig => Sys2Proof.Machine.execTokenEnrol t idx zone token epoch count sig s
  | .tokenRevoke t idx token epoch sig => Sys2Proof.Machine.execTokenRevoke t idx token epoch sig s
  | .confirm t => Sys2Proof.Machine.execConfirm t s
  | .abandon t => Sys2Proof.Machine.execAbandon t s
  | .mailboxComplete t valid codes => Sys2Proof.Machine.execMailboxComplete t valid codes s
  | .hello tool seq t => Sys2Proof.Machine.execHello tool seq t s
  | .attest tool seq t nonce => Sys2Proof.Machine.execAttest tool seq t nonce s
  | .serviceGetIdentity tool seq t => Sys2Proof.Machine.execServiceGetIdentity tool seq t s
  | .enrolOwner tool seq t key sig => Sys2Proof.Machine.execEnrolOwner tool seq t key sig s
  | .transfer tool seq t key epoch sigOld sigNew => Sys2Proof.Machine.execTransfer tool seq t key epoch sigOld sigNew s
  | .dlStart tool seq t len => Sys2Proof.Machine.execDlStart tool seq t len s
  | .dlData tool seq t off data => Sys2Proof.Machine.execDlData tool seq t off data s
  | .verify tool seq t => Sys2Proof.Machine.execVerify tool seq t s
  | .verifyComplete t sig digests tlSet => Sys2Proof.Machine.execVerifyComplete t sig digests tlSet s
  | .activate tool seq t => Sys2Proof.Machine.execActivate tool seq t s
  | .rollback tool seq t => Sys2Proof.Machine.execRollback tool seq t s
  | .serviceConfirm tool seq t => Sys2Proof.Machine.execServiceConfirm tool seq t s
  | .keeperReset t plan => Sys2Proof.Machine.execKeeperReset t plan s
  | .dbgNonce tool seq t => Sys2Proof.Machine.execDbgNonce tool seq t s
  | .dbgToken tool seq t tok => Sys2Proof.Machine.execDbgToken tool seq t tok s
  | .portToken t tok => Sys2Proof.Machine.execPortToken t tok s
  | .tokenEnd t => Sys2Proof.Machine.execTokenEnd t s
  | .sessionTimeout t => Sys2Proof.Machine.execSessionTimeout t s
  | .trngFailure t => Sys2Proof.Machine.execTrngFailure t s
  | .entropy t => Sys2Proof.Machine.execEntropy t s
  | .submit t => Sys2Proof.Machine.execSubmit t s
  | .claim idx task t => Sys2Proof.Machine.execClaim idx task t s
  | .done idx outcome task t => Sys2Proof.Machine.execDone idx outcome task t s
  | .journalCancel idx t => Sys2Proof.Machine.execJournalCancel idx t s
  | .rptAck q t => Sys2Proof.Machine.execRptAck q t s
  | .replay q t => Sys2Proof.Machine.execReplay q t s
  | .journalDurable t => Sys2Proof.Machine.execJournalDurable t s
  | .claimHoldExpiry task t => Sys2Proof.Machine.execClaimHoldExpiry task t s
  | .ttlExpiry idx t => Sys2Proof.Machine.execTtlExpiry idx t s
  | .journalRecoveryComplete t bad => Sys2Proof.Machine.execJournalRecoveryComplete t bad s
  | .scrubFlash u t step corr bad => Sys2Proof.Machine.execScrubFlash u t step corr bad s
  | .scrubSram u t step bad => Sys2Proof.Machine.execScrubSram u t step bad s
  | .eraseBlock u t step => Sys2Proof.Machine.execEraseBlock u t step s
  | .wearReloc u t step => Sys2Proof.Machine.execWearReloc u t step s
  | .page layer tx ty t step => Sys2Proof.Machine.execPage layer tx ty t step s
  | .logCopy t step => Sys2Proof.Machine.execLogCopy t step s
  | .telemetry t step => Sys2Proof.Machine.execTelemetry t step s
  | .calOn idx t step off gain => Sys2Proof.Machine.execCalOn idx t step off gain s
  | .diagOff idx t step down up => Sys2Proof.Machine.execDiagOff idx t step down up s
  | .coreTest c t step => Sys2Proof.Machine.execCoreTest c t step s
  | .mntCancel slot t => Sys2Proof.Machine.execMntCancel slot t s
  | .activityExpired slot t => Sys2Proof.Machine.execActivityExpired slot t s
  | .subSeq k t => Sys2Proof.Machine.execSubSeq k t s
  | .subTl t => Sys2Proof.Machine.execSubTl t s
  | .subCal t => Sys2Proof.Machine.execSubCal t s
  | .segMap w t => Sys2Proof.Machine.execSegMap w t s
  | .segUnmap w t => Sys2Proof.Machine.execSegUnmap w t s
  | .coreOutCmd c t => Sys2Proof.Machine.execCoreOutCmd c t s
  | .coreIn c t => Sys2Proof.Machine.execCoreIn c t s
  | .prismReturn t => Sys2Proof.Machine.execPrismReturn t s
  | .clockMonitorTrip m t => Sys2Proof.Machine.execClockMonitorTrip m t s
  | .sourceQualified c t => Sys2Proof.Machine.execSourceQualified c t s
  | .lfcalMeasure t cal => Sys2Proof.Machine.execLfcalMeasure t cal s
  | .clockRereport n t => Sys2Proof.Machine.execClockRereport n t s
  | .prismGate v => Sys2Proof.Machine.execPrismGate v s
  | .idleRequest t => Sys2Proof.Machine.execIdleRequest t s
  | .sleepRequest t => Sys2Proof.Machine.execSleepRequest t s
  | .deepRequest t => Sys2Proof.Machine.execDeepRequest t s
  | .offRequest t => Sys2Proof.Machine.execOffRequest t s
  | .entryTmo t => Sys2Proof.Machine.execEntryTmo t s
  | .targetStateReached t plan => Sys2Proof.Machine.execTargetStateReached t plan s
  | .wake src t plan => Sys2Proof.Machine.execWake src t plan s
  | .wakeInput level t => Sys2Proof.Machine.execWakeInput level t s
  | .alarm t plan => Sys2Proof.Machine.execAlarm t plan s
  | .idleFrames t => Sys2Proof.Machine.execIdleFrames t s
  | .pwrWakeSrcRead => Sys2Proof.Machine.execPwrWakeSrcRead s
  | .machReq v => Sys2Proof.Machine.execMachReq v s
  | .undef core w => Sys2Proof.Machine.execUndef core w s
  | .frameLockOfsWrite v => Sys2Proof.Machine.execFrameLockOfsWrite v s
  | .mntRequest kind unit t => Sys2Proof.Machine.execMntRequest kind unit t s
  | .loRegisterRead a t => Sys2Proof.Machine.execLoRegisterRead a t s
  | .debugPortInstruction ins => Sys2Proof.Machine.execDebugPortInstruction ins s
  | .parityError u t => Sys2Proof.Machine.execParityError u t s
  | .logicHot c16 t => Sys2Proof.Machine.execLogicHot c16 t s
  | .logicTsd c16 t => Sys2Proof.Machine.execLogicTsd c16 t s
  | .regFault t => Sys2Proof.Machine.execRegFault t s
  | .pkgLoad mA mW t => Sys2Proof.Machine.execPkgLoad mA mW t s
  | .dieHealth k t cond => Sys2Proof.Machine.execDieHealth k t cond s
  | .vfieldOv t => Sys2Proof.Machine.execVfieldOv t s
  | .barrierSupplyFault t => Sys2Proof.Machine.execBarrierSupplyFault t s
  | .fldHealth t cond => Sys2Proof.Machine.execFldHealth t cond s
  | .accHealth c t => Sys2Proof.Machine.execAccHealth c t s
  | .accLink t => Sys2Proof.Machine.execAccLink t s
  | .lfDrv idx bad mA t => Sys2Proof.Machine.execLfDrv idx bad mA t s
  | .uhfSynthesiserUnlock t => Sys2Proof.Machine.execUhfSynthesiserUnlock t s
  | .electrodeShort e t => Sys2Proof.Machine.execElectrodeShort e t s
  | .transceiverOverTemperature l t => Sys2Proof.Machine.execTransceiverOverTemperature l t s
  | .linDominantTimeout m t => Sys2Proof.Machine.execLinDominantTimeout m t s
  | .ethLinkUp e t sqi => Sys2Proof.Machine.execEthLinkUp e t sqi s
  | .trngResume t => Sys2Proof.Machine.execTrngResume t s
  | .lfDriveSupply ok t => Sys2Proof.Machine.execLfDriveSupply ok t s
  | .busIdle n t => Sys2Proof.Machine.execBusIdle n t s

end Sys2Proof.Machine
end

