-- ==== Sys2Proof/Safety.lean ====
section
/-!
DEFINITION. Sys2Proof/Safety.lean: what a safe run of the device is, in the terms the statements use: a core that is ready for its next
instruction, what a command leaves alone, and the invariants of the state.
-/
namespace Sys2Proof.Machine

/-- The state in which core `c` executes its next instruction: a wait of `WFI` has ended (R131). -/
def State.begun (s : State) (c : Nat) : State :=
  s.setCore c { s.core c with waiting := (s.core c).waiting && s.tMode c }

/-- Core `c` executes its next instruction and the fetch raises nothing. -/
def State.coreReady (s : State) (c : Nat) : Bool :=
  s.coreRuns c && ((s.begun c).fetchExc c ((s.begun c).pc c)).isNone

/-- The tables that stand for memory and for the register fields are in their canonical form. -/
def State.canonical (s : State) : Prop := memWf s.mem = true ∧ Tab.wf fieldReset s.fields = true

/-- Every byte of memory reads as before. -/
def MemoryKept (s t : State) : Prop := ∀ a, t.byte a = s.byte a

/-- Every byte of memory outside `n` bytes from `k` reads as before. -/
def MemoryKeptOutside (k n : Nat) (s t : State) : Prop := ∀ a, a < k ∨ k + n ≤ a → t.byte a = s.byte a

/-- Every register field outside `l` reads as before. -/
def FieldsKept (l : List Fld) (s t : State) : Prop := ∀ f : Fld, f.key ∉ l.map Fld.key → t.get f = s.get f

/-- Only core `c` and the count of free values differ. -/
def OnlyCore (c : Nat) (s t : State) : Prop :=
  t = { s with cores := t.cores, drawn := t.drawn } ∧ ∀ d, d ≠ c → t.core d = s.core d

/-- What an instruction of core `c` that is no system instruction leaves alone of the core: every general register but `gd`, the bank that
is not in use, `LS` and `LE`, the exception and control registers, and the protection regions. -/
structure CoreKept (c gd : Nat) (s t : State) : Prop where
  reg : ∀ r, r ≠ gd → t.reg c r = s.reg c r
  tMode : t.tMode c = s.tMode c
  mirror : t.mirror c = s.mirror c
  sHalf : s.tMode c = true → (t.core c).sBank = (s.core c).sBank ∧ (t.core c).sPc = (s.core c).sPc
  tHalf : s.tMode c = false → (t.core c).tBank = (s.core c).tBank ∧ (t.core c).tPc = (s.core c).tPc
  ls : (t.bank c).ls = (s.bank c).ls
  le : (t.bank c).le = (s.bank c).le
  psr : (t.core c).psr = (s.core c).psr
  epc : (t.core c).epc = (s.core c).epc
  ecause : (t.core c).ecause = (s.core c).ecause
  eaddr : (t.core c).eaddr = (s.core c).eaddr
  epsr : (t.core c).epsr = (s.core c).epsr
  escr : (t.core c).escr = (s.core c).escr
  svec : (t.core c).svec = (s.core c).svec
  ipend : (t.core c).ipend = (s.core c).ipend
  imask : (t.core c).imask = (s.core c).imask
  tcause : (t.core c).tcause = (s.core c).tcause
  tepc : (t.core c).tepc = (s.core c).tepc
  teaddr : (t.core c).teaddr = (s.core c).teaddr
  cycleHi : (t.core c).cycleHi = (s.core c).cycleHi
  mpu : (t.core c).mpuBase = (s.core c).mpuBase ∧ (t.core c).mpuLim = (s.core c).mpuLim ∧ (t.core c).mpuAttr = (s.core c).mpuAttr

/-- A result in complemented form, with the same true-sense flags: what the mirror pass holds of it (R154, R155). -/
def Alu.complemented (x : Alu) : Alu := { x with r := ~~~x.r }

end Sys2Proof.Machine
end

