-- ==== Sys2Proof/Certificates/Slice0/Obligations.lean ====
section
/-!
DEFINITION. Sys2Proof/Certificates/Slice0/Obligations.lean: the statements for the provers. First the statements about the machine as a whole
and about results and frames; then, family by family, what every command answers (its next state, from hypotheses on the state and the
operands alone). In a clause `s' = s.at t` is the state at the instant of the command.
-/
open Sys2Proof Sys2Proof.Machine

/-- A step runs the command at the front of the queue. For every command c, every state s and every rest l of the queue: a step of s with c
in front and l behind is exec c on s with the queue l. A step on an empty queue answers the same state (the model's choice, log entry
61). Model's choices it rests on: log entry 61. -/
def Obligations.StepRunsFront : Prop :=
  (∀ (c : Instr) (s : State) (l : List Instr), s.pending = c :: l → step s = exec c { s with pending := l }) ∧
    (∀ s : State, s.pending = [] → step s = .next s)

/-- What the machine is right after reset. Right after reset the queue is empty, the device has not started and no clock runs commands;
every core is in S mode at address 0 with no exception pending, FL, PSR and every loop count 0; the time base is 0; FRAME_LEN holds 8
and FRAME_STAT shows no running frame; every byte of SRAM reads 0 (the model's choice, log entry 1) and every erased byte of flash 0xFF.
Model's choices it rests on: log entries 1, 2, 12. -/
def Obligations.ResetValues : Prop :=
  State.reset.pending = [] ∧ State.reset.alive = false ∧ State.reset.now = 0 ∧ State.reset.ump.safe = false ∧
    State.reset.get FRAME_LEN_LEN = 8 ∧ State.reset.get FRAME_CTL_RUN = 0 ∧ State.reset.frame.started = false ∧
    (∀ c : Nat, State.reset.tMode c = false ∧ State.reset.pc c = 0 ∧ (State.reset.core c).psr = 0 ∧
      (State.reset.bank c).fl.word = 0 ∧ ∀ n, tget 0 (State.reset.bank c).lc n = 0) ∧
    (∀ a, 0x20000000 ≤ a → a < 0x20800000 → State.reset.byte a = 0) ∧
    (∀ a, 0x40000000 ≤ a → a < 0x43F80000 → State.reset.byte a = 0xFF)

/-- The tables are in canonical form at reset. Memory and the register fields are in their canonical form right after reset. Model's choices
it rests on: log entry 1. -/
def Obligations.ResetCanonical : Prop :=
  State.reset.canonical

/-- Every command answers a next state and leaves the queue alone. In every state, reachable or not, every command answers a next state (no
command of this device faults or is refused), its queue is the one it was given, and free values are only drawn onward. -/
def Obligations.EveryCommandCompletes : Prop :=
  ∀ (i : Instr) (s : State), ∃ t, exec i s = .next t ∧ t.pending = s.pending ∧ s.drawn ≤ t.drawn

/-- Every step keeps memory and registers in canonical form. For every state whose memory and register tables are in canonical form
(addresses strictly rising, no entry equal to what an unlisted address reads as), a step answers a next state whose tables are in
canonical form, whatever command stands in front. -/
def Obligations.CanonicalKept : Prop :=
  ∀ s : State, s.canonical → ∃ t, step s = .next t ∧ t.canonical

/-- No step replaces or removes the identity of the device. Once the identity record holds a public key, every step leaves that key as it
is; and once both copies of a record have failed, no step mends them. -/
def Obligations.IdentityKept : Prop :=
  ∀ s t : State, step s = .next t →
    (∀ k, s.vault.pub = some k → t.vault.pub = some k) ∧ (s.vault.damaged = true → t.vault.damaged = true)

/-- SAFE is left only by a reset of the logic die. From every state in SAFE, a step leads to a state in SAFE, or to one of a logic die that
has been reset and has started no frame since. -/
def Obligations.SafeLeftByResetOnly : Prop :=
  ∀ s t : State, s.ump.safe = true → step s = .next t → t.ump.safe = true ∨ t.frame.started = false

/-- The time base does not fall back but at a reset. From every state, a step leads to a state whose time base is not earlier, or to one of
a logic die that has been reset and has started no frame since. -/
def Obligations.TimeNeverFallsBack : Prop :=
  ∀ s t : State, step s = .next t → s.now ≤ t.now ∨ t.frame.started = false

/-- g0 holds true zero. g0 reads 0 in S mode and in the primary pass and 0xFFFF_FFFF in the mirror pass; a write to it is discarded; an
instruction with g0 as its destination sets the flags that it sets with any other destination. Rule R120. -/
def Obligations.TrueZero : Prop :=
  (∀ (s : State) (c : Nat), s.reg c 0 = if s.mirror c then 0xFFFFFFFF else 0x00000000) ∧
    (∀ (s : State) (c : Nat) (w : Word), s.setReg c 0 w = s) ∧
    (∀ (s : State) (c gd : Nat) (x : Alu), ((s.result c 0 x).bank c).fl = x.flags (s.bank c).fl ∧
      ((s.result c gd x).bank c).fl = ((s.result c 0 x).bank c).fl)

/-- Shift results at the limits. For every word a: by 0 each shift gives a and leaves C; by 1 to 31 C is the last bit shifted out, for ROR
bit 31 of the rotation by k; by 32 LSL and LSR give 0 with C = a[0] and a[31], ASR gives all a[31] with C = a[31], ROR the rotation by k
mod 32 with C = result[31]; by 33 and more LSL and LSR give 0 with C = 0, ASR and ROR act as by 32. Rule R136. -/
def Obligations.ShiftLimits : Prop :=
  ∀ (a : Word) (f : Flags) (op : Shift),
    ((op.run false a 0).r = a ∧ ((op.run false a 0).flags f).c = f.c) ∧
    (∀ k, 1 ≤ k → k ≤ 31 →
      ((Shift.lsl.run false a k).flags f).c = a.getLsbD (32 - k) ∧ ((Shift.lsr.run false a k).flags f).c = a.getLsbD (k - 1) ∧
      ((Shift.asr.run false a k).flags f).c = a.getLsbD (k - 1) ∧
      (Shift.ror.run false a k).r = a.rotateRight k ∧ ((Shift.ror.run false a k).flags f).c = (a.rotateRight k).getLsbD 31) ∧
    ((Shift.lsl.run false a 32).r = 0 ∧ ((Shift.lsl.run false a 32).flags f).c = a.getLsbD 0 ∧
      (Shift.lsr.run false a 32).r = 0 ∧ ((Shift.lsr.run false a 32).flags f).c = a.getLsbD 31) ∧
    (∀ k, 33 ≤ k → (Shift.lsl.run false a k).r = 0 ∧ ((Shift.lsl.run false a k).flags f).c = false ∧
      (Shift.lsr.run false a k).r = 0 ∧ ((Shift.lsr.run false a k).flags f).c = false) ∧
    (∀ k, 32 ≤ k →
      (Shift.asr.run false a k).r = (if a.getLsbD 31 then 0xFFFFFFFF else 0) ∧ ((Shift.asr.run false a k).flags f).c = a.getLsbD 31 ∧
      (Shift.ror.run false a k).r = a.rotateRight (k % 32) ∧
      ((Shift.ror.run false a k).flags f).c = (a.rotateRight (k % 32)).getLsbD 31)

/-- Division at its limits. Division by 0 gives 0xFFFF_FFFF as quotient and the dividend as remainder; 0x8000_0000 by 0xFFFF_FFFF, signed,
gives 0x8000_0000 and 0; V is set in these cases and cleared in every other one; no exception is raised for them. Rule R137. -/
def Obligations.DivisionLimits : Prop :=
  (∀ (a : Word) (f : Flags), (Div.quoU.run false a 0).r = 0xFFFFFFFF ∧ (Div.quoS.run false a 0).r = 0xFFFFFFFF ∧
      (Div.remU.run false a 0).r = a ∧ (Div.remS.run false a 0).r = a ∧ ∀ op : Div, ((op.run false a 0).flags f).v = true) ∧
    (∀ f : Flags, (Div.quoS.run false 0x80000000 0xFFFFFFFF).r = 0x80000000 ∧ (Div.remS.run false 0x80000000 0xFFFFFFFF).r = 0 ∧
      ((Div.quoS.run false 0x80000000 0xFFFFFFFF).flags f).v = true ∧ ((Div.remS.run false 0x80000000 0xFFFFFFFF).flags f).v = true) ∧
    (∀ (a b : Word) (f : Flags), b ≠ 0 → ((Div.quoU.run false a b).flags f).v = false ∧ ((Div.remU.run false a b).flags f).v = false ∧
      (¬(a = 0x80000000 ∧ b = 0xFFFFFFFF) →
        ((Div.quoS.run false a b).flags f).v = false ∧ ((Div.remS.run false a b).flags f).v = false)) ∧
    (∀ (core : Fin 4) (gd ga gb : Fin 32) (s : State) (i : Instr) (op : Div),
      (i, op) ∈ [(Instr.divs core gd ga gb true, Div.quoS), (.divu core gd ga gb true, .quoU), (.rems core gd ga gb true, .remS),
        (.remu core gd ga gb true, .remU)] → s.coreReady core →
      exec i s = .next (advance core 18 ((s.begun core).result core gd (op.run ((s.begun core).mirror core) ((s.begun core).reg core ga)
        ((s.begun core).reg core gb)))))

/-- The condition codes. Each of the codes 0x0 to 0xE is taken exactly when its condition on the flags holds; code 0xF takes the UNDEF
exception in B and in SEL. Rule R144. -/
def Obligations.ConditionCodes : Prop :=
  (∀ f : Flags, (f.holds 0 ↔ f.z) ∧ (f.holds 1 ↔ ¬f.z) ∧ (f.holds 2 ↔ f.c) ∧ (f.holds 3 ↔ ¬f.c) ∧ (f.holds 4 ↔ f.n) ∧
      (f.holds 5 ↔ ¬f.n) ∧ (f.holds 6 ↔ f.v) ∧ (f.holds 7 ↔ ¬f.v) ∧ (f.holds 8 ↔ f.c ∧ ¬f.z) ∧ (f.holds 9 ↔ ¬f.c ∨ f.z) ∧
      (f.holds 10 ↔ f.n = f.v) ∧ (f.holds 11 ↔ f.n ≠ f.v) ∧ (f.holds 12 ↔ ¬f.z ∧ f.n = f.v) ∧ (f.holds 13 ↔ f.z ∨ f.n ≠ f.v) ∧
      f.holds 14) ∧
    (∀ (core : Fin 4) (gd ga gb : Fin 32) (disp : BitVec 22) (s : State), s.coreReady core →
      exec (.br core 15 disp) s = .next (takeExc core { cause := 1 } (s.begun core)) ∧
      exec (.sel core gd ga gb 15) s = .next (takeExc core { cause := 1 } (s.begun core)))

/-- Sums and differences with their flags. In the primary pass and in S mode ADD, ADC, SUB and SBC give the sum and the difference, with the
carry and the borrow, modulo 2^32; N is result[31], Z says that the result is 0, C is the carry out of a sum and says of a difference
that there was no borrow, V is the signed overflow; the logic operations leave C and V as they were. -/
def Obligations.AdderResults : Prop :=
  ∀ (a b : Word) (c : Bool) (f : Flags),
    (∀ op : Bin, ((op.run false a b c).flags f).n = (op.run false a b c).r.getLsbD 31 ∧
      ((op.run false a b c).flags f).z = ((op.run false a b c).r == 0)) ∧
    ((Bin.add.run false a b c).r = a + b ∧ (((Bin.add.run false a b c).flags f).c ↔ 2 ^ 32 ≤ a.toNat + b.toNat) ∧
      (((Bin.add.run false a b c).flags f).v ↔ a.toInt + b.toInt < -(2 ^ 31) ∨ 2 ^ 31 ≤ a.toInt + b.toInt)) ∧
    ((Bin.adc.run false a b c).r = a + b + (if c then 1 else 0) ∧
      (((Bin.adc.run false a b c).flags f).c ↔ 2 ^ 32 ≤ a.toNat + b.toNat + (if c then 1 else 0)) ∧
      (((Bin.adc.run false a b c).flags f).v ↔
        a.toInt + b.toInt + (if c then 1 else 0) < -(2 ^ 31) ∨ 2 ^ 31 ≤ a.toInt + b.toInt + (if c then 1 else 0))) ∧
    ((Bin.sub.run false a b c).r = a - b ∧ (((Bin.sub.run false a b c).flags f).c ↔ b.toNat ≤ a.toNat) ∧
      (((Bin.sub.run false a b c).flags f).v ↔ a.toInt - b.toInt < -(2 ^ 31) ∨ 2 ^ 31 ≤ a.toInt - b.toInt)) ∧
    ((Bin.sbc.run false a b c).r = a - b - (if c then 0 else 1) ∧
      (((Bin.sbc.run false a b c).flags f).c ↔ b.toNat + (if c then 0 else 1) ≤ a.toNat) ∧
      (((Bin.sbc.run false a b c).flags f).v ↔
        a.toInt - b.toInt - (if c then 0 else 1) < -(2 ^ 31) ∨ 2 ^ 31 ≤ a.toInt - b.toInt - (if c then 0 else 1))) ∧
    (∀ op ∈ [Bin.and, .or, .xor, .andn, .orn, .xnor],
      ((op.run false a b c).flags f).c = f.c ∧ ((op.run false a b c).flags f).v = f.v) ∧
    ((Bin.and.run false a b c).r = a &&& b ∧ (Bin.or.run false a b c).r = a ||| b ∧ (Bin.xor.run false a b c).r = a ^^^ b ∧
      (Bin.andn.run false a b c).r = a &&& ~~~b ∧ (Bin.orn.run false a b c).r = a ||| ~~~b ∧
      (Bin.xnor.run false a b c).r = ~~~(a ^^^ b))

/-- The mirror operation gives the complement of the primary result and the same flags. For all true operands, every data operation run in
the mirror pass on the complemented operands gives the complement of the result of the primary pass, and its true-sense flags are those
of the primary pass: sums, differences, logic, shifts, products, quotients, CLZ, bit-field instructions whose field lies in the word,
and PERM with a legal selector. -/
def Obligations.MirrorComplements : Prop :=
  (∀ (op : Bin) (a b : Word) (c : Bool), op.run true (~~~a) (~~~b) c = (op.run false a b c).complemented) ∧
    (∀ (op : Shift) (a : Word) (k : Nat), op.run true (~~~a) k = (op.run false a k).complemented) ∧
    (∀ (op : Mul) (a b : Word), op.run true (~~~a) (~~~b) = (op.run false a b).complemented) ∧
    (∀ (op : Div) (a b : Word), op.run true (~~~a) (~~~b) = (op.run false a b).complemented) ∧
    (∀ a : Word, clzRun true (~~~a) = (clzRun false a).complemented) ∧
    (∀ (d a : Word) (pos w : Nat), 1 ≤ w → pos + w ≤ 32 →
      bfxRun true (~~~a) pos w = (bfxRun false a pos w).complemented ∧
      bfxsRun true (~~~a) pos w = (bfxsRun false a pos w).complemented ∧
      bfiRun true (~~~d) (~~~a) pos w = (bfiRun false d a pos w).complemented) ∧
    (∀ (d a : Word) (sel : BitVec 16), permOk sel →
      permRun true (~~~d) (~~~a) sel = (permRun false d a sel).complemented)

/-- The loop levels at the end of an instruction. When an instruction at address a retires without a taken branch, the levels 2, 1, 0 are
checked in this order. A level n whose LCn is not 0 and whose LEn is a counts as ending here. If one with LCn above 1 comes after none
but such with LC 1, LCn is decremented, execution continues at LSn, the levels above it that end here have become 0 and no other count
changes. If there is none, every level that ends here becomes 0 and execution falls through to a + 4. An instruction that retires passes
through this check. Rule R146. -/
def Obligations.LoopLevels : Prop :=
  (∀ (a : Word) (b : Bank) (n : Nat), n < 3 → tget 0 b.lc n ≠ 0 → tget 0 b.lc n ≠ 1 → tget 0 b.le n = a →
      (∀ m, n < m → m < 3 → tget 0 b.lc m ≠ 0 → tget 0 b.le m = a → tget 0 b.lc m = 1) →
      (loopBack a 3 b).2 = tget 0 b.ls n ∧ tget 0 (loopBack a 3 b).1.lc n = tget 0 b.lc n - 1 ∧
      (∀ m, n < m → m < 3 → tget 0 b.lc m ≠ 0 → tget 0 b.le m = a → tget 0 (loopBack a 3 b).1.lc m = 0) ∧
      (∀ m, (m < n ∨ 3 ≤ m ∨ (m ≠ n ∧ (tget 0 b.lc m = 0 ∨ tget 0 b.le m ≠ a))) →
        tget 0 (loopBack a 3 b).1.lc m = tget 0 b.lc m)) ∧
    (∀ (a : Word) (b : Bank), (∀ m, m < 3 → tget 0 b.lc m ≠ 0 → tget 0 b.le m = a → tget 0 b.lc m = 1) →
      (loopBack a 3 b).2 = a + 4 ∧
      ∀ m, tget 0 (loopBack a 3 b).1.lc m = if m < 3 ∧ tget 0 b.le m = a then 0 else tget 0 b.lc m) ∧
    (∀ (core : Fin 4) (s : State), s.coreReady core → exec (.nop core) s = .next (retired core (spend core 1
      (((s.begun core).setBank core (loopBack ((s.begun core).pc core) 3 ((s.begun core).bank core)).1).setPc core
        (loopBack ((s.begun core).pc core) 3 ((s.begun core).bank core)).2))))

/-- An exception in S mode. An exception in S mode with EXL 0 writes EPC with the address of the instruction, EADDR with the faulting
address or target where the exception has one, ECAUSE with the cause and EPSR with the old PSR, sets EXL, clears IE and goes on at SVEC.
With EXL 1 it stops the core, and source 64 + n reports for core Xn. An exception that a source of its own goes with does the same, and
that source reports after it. Rule R130. Model's choices it rests on: log entries 13, 14. -/
def Obligations.SModeException : Prop :=
  (∀ (c : Nat) (x : Exc) (s : State), s.tMode c = false → x.src = none → x.cause < 16 → (s.core c).exl = false →
      ((takeExc c x s).core c).epc = s.pc c ∧ (∀ a, x.addr = some a → ((takeExc c x s).core c).eaddr = a) ∧
      ((takeExc c x s).core c).ecause.toNat % 16 = x.cause ∧ ((takeExc c x s).core c).epsr = (s.core c).psr ∧
      ((takeExc c x s).core c).exl = true ∧ ((takeExc c x s).core c).ie = false ∧ (takeExc c x s).pc c = (s.core c).svec) ∧
    (∀ (c : Nat) (x : Exc) (s : State), s.tMode c = false → x.src = none → (s.core c).exl = true →
      takeExc c x s = report (64 + c) (s.setCore c { s.core c with stopped := true })) ∧
    (∀ (c n : Nat) (x : Exc) (s : State), s.tMode c = false → x.src = some n →
      takeExc c x s = reportFull n 0 0 false (takeExc c { x with src := none } s))

/-- Where an instruction takes an exception instead. On a core that runs, an instruction whose fetch is refused takes the exception of the
fetch. On a ready core an access that R77, the protection, the alignment or the memory map refuses takes that exception; a field outside
the word and an illegal PERM selector take UNDEF; a failed residue check takes DPCHECK, with source 72 + n; a control register that T
mode may not reach, ERET and WFI in T mode take PRIV. Model's choices it rests on: log entry 14. -/
def Obligations.InstructionExceptions : Prop :=
  (∀ (core : Fin 4) (gd ga gb : Fin 32) (imm : BitVec 16) (x : Exc) (s : State) (i : Instr),
      i ∈ [Instr.add core gd ga gb, .sub core gd ga gb, .adc core gd ga gb, .sbc core gd ga gb, .andR core gd ga gb, .orR core gd ga gb,
        .xorR core gd ga gb, .andn core gd ga gb, .orn core gd ga gb, .xnor core gd ga gb, .cmp core ga gb, .tst core ga gb,
        .mul core gd ga gb, .mulhs core gd ga gb, .mulhu core gd ga gb, .addi core gd ga imm, .lw core gd ga imm, .sw core gd ga imm,
        .jr core ga, .nop core, .sync core, .eret core, .wfi core] →
      s.coreRuns core → (s.begun core).fetchExc core ((s.begun core).pc core) = some x →
      exec i s = .next (takeExc core x (s.begun core))) ∧
    (∀ (core : Fin 4) (gd ga : Fin 32) (imm : BitVec 16) (x : Exc) (s : State) (i : Instr) (st : Bool) (n : Nat),
      (i, st, n) ∈ [(Instr.lw core gd ga imm, false, 4), (.lh core gd ga imm, false, 2), (.lhu core gd ga imm, false, 2),
        (.lb core gd ga imm, false, 1), (.lbu core gd ga imm, false, 1), (.sw core gd ga imm, true, 4), (.sh core gd ga imm, true, 2),
        (.sb core gd ga imm, true, 1)] →
      s.coreReady core → (s.begun core).accessExc core st ((s.begun core).address core ga imm) n = some x →
      exec i s = .next (takeExc core x (s.begun core))) ∧
    (∀ (core : Fin 4) (gd ga pos w1 : Fin 32) (sl : BitVec 16) (s : State), s.coreReady core →
      (32 < pos.val + w1.val + 1 →
        exec (.bfx core gd ga pos w1) s = .next (takeExc core { cause := 1 } (s.begun core)) ∧
        exec (.bfxs core gd ga pos w1) s = .next (takeExc core { cause := 1 } (s.begun core)) ∧
        exec (.bfi core gd ga pos w1) s = .next (takeExc core { cause := 1 } (s.begun core))) ∧
      (permOk sl = false → exec (.perm core gd ga sl) s = .next (takeExc core { cause := 1 } (s.begun core)))) ∧
    (∀ (core : Fin 4) (gd ga gb : Fin 32) (s : State) (i : Instr),
      i ∈ [Instr.divs core gd ga gb false, .divu core gd ga gb false, .rems core gd ga gb false, .remu core gd ga gb false] →
      s.coreReady core → exec i s = .next (takeExc core { cause := 10, src := some (72 + core.val) } (s.begun core))) ∧
    (∀ (core : Fin 4) (gd ga : Fin 32) (cr : Fin 1024) (s : State), s.coreReady core → s.tMode core →
      (tReads cr = false → exec (.mfc core gd cr) s = .next (takeExc core { cause := 2 } (s.begun core))) ∧
      (tWrites cr = false → exec (.mtc core cr ga) s = .next (takeExc core { cause := 2 } (s.begun core))) ∧
      exec (.eret core) s = .next (takeExc core { cause := 2 } (s.begun core)) ∧
      exec (.wfi core) s = .next (takeExc core { cause := 2 } (s.begun core)))

/-- What a data instruction leaves alone. On a ready core with none of its exceptions, each data instruction, SEL, NOP, SYNC and MFC but of
CYCLE changes the core it runs on and the count of free values and nothing else of the device: memory, registers of the blocks and the
other cores stay. Of its own core it leaves the general registers but its destination, the bank not in use, the exception and control
registers, the protection regions, LS and LE, and the flags that R145 does not give it. A write that a replay delivers to the core after
the instruction is the debugger's and comes on top. Model's choices it rests on: log entry 7. -/
def Obligations.InstructionFrame : Prop :=
  ∀ (core : Fin 4) (gd ga gb sh pos w1 : Fin 32) (cond : Fin 16) (imm : BitVec 16) (sl : BitVec 16) (cr : Fin 1024) (s : State)
      (i : Instr) (d : Nat) (nz c v : Bool),
    s.coreReady core → pos.val + w1.val + 1 ≤ 32 → permOk sl → cond ≠ 15 → cr.val ≠ 14 → cr.val ≠ 15 →
    (s.tMode core = false ∨ tReads cr) →
    (i, d, nz, c, v) ∈ [
      (Instr.add core gd ga gb, gd.val, false, false, false), (.sub core gd ga gb, gd.val, false, false, false),
      (.adc core gd ga gb, gd.val, false, false, false), (.sbc core gd ga gb, gd.val, false, false, false),
      (.addi core gd ga imm, gd.val, false, false, false), (.cmp core ga gb, 0, false, false, false),
      (.cmpi core ga imm, 0, false, false, false), (.andR core gd ga gb, gd.val, false, true, true),
      (.orR core gd ga gb, gd.val, false, true, true), (.xorR core gd ga gb, gd.val, false, true, true),
      (.andn core gd ga gb, gd.val, false, true, true), (.orn core gd ga gb, gd.val, false, true, true),
      (.xnor core gd ga gb, gd.val, false, true, true), (.tst core ga gb, 0, false, true, true),
      (.andi core gd ga imm, gd.val, false, true, true), (.ori core gd ga imm, gd.val, false, true, true),
      (.xori core gd ga imm, gd.val, false, true, true), (.tsti core ga imm, 0, false, true, true),
      (.movhi core gd imm, gd.val, false, true, true), (.lsl core gd ga gb, gd.val, false, false, true),
      (.lsr core gd ga gb, gd.val, false, false, true), (.asr core gd ga gb, gd.val, false, false, true),
      (.ror core gd ga gb, gd.val, false, false, true), (.lsli core gd ga sh, gd.val, false, false, true),
      (.lsri core gd ga sh, gd.val, false, false, true), (.asri core gd ga sh, gd.val, false, false, true),
      (.rori core gd ga sh, gd.val, false, false, true), (.mul core gd ga gb, gd.val, false, true, true),
      (.mulhs core gd ga gb, gd.val, false, true, true), (.mulhu core gd ga gb, gd.val, false, true, true),
      (.divs core gd ga gb true, gd.val, false, true, false), (.divu core gd ga gb true, gd.val, false, true, false),
      (.rems core gd ga gb true, gd.val, false, true, false), (.remu core gd ga gb true, gd.val, false, true, false),
      (.clz core gd ga, gd.val, false, true, true), (.bfx core gd ga pos w1, gd.val, false, true, true),
      (.bfxs core gd ga pos w1, gd.val, false, true, true), (.bfi core gd ga pos w1, gd.val, false, true, true),
      (.perm core gd ga sl, gd.val, false, true, true), (.sel core gd ga gb cond, gd.val, true, true, true),
      (.mfc core gd cr, gd.val, true, true, true), (.nop core, 0, true, true, true), (.sync core, 0, true, true, true)] →
    ∃ u, exec i s = .next (deliver core u) ∧ OnlyCore core s u ∧ CoreKept core d s u ∧
      (nz → (u.bank core).fl.n = (s.bank core).fl.n ∧ (u.bank core).fl.z = (s.bank core).fl.z) ∧
      (c → (u.bank core).fl.c = (s.bank core).fl.c) ∧ (v → (u.bank core).fl.v = (s.bank core).fl.v)

/-- What a branch or jump leaves alone. On a ready core, a branch or jump that takes no exception and does not reach the pass-end gate
changes the core it runs on and the count of free values and nothing else of the device. Of its own core it leaves the general registers
but its link (g31 for BL, gd for JALR), every flag, LS and LE, the bank not in use, the exception and control registers and the
protection regions; a taken one continues at its target. Model's choices it rests on: log entry 7. -/
def Obligations.BranchFrame : Prop :=
  ∀ (core : Fin 4) (gd ga : Fin 32) (cond : Fin 16) (disp : BitVec 22) (disp26 : BitVec 26) (s : State) (i : Instr) (d : Nat) (a : Word),
    s.coreReady core → cond ≠ 15 → (s.begun core).jumpExc core ga = none → (s.tMode core = false ∨ a ≠ passGate) →
    (i, d, a) ∈ [(Instr.br core cond disp, 0, dispTo (s.pc core) (disp.signExtend 32)),
      (.bl core disp26, 31, dispTo (s.pc core) (disp26.signExtend 32)), (.jr core ga, 0, s.steer core ga),
      (.jalr core gd ga, gd.val, s.steer core ga)] →
    ∃ u, exec i s = .next (deliver core u) ∧ OnlyCore core s u ∧ CoreKept core d s u ∧ (u.bank core).fl = (s.bank core).fl ∧
      ((s.bank core).fl.holds cond ∨ i ≠ .br core cond disp → u.pc core = a) ∧
      (d = 31 → i = .bl core disp26 → u.reg core 31 = s.sense core (s.pc core + 4))

/-- What MTC writes and leaves alone. On a ready core that may write it, MTC gives a control register the true value of its source in the
bits that the register has, a read-only or unassigned number nothing, IPEND the bits not written 1; it changes the core it runs on and
the count of free values and nothing else of the device, no general register, and no other control register (CYCLE counts on, and a loop
may end with the instruction). Model's choices it rests on: log entry 7. -/
def Obligations.ControlRegisters : Prop :=
  ∀ (core : Fin 4) (cr : Fin 1024) (ga : Fin 32) (s : State), s.coreReady core → (s.tMode core = false ∨ tWrites cr) →
    ∃ u, exec (.mtc core cr ga) s = .next (deliver core u) ∧ OnlyCore core s u ∧ (∀ r, u.reg core r = s.reg core r) ∧
      (∀ k, k ≠ cr.val → k ≠ 14 → k ≠ 15 → ¬(22 ≤ k ∧ k ≤ 24) → u.ctrl core k = s.ctrl core k) ∧
      (cr.val = 0 → u.ctrl core 0 = s.steer core ga &&& 0xF0000000) ∧
      (cr.val = 1 → u.ctrl core 1 = s.steer core ga &&& 0xE0) ∧
      (cr.val = 3 → u.ctrl core 3 = s.steer core ga &&& 0xFFFF001F) ∧
      (cr.val = 7 → u.ctrl core 7 = s.steer core ga &&& 0xFFFFFF00) ∧
      (cr.val = 8 ∨ cr.val = 11 ∨ cr.val = 12 ∨ cr.val = 13 → u.ctrl core cr = s.ctrl core cr) ∧
      (cr.val = 9 → u.ctrl core 9 = s.ctrl core 9 &&& ~~~(s.steer core ga)) ∧
      (cr.val = 2 ∨ cr.val = 4 ∨ cr.val = 5 ∨ cr.val = 6 ∨ cr.val = 10 ∨ (16 ≤ cr.val ∧ cr.val ≤ 21) →
        u.ctrl core cr = s.steer core ga) ∧
      (32 ≤ cr.val → cr.val < 48 → u.ctrl core cr = s.steer core ga &&& 0xFFFFFFE0) ∧
      (48 ≤ cr.val → cr.val < 64 → u.ctrl core cr = s.steer core ga ||| 31) ∧
      (64 ≤ cr.val → cr.val < 80 → u.ctrl core cr = s.steer core ga &&& 0x7F)

/-- What a store to memory writes and leaves alone. On a ready core, a store that raises no exception and whose address lies in memory
writes the low bytes of its source register, in little-endian order, from the place of its address on (in a pass the place that R77
relocates it to); every byte of memory outside them, the registers of the blocks, the other cores and every general register and flag
stay as they were; in a pass its entry in the signature lane of its task is added. A write that a replay delivers to the core after the
instruction comes on top. -/
def Obligations.StoreFrame : Prop :=
  ∀ (core : Fin 4) (gd ga : Fin 32) (imm : BitVec 16) (s : State) (i : Instr) (n key : Nat) (flip : Bool),
    (i, n) ∈ [(Instr.sw core gd ga imm, 4), (.sh core gd ga imm, 2), (.sb core gd ga imm, 1)] → s.coreReady core →
    (s.begun core).accessExc core true ((s.begun core).address core ga imm) n = none →
    (s.begun core).place core true ((s.begun core).address core ga imm).toNat = .cell key flip →
    ∃ u, exec i s = .next (deliver core u) ∧ MemoryKeptOutside key n s u ∧
      (∀ j, j < n → u.byte (key + j) = (s.reg core gd).extractLsb' (8 * j) 8) ∧ FieldsKept [] s u ∧
      { u with cores := s.cores, mem := s.mem, drawn := s.drawn, frame := { u.frame with runs := s.frame.runs } } = s ∧
      (∀ d, d ≠ core.val → u.core d = s.core d) ∧ (∀ r, u.reg core r = s.reg core r) ∧ (u.bank core).fl = (s.bank core).fl ∧
      ((s.core core).pass = none → u.frame = s.frame) ∧
      (∀ p, (s.core core).pass = some p → u.frame =
        (signStore p.task p.mirror ((s.begun core).address core ga imm).toNat n (s.reg core gd) s).frame)

/-- What a load gives and leaves alone. On a ready core, a load that raises no exception and whose address lies in memory gives its register
the bytes from the place of its address on, in little-endian order, extended by sign or with zeros (with ones in the mirror pass; data
from flash, boot ROM and the published window complemented first), and changes the core it runs on and the count of free values and
nothing else. -/
def Obligations.LoadResult : Prop :=
  ∀ (core : Fin 4) (gd ga : Fin 32) (imm : BitVec 16) (s : State) (i : Instr) (n key : Nat) (sgn flip : Bool),
    (i, n, sgn) ∈ [(Instr.lw core gd ga imm, 4, false), (.lh core gd ga imm, 2, true), (.lhu core gd ga imm, 2, false),
      (.lb core gd ga imm, 1, true), (.lbu core gd ga imm, 1, false)] → s.coreReady core →
    (s.begun core).accessExc core false ((s.begun core).address core ga imm) n = none →
    (s.begun core).place core false ((s.begun core).address core ga imm).toNat = .cell key flip →
    ∃ u, exec i s = .next (deliver core u) ∧ OnlyCore core s u ∧ CoreKept core gd s u ∧ (u.bank core).fl = (s.bank core).fl ∧
      (gd.val ≠ 0 → ∀ j, j < 32 → (u.reg core gd).getLsbD j =
        if j < 8 * n then ((s.byte (key + j / 8)).getLsbD (j % 8) != flip)
        else if sgn then ((s.byte (key + n - 1)).getLsbD 7 != flip) else s.mirror core)

/-- A captured store becomes a commit entry. In a pass, on a ready core, a word store whose target R77 captures and for which the lane has
room adds one entry, the true address and the value as the pass holds it, to the commit lane of its pass, the primary one as it is and
the mirror one in complemented form; memory, the registers of the blocks and the other lane of the task stay as they were. Rule R81. -/
def Obligations.CapturedStore : Prop :=
  ∀ (core : Fin 4) (gd ga : Fin 32) (imm : BitVec 16) (s : State) (p : Pass), s.coreReady core → (s.core core).pass = some p →
    (s.begun core).accessExc core true ((s.begun core).address core ga imm) 4 = none →
    (s.begun core).place core true ((s.begun core).address core ga imm).toNat = .capture → s.cmtFull p.task p.mirror = false →
    ∃ u, exec (.sw core gd ga imm) s = .next (deliver core u) ∧
      (p.mirror = false → (u.run p.task).primCmt = (s.run p.task).primCmt ++ [(((s.begun core).address core ga imm).toNat, s.reg core gd)] ∧
        (u.run p.task).mirrCmt = (s.run p.task).mirrCmt) ∧
      (p.mirror = true → (u.run p.task).mirrCmt = (s.run p.task).mirrCmt ++ [(((s.begun core).address core ga imm).toNat, s.reg core gd)] ∧
        (u.run p.task).primCmt = (s.run p.task).primCmt) ∧
      MemoryKept s u ∧ FieldsKept [] s u ∧ (∀ r, u.reg core r = s.reg core r)

/-- AGREE in the mirror pass. In the mirror pass, on a ready core, the k-th AGREE performs no read: it takes the complement of the k-th
logged value, marks the task when its decoded address is not the k-th logged address, and changes no memory, no register of a block and
no other general register. Rule R95. -/
def Obligations.AgreeInMirrorPass : Prop :=
  ∀ (core : Fin 4) (gd ga : Fin 32) (imm : BitVec 16) (s : State) (p : Pass) (a : Nat) (w : Word), s.coreReady core →
    (s.core core).pass = some p → p.mirror = true → (s.begun core).agreeExc core p ((s.begun core).address core ga imm) = none →
    (s.run p.task).log[(s.run p.task).logUsed]? = some (a, w) →
    ∃ u, exec (.agree core gd ga imm) s = .next (deliver core u) ∧ (gd.val ≠ 0 → u.reg core gd = ~~~w) ∧
      (u.run p.task).logUsed = (s.run p.task).logUsed + 1 ∧ (u.run p.task).log = (s.run p.task).log ∧
      ((u.run p.task).agreeBad ↔ (s.run p.task).agreeBad ∨ a ≠ ((s.begun core).address core ga imm).toNat) ∧
      MemoryKept s u ∧ FieldsKept [] s u ∧ (∀ r, r ≠ gd.val → u.reg core r = s.reg core r) ∧ (u.bank core).fl = (s.bank core).fl

/-- The degradation level is the highest of its contributions. Outside SAFE, in a device whose frames have started, the level is at least
the firmware floor and at least 1, 2 and 3 for each source that is not CLEAR with code 3, 4 and 5, and it is one of these; in SAFE it is
4. FLOOR, written, counts at once. Model's choices it rests on: log entry 27. -/
def Obligations.DegradationLevel : Prop :=
  (∀ s : State, s.ump.safe = true → s.level = 4) ∧
    (∀ s : State, s.ump.safe = false → s.frame.started = true →
      s.get UMP_CTL_FLOOR ≤ s.level ∧
      (∀ n, (s.src n).state ≠ .clear → ((s.src n).code = 3 → 1 ≤ s.level) ∧ ((s.src n).code = 4 → 2 ≤ s.level) ∧
        ((s.src n).code = 5 → 3 ≤ s.level)) ∧
      (s.level = s.get UMP_CTL_FLOOR ∨ ∃ e ∈ s.ump.srcs, e.2.state ≠ .clear ∧
        ((e.2.code = 3 ∧ s.level = 1) ∨ (e.2.code = 4 ∧ s.level = 2) ∨ (e.2.code = 5 ∧ s.level = 3)))) ∧
    (∀ (v : BitVec 2) (s t : State), exec (.floorLevel v) s = .next t → s.ump.safe = false → s.frame.started = true →
      v.toNat ≤ t.level ∧ FieldsKept [UMP_CTL_FLOOR] s t ∧ { t with fields := s.fields } = s)

/-- Where a capture is stored. A capture of a channel whose window is not frozen goes to V, setting NEW when it was 0 and CAP_OVR when it
was 1; of one whose window is frozen it goes to B, setting CAP_OVR when B was occupied and no flag when it was empty; the other flags
and the other part of the window stay. Rule R370. -/
def Obligations.CaptureWindow : Prop :=
  ∀ (x : TmrChan) (lo hi : Nat),
    (x.frozen = false → x.flags.testBit 5 = false →
      storeCapture x lo hi = { x with capLo := lo, capHi := hi, flags := setBit x.flags 5 }) ∧
    (x.frozen = false → x.flags.testBit 5 = true →
      storeCapture x lo hi = { x with capLo := lo, capHi := hi, flags := setBit x.flags 3 }) ∧
    (x.frozen = true → x.buf = none → storeCapture x lo hi = { x with buf := some (lo, hi) }) ∧
    (x.frozen = true → x.buf ≠ none → storeCapture x lo hi = { x with buf := some (lo, hi), flags := setBit x.flags 3 })

/-- The frame length. The frame length is LEN times 125 µs; a write of LEN outside 2 to 80 leaves LEN as it was, a write that keeps it
within its limits and the others within theirs, while the lock is off, stores it; the reset value is 8. Rule R50. -/
def Obligations.FrameLength : Prop :=
  (∀ x : Frame, x.f = x.len * us 125) ∧ State.reset.get FRAME_LEN_LEN = 8 ∧ 8 * us 125 = ms 1 ∧ 2 * us 125 = us 250 ∧ 80 * us 125 = ms 10 ∧
    (∀ (v : BitVec 7) (s : State), s.clocks → (v.toNat < 2 ∨ 80 < v.toNat) → exec (.frameLenWrite v) s = .next (report 34 s)) ∧
    (∀ (v : BitVec 7) (s : State), s.clocks → s.lockSrc = 0 →
      timingOk v.toNat (s.get FRAME_MARGIN_MARGIN_US) (s.get FRAME_CUTRES_RES_US) →
      budgetOk s.taskList v.toNat (s.get FRAME_MARGIN_MARGIN_US) (s.get FRAME_CUTRES_RES_US) →
      exec (.frameLenWrite v) s = .next (s.put FRAME_LEN_LEN v.toNat))

/-- The machine state follows its request and IGN_OK. A request RUNNING while IGN_OK is low is ignored; any other request outside an entry
under way is stored, and the state follows it (request 3 acts as 0, the model's choice); after IGN_OK falls the machine is not RUNNING;
it is PARKED right after reset. Model's choices it rests on: log entry 71. -/
def Obligations.MachineState : Prop :=
  (∀ s : State, s.alive → s.pwr.ign = false → exec (.machReq 2) s = .next s) ∧
    (∀ (v : BitVec 2) (s t : State), s.alive → s.get PWR_STAT_PHASE = 0 → (v.toNat = 2 → s.pwr.ign = true) →
      exec (.machReq v) s = .next t → t.get PWR_MACH_REQ = v.toNat ∧ t.get PWR_MACH_STATE = (if v.toNat = 3 then 0 else v.toNat) ∧
        FieldsKept [PWR_MACH_REQ, PWR_MACH_STATE] s t ∧ { t with fields := s.fields } = s) ∧
    (∀ (t : Nat) (s u : State), s.power ≠ .off → exec (.ignOkFall t) s = .next u →
      u.get PWR_MACH_STATE ≠ 2) ∧
    State.reset.get PWR_MACH_STATE = 0 ∧ State.reset.get PWR_MACH_REQ = 0

/-- A read after a write. A read of the bytes, or of the word, that a write has stored gives what was stored, and every byte outside them
reads as before; a write of a register field reads back modulo its width and leaves every other field as it was. -/
def Obligations.MemoryReadsBack : Prop :=
  (∀ (s : State) (k : Nat) (l : List Byte), (∀ j, j < l.length → (s.setBytes k l).byte (k + j) = l.getD j 0) ∧
      MemoryKeptOutside k l.length s (s.setBytes k l)) ∧
    (∀ (s : State) (k : Nat) (w : Word), (s.setWord k w).word k = w ∧ MemoryKeptOutside k 4 s (s.setWord k w)) ∧
    (∀ (s : State) (f : Fld) (v : Nat), (s.put f v).get f = v % 2 ^ f.w ∧ FieldsKept [f] s (s.put f v) ∧
      { s.put f v with fields := s.fields } = s)

/-- What posts, settings and the windows of a channel leave alone. A post is queued and changes nothing else; an enable or a setting changes
its own register fields and nothing else but the time base and the record of its own block; the end of an inrush window, the reset of a
retry count, a stall ripple change their own channel and the time base and nothing else. -/
def Obligations.CommandFrames : Prop :=
  (∀ (i : Fin 64) (s t : State), exec (.ttPost i) s = .next t → { t with frame := { t.frame with posts := s.frame.posts } } = s) ∧
    (∀ (c : Fin 32) (s t : State), exec (.tmrPost c) s = .next t → { t with tmrPosts := s.tmrPosts } = s) ∧
    (∀ (i : Fin 256) (s t : State), exec (.apPost i) s = .next t → { t with psch := { t.psch with posts := s.psch.posts } } = s) ∧
    (∀ (i : BitVec 9) (s t : State), exec (.chtPost i) s = .next t →
      FieldsKept [CHT_POST_STAT_IDX_ERR] s t ∧ { t with chtPosts := s.chtPosts, fields := s.fields } = s) ∧
    (∀ (k : Fin 4) (s t : State) (i : Instr), i ∈ [Instr.bstop k, .resume k] → exec i s = .next t →
      { t with dies := s.dies } = s ∧ ∀ j, j ≠ k.val → t.die j = s.die j) ∧
    (∀ (n : Fin 13) (s t : State) (i : Instr) (l : List Fld),
      (i, l) ∈ [(Instr.run, [FRAME_CTL_RUN]), (.romSet n, [CAN_CTL_ROM n]), (.fldEn, [FLD_CTL_EN]), (.pschEn, [PSCH_CTL_EN]),
        (.accEn, [ACC_CTL_EN]), (.covEn, [COV_CTL_EN, COV_STAT_STATE]), (.chainEn, [PCHN_CTL_CHAIN_EN, PCHN_STAT_STATE])] →
      exec i s = .next t → FieldsKept l s t ∧ { t with fields := s.fields, chain := s.chain } = s) ∧
    (∀ (t : Nat) (cal : BitVec 32) (s u : State), exec (.lfcalMeasure t cal) s = .next u →
      FieldsKept [TBASE_LFCAL_INT, TBASE_LFCAL_FRAC] s u ∧ { u with fields := s.fields, now := s.now } = s) ∧
    (∀ (i : Fin 152) (b : Fin 4) (t : Nat) (s u : State) (c : Instr) (k : Nat),
      (c, k) ∈ [(Instr.inrushWindowEnd i t, i.val), (.retryCntReset i t, i.val), (.ripple b t, 2 * b.val)] → exec c s = .next u →
      { u with chans := s.chans, now := s.now } = s ∧ ∀ j, j ≠ k → u.chan j = s.chan j)

/-- Three-register data instructions run on a ready core. On a core that is ready, each three-register data instruction answers the state in
which the result and the flags of its operation, in the sense of the pass that runs, have been taken and the instruction has ended after
one cycle. Model's choices it rests on: log entries 7, 18. -/
def Obligations.CoreRegisterOperations : Prop :=
  (∀ (core : Fin 4) (gd ga gb : Fin 32) (s : State), s.coreReady core →
    exec (.add core gd ga gb) s = .next (advance core 1 ((s.begun core).result core gd (Bin.run .add ((s.begun core).mirror core)
    ((s.begun core).reg core ga) ((s.begun core).reg core gb) ((s.begun core).bank core).fl.c)))) ∧
  (∀ (core : Fin 4) (gd ga gb : Fin 32) (s : State), s.coreReady core →
    exec (.sub core gd ga gb) s = .next (advance core 1 ((s.begun core).result core gd (Bin.run .sub ((s.begun core).mirror core)
    ((s.begun core).reg core ga) ((s.begun core).reg core gb) ((s.begun core).bank core).fl.c)))) ∧
  (∀ (core : Fin 4) (gd ga gb : Fin 32) (s : State), s.coreReady core →
    exec (.adc core gd ga gb) s = .next (advance core 1 ((s.begun core).result core gd (Bin.run .adc ((s.begun core).mirror core)
    ((s.begun core).reg core ga) ((s.begun core).reg core gb) ((s.begun core).bank core).fl.c)))) ∧
  (∀ (core : Fin 4) (gd ga gb : Fin 32) (s : State), s.coreReady core →
    exec (.sbc core gd ga gb) s = .next (advance core 1 ((s.begun core).result core gd (Bin.run .sbc ((s.begun core).mirror core)
    ((s.begun core).reg core ga) ((s.begun core).reg core gb) ((s.begun core).bank core).fl.c)))) ∧
  (∀ (core : Fin 4) (gd ga gb : Fin 32) (s : State), s.coreReady core →
    exec (.andR core gd ga gb) s = .next (advance core 1 ((s.begun core).result core gd (Bin.run .and ((s.begun core).mirror core)
    ((s.begun core).reg core ga) ((s.begun core).reg core gb) ((s.begun core).bank core).fl.c)))) ∧
  (∀ (core : Fin 4) (gd ga gb : Fin 32) (s : State), s.coreReady core →
    exec (.orR core gd ga gb) s = .next (advance core 1 ((s.begun core).result core gd (Bin.run .or ((s.begun core).mirror core)
    ((s.begun core).reg core ga) ((s.begun core).reg core gb) ((s.begun core).bank core).fl.c)))) ∧
  (∀ (core : Fin 4) (gd ga gb : Fin 32) (s : State), s.coreReady core →
    exec (.xorR core gd ga gb) s = .next (advance core 1 ((s.begun core).result core gd (Bin.run .xor ((s.begun core).mirror core)
    ((s.begun core).reg core ga) ((s.begun core).reg core gb) ((s.begun core).bank core).fl.c)))) ∧
  (∀ (core : Fin 4) (gd ga gb : Fin 32) (s : State), s.coreReady core →
    exec (.andn core gd ga gb) s = .next (advance core 1 ((s.begun core).result core gd (Bin.run .andn ((s.begun core).mirror core)
    ((s.begun core).reg core ga) ((s.begun core).reg core gb) ((s.begun core).bank core).fl.c)))) ∧
  (∀ (core : Fin 4) (gd ga gb : Fin 32) (s : State), s.coreReady core →
    exec (.orn core gd ga gb) s = .next (advance core 1 ((s.begun core).result core gd (Bin.run .orn ((s.begun core).mirror core)
    ((s.begun core).reg core ga) ((s.begun core).reg core gb) ((s.begun core).bank core).fl.c)))) ∧
  (∀ (core : Fin 4) (gd ga gb : Fin 32) (s : State), s.coreReady core →
    exec (.xnor core gd ga gb) s = .next (advance core 1 ((s.begun core).result core gd (Bin.run .xnor ((s.begun core).mirror core)
    ((s.begun core).reg core ga) ((s.begun core).reg core gb) ((s.begun core).bank core).fl.c)))) ∧
  (∀ (core : Fin 4) (ga gb : Fin 32) (s : State), s.coreReady core →
    exec (.cmp core ga gb) s = .next (advance core 1 ((s.begun core).result core 0 (Bin.run .sub ((s.begun core).mirror core) ((s.begun
    core).reg core ga) ((s.begun core).reg core gb) ((s.begun core).bank core).fl.c)))) ∧
  (∀ (core : Fin 4) (ga gb : Fin 32) (s : State), s.coreReady core →
    exec (.tst core ga gb) s = .next (advance core 1 ((s.begun core).result core 0 (Bin.run .and ((s.begun core).mirror core) ((s.begun
    core).reg core ga) ((s.begun core).reg core gb) ((s.begun core).bank core).fl.c)))) ∧
  (∀ (core : Fin 4) (gd ga gb : Fin 32) (cond : Fin 16) (s : State), s.coreReady core ∧ cond ≠ 15 →
    exec (.sel core gd ga gb cond) s = .next (advance core 1 ((s.begun core).setReg core gd (if ((s.begun core).bank core).fl.holds
    cond then (s.begun core).reg core ga else (s.begun core).reg core gb))))

/-- Shifts, products and quotients run on a ready core. On a ready core each shift, multiplication and division answers the state in which
its result and flags have been taken; a division takes 18 cycles and its residue check has to hold. Model's choices it rests on: log
entries 7, 10, 18. -/
def Obligations.CoreShiftMultiplyDivide : Prop :=
  (∀ (core : Fin 4) (gd ga gb : Fin 32) (s : State), s.coreReady core →
    exec (.lsl core gd ga gb) s = .next (advance core 1 ((s.begun core).result core gd (Shift.run .lsl ((s.begun core).mirror core)
    ((s.begun core).reg core ga) (((s.begun core).steer core gb).toNat % 256))))) ∧
  (∀ (core : Fin 4) (gd ga sh : Fin 32) (s : State), s.coreReady core →
    exec (.lsli core gd ga sh) s = .next (advance core 1 ((s.begun core).result core gd (Shift.run .lsl ((s.begun core).mirror core)
    ((s.begun core).reg core ga) sh)))) ∧
  (∀ (core : Fin 4) (gd ga gb : Fin 32) (s : State), s.coreReady core →
    exec (.lsr core gd ga gb) s = .next (advance core 1 ((s.begun core).result core gd (Shift.run .lsr ((s.begun core).mirror core)
    ((s.begun core).reg core ga) (((s.begun core).steer core gb).toNat % 256))))) ∧
  (∀ (core : Fin 4) (gd ga sh : Fin 32) (s : State), s.coreReady core →
    exec (.lsri core gd ga sh) s = .next (advance core 1 ((s.begun core).result core gd (Shift.run .lsr ((s.begun core).mirror core)
    ((s.begun core).reg core ga) sh)))) ∧
  (∀ (core : Fin 4) (gd ga gb : Fin 32) (s : State), s.coreReady core →
    exec (.asr core gd ga gb) s = .next (advance core 1 ((s.begun core).result core gd (Shift.run .asr ((s.begun core).mirror core)
    ((s.begun core).reg core ga) (((s.begun core).steer core gb).toNat % 256))))) ∧
  (∀ (core : Fin 4) (gd ga sh : Fin 32) (s : State), s.coreReady core →
    exec (.asri core gd ga sh) s = .next (advance core 1 ((s.begun core).result core gd (Shift.run .asr ((s.begun core).mirror core)
    ((s.begun core).reg core ga) sh)))) ∧
  (∀ (core : Fin 4) (gd ga gb : Fin 32) (s : State), s.coreReady core →
    exec (.ror core gd ga gb) s = .next (advance core 1 ((s.begun core).result core gd (Shift.run .ror ((s.begun core).mirror core)
    ((s.begun core).reg core ga) (((s.begun core).steer core gb).toNat % 256))))) ∧
  (∀ (core : Fin 4) (gd ga sh : Fin 32) (s : State), s.coreReady core →
    exec (.rori core gd ga sh) s = .next (advance core 1 ((s.begun core).result core gd (Shift.run .ror ((s.begun core).mirror core)
    ((s.begun core).reg core ga) sh)))) ∧
  (∀ (core : Fin 4) (gd ga gb : Fin 32) (s : State), s.coreReady core →
    exec (.mul core gd ga gb) s = .next (advance core 1 ((s.begun core).result core gd (Mul.run .lo ((s.begun core).mirror core)
    ((s.begun core).reg core ga) ((s.begun core).reg core gb))))) ∧
  (∀ (core : Fin 4) (gd ga gb : Fin 32) (s : State), s.coreReady core →
    exec (.mulhs core gd ga gb) s = .next (advance core 1 ((s.begun core).result core gd (Mul.run .hs ((s.begun core).mirror core)
    ((s.begun core).reg core ga) ((s.begun core).reg core gb))))) ∧
  (∀ (core : Fin 4) (gd ga gb : Fin 32) (s : State), s.coreReady core →
    exec (.mulhu core gd ga gb) s = .next (advance core 1 ((s.begun core).result core gd (Mul.run .hu ((s.begun core).mirror core)
    ((s.begun core).reg core ga) ((s.begun core).reg core gb))))) ∧
  (∀ (core : Fin 4) (gd ga gb : Fin 32) (s : State), s.coreReady core →
    exec (.divs core gd ga gb true) s = .next (advance core 18 ((s.begun core).result core gd (Div.run .quoS ((s.begun core).mirror
    core) ((s.begun core).reg core ga) ((s.begun core).reg core gb))))) ∧
  (∀ (core : Fin 4) (gd ga gb : Fin 32) (s : State), s.coreReady core →
    exec (.divu core gd ga gb true) s = .next (advance core 18 ((s.begun core).result core gd (Div.run .quoU ((s.begun core).mirror
    core) ((s.begun core).reg core ga) ((s.begun core).reg core gb))))) ∧
  (∀ (core : Fin 4) (gd ga gb : Fin 32) (s : State), s.coreReady core →
    exec (.rems core gd ga gb true) s = .next (advance core 18 ((s.begun core).result core gd (Div.run .remS ((s.begun core).mirror
    core) ((s.begun core).reg core ga) ((s.begun core).reg core gb))))) ∧
  (∀ (core : Fin 4) (gd ga gb : Fin 32) (s : State), s.coreReady core →
    exec (.remu core gd ga gb true) s = .next (advance core 18 ((s.begun core).result core gd (Div.run .remU ((s.begun core).mirror
    core) ((s.begun core).reg core ga) ((s.begun core).reg core gb)))))

/-- Immediate, bit-field and byte instructions run on a ready core. On a ready core each instruction with an immediate, each bit-field
instruction whose field lies in the word, and PERM with a legal selector answers the state in which its result and flags have been
taken; an immediate enters complemented in the mirror pass. Model's choices it rests on: log entries 7, 18. -/
def Obligations.CoreImmediateAndFieldOperations : Prop :=
  (∀ (core : Fin 4) (gd ga : Fin 32) (imm : BitVec 16) (s : State), s.coreReady core →
    exec (.addi core gd ga imm) s = .next (advance core 1 ((s.begun core).result core gd (Bin.run .add ((s.begun core).mirror core)
    ((s.begun core).reg core ga) ((s.begun core).sense core (imm.signExtend 32)) ((s.begun core).bank core).fl.c)))) ∧
  (∀ (core : Fin 4) (gd ga : Fin 32) (imm : BitVec 16) (s : State), s.coreReady core →
    exec (.xori core gd ga imm) s = .next (advance core 1 ((s.begun core).result core gd (Bin.run .xor ((s.begun core).mirror core)
    ((s.begun core).reg core ga) ((s.begun core).sense core (imm.zeroExtend 32)) ((s.begun core).bank core).fl.c)))) ∧
  (∀ (core : Fin 4) (gd ga : Fin 32) (imm : BitVec 16) (s : State), s.coreReady core →
    exec (.andi core gd ga imm) s = .next (advance core 1 ((s.begun core).result core gd (Bin.run .and ((s.begun core).mirror core)
    ((s.begun core).reg core ga) ((s.begun core).sense core (imm.zeroExtend 32)) ((s.begun core).bank core).fl.c)))) ∧
  (∀ (core : Fin 4) (gd ga : Fin 32) (imm : BitVec 16) (s : State), s.coreReady core →
    exec (.ori core gd ga imm) s = .next (advance core 1 ((s.begun core).result core gd (Bin.run .or ((s.begun core).mirror core)
    ((s.begun core).reg core ga) ((s.begun core).sense core (imm.zeroExtend 32)) ((s.begun core).bank core).fl.c)))) ∧
  (∀ (core : Fin 4) (ga : Fin 32) (imm : BitVec 16) (s : State), s.coreReady core →
    exec (.cmpi core ga imm) s = .next (advance core 1 ((s.begun core).result core 0 (Bin.run .sub ((s.begun core).mirror core)
    ((s.begun core).reg core ga) ((s.begun core).sense core (imm.signExtend 32)) ((s.begun core).bank core).fl.c)))) ∧
  (∀ (core : Fin 4) (ga : Fin 32) (imm : BitVec 16) (s : State), s.coreReady core →
    exec (.tsti core ga imm) s = .next (advance core 1 ((s.begun core).result core 0 (Bin.run .and ((s.begun core).mirror core)
    ((s.begun core).reg core ga) ((s.begun core).sense core (imm.zeroExtend 32)) ((s.begun core).bank core).fl.c)))) ∧
  (∀ (core : Fin 4) (gd : Fin 32) (imm : BitVec 16) (s : State), s.coreReady core →
    exec (.movhi core gd imm) s = .next (advance core 1 ((s.begun core).result core gd (Alu.of ((s.begun core).mirror core) ((s.begun
    core).sense core (imm ++ (0 : BitVec 16))) none none)))) ∧
  (∀ (core : Fin 4) (gd ga : Fin 32) (s : State), s.coreReady core →
    exec (.clz core gd ga) s = .next (advance core 1 ((s.begun core).result core gd (clzRun ((s.begun core).mirror core) ((s.begun
    core).reg core ga))))) ∧
  (∀ (core : Fin 4) (gd ga pos w1 : Fin 32) (s : State), s.coreReady core ∧ pos.val + w1.val + 1 ≤ 32 →
    exec (.bfx core gd ga pos w1) s = .next (advance core 1 ((s.begun core).result core gd (bfxRun ((s.begun core).mirror core)
    ((s.begun core).reg core ga) pos (w1 + 1))))) ∧
  (∀ (core : Fin 4) (gd ga pos w1 : Fin 32) (s : State), s.coreReady core ∧ pos.val + w1.val + 1 ≤ 32 →
    exec (.bfxs core gd ga pos w1) s = .next (advance core 1 ((s.begun core).result core gd (bfxsRun ((s.begun core).mirror core)
    ((s.begun core).reg core ga) pos (w1 + 1))))) ∧
  (∀ (core : Fin 4) (gd ga pos w1 : Fin 32) (s : State), s.coreReady core ∧ pos.val + w1.val + 1 ≤ 32 →
    exec (.bfi core gd ga pos w1) s = .next (advance core 1 ((s.begun core).result core gd (bfiRun ((s.begun core).mirror core)
    ((s.begun core).reg core gd) ((s.begun core).reg core ga) pos (w1 + 1))))) ∧
  (∀ (core : Fin 4) (gd ga : Fin 32) (sl : BitVec 16) (s : State), s.coreReady core ∧ permOk sl →
    exec (.perm core gd ga sl) s = .next (advance core 1 ((s.begun core).result core gd (permRun ((s.begun core).mirror core) ((s.begun
    core).reg core gd) ((s.begun core).reg core ga) sl))))

/-- Loads, stores and AGREE run on a ready core. On a ready core whose access raises no exception, a load writes what the place of its
address gives to its register, a store stores at the place of its address, and AGREE in a pass logs its read or takes the logged value.
Model's choices it rests on: log entries 7, 14, 16, 18, 34. -/
def Obligations.CoreLoadsAndStores : Prop :=
  (∀ (core : Fin 4) (gd ga : Fin 32) (imm : BitVec 16) (s : State), s.coreReady core ∧
    (s.begun core).accessExc core false ((s.begun core).address core ga imm) 4 = none →
    exec (.lw core gd ga imm) s = .next (advance core 1 (((s.begun core).load core ((s.begun core).address core ga imm) 4
    false).2.setReg core gd ((s.begun core).load core ((s.begun core).address core ga imm) 4 false).1))) ∧
  (∀ (core : Fin 4) (gd ga : Fin 32) (imm : BitVec 16) (s : State), s.coreReady core ∧
    (s.begun core).accessExc core false ((s.begun core).address core ga imm) 2 = none →
    exec (.lh core gd ga imm) s = .next (advance core 1 (((s.begun core).load core ((s.begun core).address core ga imm) 2
    true).2.setReg core gd ((s.begun core).load core ((s.begun core).address core ga imm) 2 true).1))) ∧
  (∀ (core : Fin 4) (gd ga : Fin 32) (imm : BitVec 16) (s : State), s.coreReady core ∧
    (s.begun core).accessExc core false ((s.begun core).address core ga imm) 2 = none →
    exec (.lhu core gd ga imm) s = .next (advance core 1 (((s.begun core).load core ((s.begun core).address core ga imm) 2
    false).2.setReg core gd ((s.begun core).load core ((s.begun core).address core ga imm) 2 false).1))) ∧
  (∀ (core : Fin 4) (gd ga : Fin 32) (imm : BitVec 16) (s : State), s.coreReady core ∧
    (s.begun core).accessExc core false ((s.begun core).address core ga imm) 1 = none →
    exec (.lb core gd ga imm) s = .next (advance core 1 (((s.begun core).load core ((s.begun core).address core ga imm) 1
    true).2.setReg core gd ((s.begun core).load core ((s.begun core).address core ga imm) 1 true).1))) ∧
  (∀ (core : Fin 4) (gd ga : Fin 32) (imm : BitVec 16) (s : State), s.coreReady core ∧
    (s.begun core).accessExc core false ((s.begun core).address core ga imm) 1 = none →
    exec (.lbu core gd ga imm) s = .next (advance core 1 (((s.begun core).load core ((s.begun core).address core ga imm) 1
    false).2.setReg core gd ((s.begun core).load core ((s.begun core).address core ga imm) 1 false).1))) ∧
  (∀ (core : Fin 4) (gd ga : Fin 32) (imm : BitVec 16) (s : State), s.coreReady core ∧
    (s.begun core).accessExc core true ((s.begun core).address core ga imm) 4 = none →
    exec (.sw core gd ga imm) s = .next (storeWord core ((s.begun core).address core ga imm) 4 ((s.begun core).reg core gd)
    (s.begun core))) ∧
  (∀ (core : Fin 4) (gd ga : Fin 32) (imm : BitVec 16) (s : State), s.coreReady core ∧
    (s.begun core).accessExc core true ((s.begun core).address core ga imm) 2 = none →
    exec (.sh core gd ga imm) s = .next (storeWord core ((s.begun core).address core ga imm) 2 ((s.begun core).reg core gd)
    (s.begun core))) ∧
  (∀ (core : Fin 4) (gd ga : Fin 32) (imm : BitVec 16) (s : State), s.coreReady core ∧
    (s.begun core).accessExc core true ((s.begun core).address core ga imm) 1 = none →
    exec (.sb core gd ga imm) s = .next (storeWord core ((s.begun core).address core ga imm) 1 ((s.begun core).reg core gd)
    (s.begun core))) ∧
  (∀ (core : Fin 4) (gd ga : Fin 32) (imm : BitVec 16) (p : Pass) (s : State), s.coreReady core ∧ (s.core core).pass = some p ∧
    (s.begun core).agreeExc core p ((s.begun core).address core ga imm) = none →
    exec (.agree core gd ga imm) s = .next (if p.mirror then agreeMirr core gd p.task ((s.begun core).address core ga imm)
    (s.begun core) else agreePrim core gd p.task ((s.begun core).address core ga imm) (s.begun core)))

/-- Branches, jumps, loops and system instructions run on a ready core. On a ready core with none of their exceptions, branches, jumps and
loop instructions move the program counter as their rules say, control registers are read and written, WFI waits, ERET returns, TRAP and
a word that is no instruction take their exception, and a due interrupt is taken. Model's choices it rests on: log entries 7, 14, 15,
18, 19, 20. -/
def Obligations.CoreFlow : Prop :=
  (∀ (core : Fin 4) (cond : Fin 16) (disp : BitVec 22) (s : State), s.coreReady core ∧ cond ≠ 15 ∧
    (s.begun core).atLoopEnd core = false →
    exec (.br core cond disp) s = .next (if ((s.begun core).bank core).fl.holds cond then branchTo core 2 (dispTo ((s.begun core).pc
    core) (disp.signExtend 32)) (s.begun core) else advance core 1 (s.begun core))) ∧
  (∀ (core : Fin 4) (disp : BitVec 26) (s : State), s.coreReady core ∧ (s.begun core).atLoopEnd core = false →
    exec (.bl core disp) s = .next (branchTo core 2 (dispTo ((s.begun core).pc core) (disp.signExtend 32)) ((s.begun core).setReg core
    31 ((s.begun core).sense core ((s.begun core).pc core + 4))))) ∧
  (∀ (core : Fin 4) (ga : Fin 32) (s : State), s.coreReady core ∧ (s.begun core).jumpExc core ga = none →
    exec (.jr core ga) s = .next (branchTo core 3 ((s.begun core).steer core ga) (s.begun core))) ∧
  (∀ (core : Fin 4) (gd ga : Fin 32) (s : State), s.coreReady core ∧ (s.begun core).jumpExc core ga = none →
    exec (.jalr core gd ga) s = .next (branchTo core 3 ((s.begun core).steer core ga) ((s.begun core).setReg core gd ((s.begun
    core).sense core ((s.begun core).pc core + 4))))) ∧
  (∀ (core lvl : Fin 4) (ga : Fin 32) (off : BitVec 19) (s : State), s.coreReady core ∧
    (s.begun core).loopExcs core lvl false (off.zeroExtend 32) = none →
    exec (.loopR core lvl ga off) s = .next (loopStart core lvl ((s.begun core).steer core ga) (off.zeroExtend 32) (s.begun core))) ∧
  (∀ (core lvl : Fin 4) (cnt off : BitVec 12) (s : State), s.coreReady core ∧
    (s.begun core).loopExcs core lvl (cnt == 0) (off.zeroExtend 32) = none →
    exec (.loopi core lvl cnt off) s = .next (loopStart core lvl (cnt.zeroExtend 32) (off.zeroExtend 32) (s.begun core))) ∧
  (∀ (core : Fin 4) (s : State), s.coreReady core → exec (.nop core) s = .next (advance core 1 (s.begun core))) ∧
  (∀ (core : Fin 4) (s : State), s.coreReady core → exec (.sync core) s = .next (advance core 1 (s.begun core))) ∧
  (∀ (core : Fin 4) (gd : Fin 32) (cr : Fin 1024) (s : State), s.coreReady core ∧ (s.tMode core = false ∨ tReads cr) →
    exec (.mfc core gd cr) s = .next (advance core 1 ((ctrlRead core cr
    (s.begun core)).setReg core gd ((s.begun core).sense core ((s.begun core).ctrl core cr))))) ∧
  (∀ (core : Fin 4) (cr : Fin 1024) (ga : Fin 32) (s : State), s.coreReady core ∧ (s.tMode core = false ∨ tWrites cr) →
    exec (.mtc core cr ga) s = .next (advance core 1 ((s.begun core).setCtrl core cr ((s.begun core).steer core ga)))) ∧
  (∀ (core : Fin 4) (num : BitVec 10) (s : State), s.coreReady core ∧ (s.begun core).atLoopEnd core = false →
    exec (.trap core num) s = .next (takeExc core { cause := 9, info := some num.toNat } (s.begun core))) ∧
  (∀ (core : Fin 4) (s : State), s.coreReady core ∧ s.tMode core = false ∧ (s.begun core).atLoopEnd core = false →
    exec (.eret core) s = .next (retired core (spend core 1 ((s.begun core).setCore core
    { ((s.begun core).core core).setPsr ((s.begun core).core core).epsr with sPc := ((s.begun core).core core).epc })))) ∧
  (∀ (core : Fin 4) (s : State), s.coreReady core ∧ s.tMode core = false ∧ (s.begun core).atLoopEnd core = false →
    exec (.wfi core) s = .next ((advance core 1
    (s.begun core)).setCore core { (advance core 1 (s.begun core)).core core with waiting := true })) ∧
  (∀ (core : Fin 4) (s : State), s.coreRuns core ∧ (s.core core).pass = none ∧ (s.core core).ie ∧ (s.core core).exl = false ∧
    (s.core core).ipend.zeroExtend 32 &&& (s.core core).imask ≠ 0 → exec (.interrupt core) s = .next
    (s.setCore core { (s.core core).enter 0x40 with waiting := false })) ∧
  (∀ (core : Fin 4) (w : Word) (s : State), s.coreReady core ∧ legalWord w = false →
    exec (.undef core w) s = .next (takeExc core { cause := 1 } (s.begun core)))

/-- Supply, temperature and package events report and are shown. Each event of the supplies, of the logic die and of the package stands in
its status field and, past its threshold, reports its source. Model's choices it rests on: log entries 9, 70, 73. -/
def Obligations.SupplyEvents : Prop :=
  (∀ (mV t : Nat) (s s' : State), s' = s.at t → mV < 6000 → exec (.vbatUv mV t) s = .next (report 16 (noteVbat mV s'))) ∧
  (∀ (mV t : Nat) (s s' : State), s' = s.at t → 36000 < mV → exec (.vbatOv mV t) s = .next (report 17 (noteVbat mV s'))) ∧
  (∀ (mV t : Nat) (s s' : State), s' = s.at t → mV < 5000 →
    exec (.flashSuspendUv mV t) s = .next (({ noteVbat mV s' with pwr := { (noteVbat mV s').pwr with flashOff := true } } : State))) ∧
  (∀ (mV t : Nat) (s s' : State), s' = s.at t → 5500 < mV →
    exec (.flashResumeUv mV t) s = .next (({ noteVbat mV s' with pwr := { (noteVbat mV s').pwr with flashOff := false } } : State))) ∧
  (∀ (g : Fin 8) (mVg mVl mA t : Nat) (s s' : State), s' = s.at t → (4000 < mVg - mVl ∨ 4000 < mVl - mVg) ∧ mA < 1000 →
    exec (.groupWire g mVg mVl mA t) s = .next (report 20 s')) ∧
  (∀ (t : Nat) (s s' : State), s' = s.at t → exec (.regFault t) s = .next (report 21 s')) ∧
  (∀ (mA mW t : Nat) (s s' : State), s' = s.at t → (150000 < mA ∨ 32000 < mW) → exec (.pkgLoad mA mW t) s = .next (report 26 s')) ∧
  (∀ (c16 : Int) (t : Nat) (s s' : State), s' = s.at t → 2240 ≤ c16 → exec (.logicHot c16 t) s = .next (report 24 (noteTemp c16 s'))) ∧
  (∀ (c16 : Int) (t : Nat) (s s' : State), s' = s.at t → 2400 ≤ c16 → exec (.logicTsd c16 t) s = .next (report 25 (noteTemp c16 s'))) ∧
  (∀ (u : ParityUnit) (t : Nat) (s s' : State), s' = s.at t →
    exec (.parityError u t) s = .next (reportFull (paritySource u).1 (paritySource u).2 0 false s')) ∧
  (∀ (n : Fin 512) (s : State), exec (.umpForce n) s = .next (reportFull n 0 0 true s))

/-- Power-up, resets and pins. Loss of every supply, the release and the fall of RESET_N, a brownout, a missing first frame, UMP_RST, a
Keeper reset and the gate lines act as their rules say. Model's choices it rests on: log entries 2, 5, 9, 68, 69. -/
def Obligations.ResetsAndPins : Prop :=
  (∀ (s : State), exec (.powerUp) s = .next (powerLost s)) ∧
  (∀ (plan : BootPlan) (s : State), s.alive = false ∧ s.power = .run → exec (.resetNRelease plan) s = .next (start
    (s.get PWR_RST_CAUSE) plan s)) ∧
  (∀ (t : Nat) (s s' : State), s' = s.at t → exec (.resetNAssert t) s = .next (logicReset 1 s')) ∧
  (∀ (t : Nat) (s s' : State), s' = s.at t → s'.alive ∧ s'.power = .run ∧ s'.frame.started = false ∧ s'.ump.service = false ∧
    s'.pwr.bootAt + ms 150 ≤ s'.now → exec (.firstFrameTimeout t) s = .next (enterService (setSafeHeld true s'))) ∧
  (∀ (mV t : Nat) (plan : BootPlan) (s s' : State), s' = s.at t → mV < 3000 →
    exec (.brownout mV t plan) s = .next (start 2 plan (brownoutReset s'))) ∧
  (∀ (t : Nat) (plan : BootPlan) (s s' : State), s' = s.at t → s'.alive ∧ s'.level = 4 →
    exec (.umpRst 0x5A true t plan) s = .next (start 3 plan (logicReset 3 s'))) ∧
  (∀ (t : Nat) (plan : BootPlan) (a : Nat) (s s' : State), s' = s.at t → s'.clocks ∧ s'.keeper.resetAt = some a ∧ a ≤ s'.now →
    exec (.keeperReset t plan) s = .next (start 4 plan (logicReset 4 s'))) ∧
  (∀ (g : Gate) (t : Nat) (s s' : State), s' = s.at t → exec (.gateLineFall g t) s = .next (setGate g false s')) ∧
  (∀ (g : Gate) (t : Nat) (s s' : State), s' = s.at t → exec (.gateLineRise g t) s = .next (setGate g true s')) ∧
  (∀ (t : Nat) (s s' : State), s' = s.at t → s'.power ≠ .off →
    exec (.ignOkRise t) s = .next (gatesChanged (({ s' with ignOk := true, pwr := { s'.pwr with ign := true, ignLow := none } }).flag
    PWR_MACH_IGN true))) ∧
  (∀ (t : Nat) (s s' : State), s' = s.at t → s'.power ≠ .off → exec (.ignOkFall t) s = .next (
    let x := dropOld (gatesChanged
        (({ s' with ignOk := false, pwr := { s'.pwr with ign := false, ignLow := some (s'.pwr.ignLow.getD (s'.now)) } }).flag
        PWR_MACH_IGN false));
    if x.get PWR_MACH_STATE = 2 then (x.put PWR_MACH_STATE 0).put PWR_MACH_REQ 0 else x))

/-- The frame tick, the phases of a frame and the settings of the tick. At a T0 the frame begins; CUT, COMMIT, the deadline and the end of
the maintenance slice act in their phase; RUN, the settings of the frame, the lock and the frame table posts are taken while the clocks
run. Model's choices it rests on: log entries 24, 26, 27, 28, 29, 30, 31, 32, 35. -/
def Obligations.FrameCommands : Prop :=
  (∀ (t : Nat) (m : Measures) (s : State), s.tickAt t → exec (.frameTick t m) s = .next (frameT0 t m s)) ∧
  (∀ (t : Nat) (s s' : State), s' = s.at t → s'.inFrame ∧ s'.get FRAME_STAT_PHASE = 1 ∧ s'.frame.cut ≤ s'.frameTime t →
    exec (.cut t) s = .next (cutFrame s')) ∧
  (∀ (t : Nat) (s s' : State), s' = s.at t → (compareIfIdle s').inFrame ∧ (compareIfIdle s').get FRAME_STAT_PHASE = 2 ∧
    (compareIfIdle s').frame.applied = false →
    exec (.commit t) s = .next (commitFrame ((compareIfIdle s').frameTime t) (compareIfIdle s'))) ∧
  (∀ (t : Nat) (s s' : State), s' = s.at t → s'.inFrame ∧ s'.frame.closed = false ∧ s'.frame.deadline ≤ s'.frameTime t →
    exec (.commitDeadline t) s = .next (deadlineFrame s')) ∧
  (∀ (t : Nat) (s s' : State), s' = s.at t → s'.inFrame ∧ s'.frame.closed ∧ s'.get FRAME_STAT_PHASE = 4 ∧
    s'.frame.sliceAt + s'.frame.slice ≤ t → exec (.maintenanceSliceEnd t) s = .next (doReturn s'.nextT0 (s'.put FRAME_STAT_PHASE 0))) ∧
  (∀ (s : State), s.clocks → exec (.run) s = .next (s.flag FRAME_CTL_RUN true)) ∧
  (∀ (v : BitVec 7) (s : State), s.clocks → exec (.frameLenWrite v) s = .next (frameLen v.toNat s)) ∧
  (∀ (v : BitVec 12) (s : State), s.clocks → exec (.frameMarginWrite v) s = .next (frameMargin v.toNat s)) ∧
  (∀ (v : BitVec 12) (s : State), s.clocks → exec (.frameCutresWrite v) s = .next (frameCutres v.toNat s)) ∧
  (∀ (v : Word) (s : State), s.clocks → exec (.frameLockWrite v) s = .next (frameLock v.toNat s)) ∧
  (∀ (v : Word) (s : State), s.clocks → exec (.frameLockOfsWrite v) s = .next (frameLockOfs v.toNat s)) ∧
  (∀ (i : Fin 64) (s : State), s.clocks ∧ s.frame.posts.contains i.val = false →
    exec (.ttPost i) s = .next (({ s with frame := { s.frame with posts := s.frame.posts ++ [i.val] } } : State))) ∧
  (∀ (t : Nat) (e : Nat) (s s' : State), s' = s.at t → s'.clocks ∧ s'.lockState ≠ 0 ∧ s'.lockSrc ≠ 1 →
    exec (.lockReference t (some e)) s = .next (lockRef e s')) ∧
  (∀ (t : Nat) (s s' : State), s' = s.at t → s'.clocks ∧ s'.lockState = 1 ∧
    s'.tick.lastRef.getD s'.tick.acq + (s'.tick.missed + 1) * s'.lockPeriod + 3 * s'.lockPeriod / 2 ≤ s'.now ∧
    s'.tick.missed + 1 < orOne (s'.get FRAME_LOCK_TMO_MISS) →
    exec (.referenceMissing t) s = .next (({ s' with tick := { s'.tick with missed := s'.tick.missed + 1 } } : State))) ∧
  (∀ (t : Nat) (s s' : State), s' = s.at t → s'.lockState = 1 ∧ s'.tick.acq + 32 * s'.lockPeriod ≤ s'.now →
    exec (.lockFail t) s = .next (report 33 { s' with tick := { s'.tick with acq := s'.now } }))

/-- Debug mode, halts, breakpoints and a debugger's writes. With a token a permitted mode is requested; a halt in JOINT stops all cores, a
breakpoint in REPLAY stops its core; a debugger's write to S-mode code is applied; resuming and the port instruction act as their rules
say. Model's choices it rests on: log entries 22, 23. -/
def Obligations.DebugCommands : Prop :=
  (∀ (v : BitVec 2) (s : State), s.clocks ∧ s.on DBG_STAT_TOKEN ∧ s.modePermitted v.toNat ∧ s.ump.service = false →
    exec (.modeReq v) s = .next (s.put DBG_CTL_MODE_REQ v.toNat)) ∧
  (∀ (t : Nat) (s s' : State), s' = s.at t → s'.clocks ∧ s'.debugMode = 1 →
    exec (.halt t) s = .next (haltCores [0, 1, 2, 3] (s'.flag DBG_CTL_HALT true))) ∧
  (∀ (t : Nat) (s s' : State), s' = s.at t → s'.clocks → exec (.debugResume t) s = .next (debugResume s')) ∧
  (∀ (b core : Fin 4) (t : Nat) (s s' : State), s' = s.at t → s'.clocks ∧ s'.on (DBG_BP_EN b) ∧
    s'.pcOf core = 4 * s'.get (DBG_BP_ADDR b) ∧ (s'.core core).halted = false ∧ s'.debugMode = 2 ∧ s'.inMirror core = false →
    exec (.breakpoint b core t) s = .next (haltCores [core.val] s')) ∧
  (∀ (core : Fin 4) (target : DbgTarget) (v : Word) (t : Nat) (s s' : State), s' = s.at t → s'.clocks ∧ s'.debugMode ≠ 0 ∧
    dbgSram core target ∧ (s'.core core).pass = none →
    exec (.debuggerWrite core target v t) s = .next (debugPut core target v (memKey core) s')) ∧
  (∀ (ins : Fin 5) (s : State), ins.val ≤ 1 ∨ (s.on DBG_STAT_TOKEN ∧ s.keeper.perms.testBit 2 ∧ s.ump.service) →
    exec (.debugPortInstruction ins) s = .next (({ s with dbgPort := ins.val } : State)))

/-- Register commands reach their register. While the clocks run a register write is performed with the register's own effects and a read of
an LO register has its effect; CAP, PWR_WAKE_SRC and UART_RXD reads act as their rules say. Model's choices it rests on: log entry 36. -/
def Obligations.RegisterAccess : Prop :=
  (∀ (a : Nat) (v : Word) (t : Nat) (s s' : State), s' = s.at t → s'.clocks →
    exec (.registerWrite a v t) s = .next (busWrite a v 0xFF s')) ∧
  (∀ (a t : Nat) (s s' : State), s' = s.at t → s'.clocks → exec (.loRegisterRead a t) s = .next ((busRead a s').2)) ∧
  (∀ (s : State), s.power = .run → exec (.pwrWakeSrcRead) s = .next (({ s with pwr := { s.pwr with wakeLatch := false } } : State))) ∧
  (∀ (c : Fin 32) (t : Nat) (s s' : State), s' = s.at t →
    exec (.capLoRead c t) s = .next (s'.setTmr c { s'.tmrChan c with frozen := true })) ∧
  (∀ (c : Fin 32) (t : Nat) (s s' : State), s' = s.at t → (s'.tmrChan c).frozen ∧ (s'.tmrChan c).buf = none →
    exec (.capHiRead c t) s = .next (s'.setTmr c { s'.tmrChan c with frozen := false, flags := clrBit (s'.tmrChan c).flags 5 })) ∧
  (∀ (u : Fin 4) (s : State), exec (.uartRxd u) s = .next (s.setUart u { s.uart u with rx := (s.uart u).rx.drop 1 }))

/-- Faults and diagnoses of the protected switches. A channel that meets the condition of a fault takes it: it is cut, or the fault bit is
set. Model's choices it rests on: log entries 9, 42. -/
def Obligations.ChannelFaults : Prop :=
  (∀ (i : Fin 152) (t : Nat) (s s' : State), s' = s.at t → (s'.chan i).out → exec (.short i t) s = .next (cutChan i 0 s')) ∧
  (∀ (i : Fin 152) (t a b c : Nat) (s s' : State), s' = s.at t → (s'.chan i).out ∧ (s'.chan i).senseBad = false ∧
    s'.activeLimit i < a ∧ s'.activeLimit i < b ∧ s'.activeLimit i < c → exec (.overcur i t a b c) s = .next (cutChan i 1 s')) ∧
  (∀ (i : Fin 152) (t mA : Nat) (s s' : State), s' = s.at t → (s'.chState i).driving ∧ (s'.chan i).inrush = none ∧
    (s'.chan i).entry.ond ∧ (s'.chan i).senseBad = false ∧ s'.diagOff i = false ∧ mA < s'.olTh i →
    exec (.openOn i t mA) s = .next (fltEvent i 4 s')) ∧
  (∀ (i : Fin 152) (t mA : Nat) (s s' : State), s' = s.at t → (s'.chan i).out ∧ (s'.chan i).inrush = none ∧ (s'.chan i).entry.stuckd ∧
    (s'.chan i).senseBad = false ∧ s'.diagOff i = false ∧ mA < s'.olTh i → exec (.stuckOff i t mA) s = .next (fltEvent i 8 s')) ∧
  (∀ (i : Fin 152) (t mA : Nat) (s s' : State), s' = s.at t → (s'.chan i).out = false ∧ (s'.chan i).demagAt.isSome ∧
    (s'.chan i).entry.stuckd ∧ (s'.chan i).senseBad = false ∧ s'.olTh i < mA → exec (.stuckOn i t mA) s = .next (fltEvent i 7 s')) ∧
  (∀ (b : Fin 4) (t : Nat) (s s' : State), s' = s.at t → s'.bridgeDrives b ∧ s'.get (CHT_BR_CTL_STALL b) ≠ 0 ∧
    (s'.chan (2 * b)).inrush = none ∧ max ((s'.chan (2 * b)).rippleAt.getD 0) ((s'.chan (2 * b)).since.getD (s'.now)) + us (100 *
    s'.get (CHT_BR_CTL_STALL b)) ≤ s'.now →
    exec (.bridgeStall b t) s = .next (fltEvent (2 * b) 10 (s'.setChan (2 * b) { s'.chan (2 * b) with stalled := true }))) ∧
  (∀ (i : Fin 152) (t : Nat) (s s' : State), s' = s.at t → (s'.chan i).out = false ∧ (s'.chan i).demagAt = none →
    exec (.demagEnd i t none) s = .next (s'.setChan i { s'.chan i with demagAt := some (s'.now) })) ∧
  (∀ (i : Fin 152) (t : Nat) (down up : Bool) (a : Nat) (s s' : State), s' = s.at t → (s'.chan i).demagAt = some a ∧
    (s'.chan i).out = false ∧ (s'.chan i).entry.offd ∧ s'.diagOff i = false ∧ a + us 200 ≤ s'.now →
    exec (.offWindow i t down up) s = .next (twice i 6 (if down then (s'.chan i).batHits + 1 else 0) (twice i 5 (if up then (s'.chan
    i).offHits + 1 else 0) (s'.setChan i
    { s'.chan i with offHits := if up then (s'.chan i).offHits + 1 else 0, batHits := if down then (s'.chan i).batHits + 1 else 0 })))) ∧
  (∀ (i : Fin 152) (t : Nat) (tj : Int) (s s' : State), s' = s.at t → 170 * 16 ≤ tj ∧
    (s'.modChan i (fun c => { c with tjNow := tj, tjPeak := max c.tjPeak tj })).uvOf i = false ∧
    ((s'.modChan i (fun c => { c with tjNow := tj, tjPeak := max c.tjPeak tj })).chan i).thermal = false →
    exec (.thermal i t tj) s = .next (thermalLatch i (s'.modChan i (fun c => { c with tjNow := tj, tjPeak := max c.tjPeak tj })))) ∧
  (∀ (i : Fin 152) (t : Nat) (tj : Int) (s s' : State), s' = s.at t → tj < 150 * 16 ∧
    ((s'.modChan i (fun c => { c with tjNow := tj })).chan i).thermal ∧ (s'.modChan i (fun c => { c with tjNow := tj })).tlAuto i →
    exec (.thermalRelease i t tj) s = .next (thermalFree i (s'.modChan i (fun c => { c with tjNow := tj })))) ∧
  (∀ (b : Fin 4) (t : Nat) (s s' : State), s' = s.at t → s'.bridgeDrives b →
    exec (.ripple b t) s = .next (s'.setChan (2 * b)
    { s'.chan (2 * b) with ripplePos := (s'.chan (2 * b)).ripplePos + (if (s'.chan (2 * b)).entry.mode == 5 then -1 else 1), rippleRev := (s'.chan (2 * b)).entry.mode == 5, rippleAt := some (s'.now), ripplePer := match (s'.chan (2 * b)).rippleAt with | some a => (s'.now - a) / 200 | none => (s'.chan (2 * b)).ripplePer }))

/-- Windows, waits and holds of the protected switches. Each window, wait and hold of a channel or of a supply group ends, or begins, with
the effect its rule gives. Model's choices it rests on: log entries 7, 42. -/
def Obligations.ChannelTimers : Prop :=
  (∀ (i : Fin 152) (t : Nat) (w : Inrush) (s s' : State), s' = s.at t → (s'.chan i).inrush = some w ∧
    ms (s'.inrushMs i) ≤ w.elapsed (s'.now) → exec (.inrushWindowEnd i t) s = .next (s'.setChan i { s'.chan i with inrush := none })) ∧
  (∀ (g : Fin 8) (t : Nat) (s s' : State), s' = s.at t → (s'.grp g).drooped = false →
    exec (.groupDroop g t) s = .next (forEach (grpChans g) (fun i x => x.modChan i (fun c =>
    { c with sawDroop := true, inrush := c.inrush.map (fun w => { w with droopFrom := some x.now }) })) ((s'.setGrp g
    { s'.grp g with drooped := true }).wrap (CHT_GRP_STAT_DROOP_CNT g)))) ∧
  (∀ (g : Fin 8) (t : Nat) (s s' : State), s' = s.at t → (s'.grp g).drooped →
    exec (.droopRelease g t) s = .next (forEach (grpChans g) (fun i x => x.modChan i (fun c =>
    { c with inrush := c.inrush.map (fun w => { w with ext := w.ext + (match w.droopFrom with | some a => x.now - a | none => 0), droopFrom := none }) }))
    (s'.setGrp g { s'.grp g with drooped := false }))) ∧
  (∀ (i : Fin 152) (t : Nat) (e : Nat) (s s' : State), s' = s.at t → (s'.chan i).retryEnd = some e ∧ e ≤ s'.now →
    exec (.retryWaitEnd i t) s = .next (settlePair i (s'.setChan i { s'.chan i with retryEnd := none, arm := true }))) ∧
  (∀ (i : Fin 152) (t : Nat) (a : Nat) (s s' : State), s' = s.at t → (s'.chan i).since = some a ∧ a + sec 1 ≤ s'.now →
    exec (.retryCntReset i t) s = .next (s'.setChan i { s'.chan i with retryCnt := 0 })) ∧
  (∀ (b : Fin 4) (t : Nat) (e : Nat) (s s' : State), s' = s.at t → (s'.chan (2 * b)).revEnd = some e ∧ e ≤ s'.now →
    exec (.reversalBrakeEnd b t) s = .next (s'.setChan (2 * b) { s'.chan (2 * b) with revEnd := none })) ∧
  (∀ (g : Fin 8) (t : Nat) (s s' : State), s' = s.at t → (s'.grp g).uv = false → exec (.uvHold g t) s = .next (
    let x := forEach (grpChans g) (fun i x => settle i (fltEvent i 11 x)) (s'.setGrp g { s'.grp g with uv := true });
    if x.get PWR_SUPPLY_VBAT_L > 600 then report 19 x else x)) ∧
  (∀ (g : Fin 8) (t : Nat) (s s' : State), s' = s.at t → (s'.grp g).uv →
    exec (.uvRelease g t) s = .next (forEach (grpChans g) (fun i x => settle i (x.modChan i (fun c => { c with arm := true })))
    (s'.setGrp g { s'.grp g with uv := false }))) ∧
  (∀ (i : Fin 136) (t : Nat) (a : Nat) (s s' : State), s' = s.at t → (s'.chan i).sigOn = some a →
    exec (.pullInDip i t) s = .next (passSignature i true (some (16 * ((s'.now - a) / 2000 * 10))) (s'.setChan i
    { s'.chan i with sigOn := none, latOn := (s'.now - a) / 2000 * 10 }))) ∧
  (∀ (i : Fin 136) (t : Nat) (a : Nat) (s s' : State), s' = s.at t → (s'.chan i).sigOn = some a ∧ a + us 65534 ≤ s'.now →
    exec (.signatureTimeout i true t) s = .next (passSignature i true none (s'.setChan i
    { s'.chan i with sigOn := none, latOn := 0xFFFF }))) ∧
  (∀ (i : Fin 152) (t energy : Nat) (a : Nat) (s s' : State), s' = s.at t → (s'.chan i).hold = none ∧ s'.armed i ∧
    (s'.tlOf i).onMax ≠ 0 ∧ (s'.chan i).since = some a ∧ a + ms (s'.tlOf i).onMax ≤ s'.now →
    exec (.tlHold i t energy) s = .next (takeHold i .onTime s')) ∧
  (∀ (i : Fin 152) (t energy : Nat) (s s' : State), s' = s.at t → (s'.chan i).hold = some .onTime ∧
    (s'.chan i).holdFrom + ms (s'.tlOf i).offMin ≤ s'.now →
    exec (.tlHoldEnd i t energy) s = .next (settlePair i (s'.setChan i { s'.chan i with hold := none, arm := true }))) ∧
  (∀ (i : Fin 152) (t : Nat) (s s' : State), s' = s.at t → (s'.chan i).withheld ∧ s'.pairClear i →
    exec (.pairGapEnd i t) s = .next (settle i (s'.setChan i { s'.chan i with withheld := false })))

/-- Commands and events of the switch dies. A die takes limp levels, Backstop and resume requests, watchdog expiries, resets and health
events; the clearing commands and posts of the channel table act on their channel. Model's choices it rests on: log entry 42. -/
def Obligations.DieCommands : Prop :=
  (∀ (k : Fin 4) (n : Fin 8) (lvl : Bool) (t : Nat) (s s' : State), s' = s.at t →
    exec (.limpInputChange k n lvl t) s = .next (settleAll (dieChans k) (if k.val = 0 then (s'.modDie k (fun d =>
    { d with limp := putBit d.limp n lvl })).putBit PCHN_LIMP_IN_LVL n lvl else s'.modDie k (fun d =>
    { d with limp := putBit d.limp n lvl })))) ∧
  (∀ (n : Fin 8) (t : Nat) (j k : Fin 4) (s s' : State), s' = s.at t → s'.limpLevel j n = true ∧ s'.limpLevel k n = false →
    exec (.limpDiff n t) s = .next (report 243 s')) ∧
  (∀ (k : Fin 4) (t : Nat) (s s' : State), s' = s.at t → s'.dieMode k = 1 ∧
    10 * ((s'.die k).wdAt + s'.wdTime k) ≤ 10 * s'.now + s'.wdTime k →
    exec (.serialWatchdogExpiry k t) s = .next (report (dieLink k) ((dieBackstop k .watchdog s').flag (CHT_DIE_STAT_WD_TRIP k) true))) ∧
  (∀ (k : Fin 4) (t : Nat) (s s' : State), s' = s.at t → exec (.dieLogicReset k t) s = .next (dieBoot k s')) ∧
  (∀ (k : Fin 4) (t : Nat) (mA : Nat) (s s' : State), s' = s.at t → 24000 < mA →
    exec (.dieHealth k t (.current mA)) s = .next (report (dieHealthSrc k) s')) ∧
  (∀ (k : Fin 4) (s : State), exec (.bstop k) s = .next (s.modDie k (fun d => { d with bstopReq := true }))) ∧
  (∀ (k : Fin 4) (s : State), s.resumeOk k → exec (.resume k) s = .next (s.modDie k (fun d => { d with resumeReq := true }))) ∧
  (∀ (i : BitVec 9) (s : State), i.toNat ≤ 423 → exec (.therm i) s = .next (clrTherm i.toNat s)) ∧
  (∀ (i : BitVec 9) (s : State), i.toNat ≤ 423 → exec (.latchClr i) s = .next (clrLatch i.toNat s)) ∧
  (∀ (i : BitVec 9) (s : State), i.toNat ≤ 423 → exec (.fltClr i) s = .next (clrFlt i.toNat s)) ∧
  (∀ (i : BitVec 9) (s : State), i.toNat ≤ 423 ∧ s.chtPosts.contains i.toNat = false →
    exec (.chtPost i) s = .next (({ s with chtPosts := s.chtPosts ++ [i.toNat] } : State)))

/-- The channel chain and the lamp ports. While the chain runs a latch instant applies an operate frame or a configuration frame, LIVE
advances and its stall reports; a lamp port latches, is enabled and replaces a driver. Model's choices it rests on: log entries 10, 41,
43. -/
def Obligations.ChainAndLampCommands : Prop :=
  (∀ (t : Nat) (bad retBad : BitVec 4) (hdrOk : Bool) (s : State), s.chainRuns ∧ s.latchNow t →
    exec (.chainLatch t bad retBad hdrOk) s = .next (
    let x := ({ s.at t with chain := { s.chain with latchAt := t } } : State).put PCHN_STAT_STATE 2;
    let x := x.put PCHN_STAT_LIVE x.chain.live;
    let x := forEach x.cachedSwitch (fun i y => pulseSlot i (t / 400) y) x;
    let x := overN 4 (fun k y => dieLatch k (t / 400) (bad.getLsbD k) y) x;
    headerCheck hdrOk (overN 4 (fun k y => returnCheck k (retBad.getLsbD k) y) x))) ∧
  (∀ (t : Nat) (k target : Fin 4) (block : Nat) (data : List (BitVec 8)) (s : State), s.chainRuns ∧ s.latchNow t ∧ s.cfgAllowed t ∧
    target.val ≠ 3 → exec (.configurationFrame t k target block data true) s = .next (
    let x : State := { s.at t with chain := { s.chain with latchAt := t, cfgAt := some t } };
    let x := if x.anyArmed then x else x.put PCHN_STAT_STATE 1;
    loadBlock k target block data (overN 4 (fun k y => bankSwap k (armIfLoaded k y)) x))) ∧
  (∀ (t : Nat) (s : State), s.chainRuns ∧ t % 6400 = 0 ∧ s.chain.liveAt < t →
    exec (.liveAdvance t) s = .next (({ s.at t with chain := { s.chain with live := (s.chain.live + 1) % 16, liveAt := t } } : State))) ∧
  (∀ (t : Nat) (s s' : State), s' = s.at t → s'.chainRuns ∧ max s'.chain.liveAt s'.chain.stallAt + us 64 ≤ s'.now →
    exec (.liveStall t) s = .next (report 242 { s' with chain := { s'.chain with stallAt := s'.now } })) ∧
  (∀ (s : State), s.alive ∧ s.on PCHN_CTL_CHAIN_EN = false → exec (.chainEn) s = .next (
    let x := (s.flag PCHN_CTL_CHAIN_EN true).put PCHN_STAT_STATE 2;
    { x with chain := { x.chain with liveAt := x.now, stallAt := x.now } })) ∧
  (∀ (p : Fin 2) (t : Nat) (hdrOk : Bool) (nret : Fin 17) (codes : List (Fin 4)) (s : State), s.ledRuns p ∧ t % 6400 = 0 ∧
    codes.any (fun c => c != 0) = false → exec (.ledLatch p t hdrOk nret codes) s = .next (
    let x := forEach ((s.at t).cachedLeds p) (fun i y => pulseSlot i (t / 6400) y) (s.at t);
    let x := x.setLed p { x.led p with bits := (x.cachedLeds p).foldl (fun m i => tset false m (i - 168 - 128 * p) (x.ledBit p i)) [] };
    loopCheck p nret hdrOk ((x.put (LCP_STAT_NRET p) nret).put (LCP_DRVST_ST p) (packCodes codes)))) ∧
  (∀ (p : Fin 2) (s : State), s.alive ∧ s.get (LCP_CTL_NDRV p) ≠ 0 → exec (.lcpEn p) s = .next (
    let x := s.flag (LCP_CTL_EN p) true;
    if x.get (LCP_STAT_STATE p) = 0 then ledState p 1 x else x)) ∧
  (∀ (p : Fin 2) (drv : Fin 16) (tmo : BitVec 8) (t : Nat) (s s' : State), s' = s.at t → s'.alive →
    exec (.lcpSubReq p drv tmo t) s = .next (ledReplace p (((s'.put (LCP_SUB_DRV p) drv).put (LCP_SUB_TMO_S p) tmo.toNat).flag
    (LCP_SUB_REQ p) true))) ∧
  (∀ (p : Fin 2) (t : Nat) (s s' : State), s' = s.at t → s'.get (LCP_STAT_STATE p) = 3 ∧
    (s'.led p).reqAt + sec (orOne (s'.get (LCP_SUB_TMO_S p))) ≤ s'.now → exec (.lcpSubTimeout p t) s = .next (report (252 + p) s'))

/-- The field die. The field die powers up, exchanges frames, latches its outputs, arms, resumes, tests and samples its inputs, and reports
its supply and health, each under the condition its rule gives. Model's choices it rests on: log entries 9, 10, 44. -/
def Obligations.FieldDieCommands : Prop :=
  (∀ (s : State), s.alive → exec (.fldEn) s = .next (s.flag FLD_CTL_EN true)) ∧
  (∀ (t : Nat) (s s' : State), s' = s.at t → exec (.barrierPowerUp t) s = .next (fldPowerUp s')) ∧
  (∀ (t : Nat) (s s' : State), s' = s.at t → s'.field.powered →
    exec (.barrierSupplyFault t) s = .next (report 325 (s'.flag FLD_STAT_BAR_OK false))) ∧
  (∀ (t : Nat) (c : Int) (s s' : State), s' = s.at t → 160 ≤ c → exec (.fldHealth t (.hot c)) s = .next (report 326 s')) ∧
  (∀ (t : Nat) (s s' : State), s' = s.at t → s'.clocks ∧ s'.field.powered →
    exec (.downlinkFrame t false true) s = .next
    (({ s' with field := { s'.field with lastLive := some s'.chain.live, tmoAt := if s'.field.lastLive == some s'.chain.live then s'.field.tmoAt else s'.now, valid := min 64 (s'.field.valid + 1), frameOk := true } }
    : State).put FLD_STAT_LINK 2)) ∧
  (∀ (t : Nat) (n : Fin 16) (mA : Nat) (tj : Int) (v : Nat) (s s' : State), s' = s.at t → s'.clocks ∧ s'.field.powered →
    exec (.uplinkFrame t true true n mA tj v) s = .next (overN 16 inputSeen (fieldMeasure n mA tj v
    { s' with field := { s'.field with hdrBad := 0 } }))) ∧
  (∀ (t : Nat) (take : BitVec 16) (s : State), s.field.powered ∧ t % 4000 = 0 → exec (.fieldLatch t take) s = .next (
    let x := s.at t;
    let x := if x.field.safeNext then fldSafe x else x;
    let x := fieldTakes t take (fieldSwap x);
    let x := if x.clocks then forEach fieldOuts (fun i y => pulseSlot i (t / 4000) y) x else x;
    let follow := x.fldMode == 0 && x.field.frameOk && !x.field.safe;
    let x : State := { x with field := { x.field with frameOk := false } };
    if follow then applyBits fieldOuts (t / 4000) x else x)) ∧
  (∀ (t : Nat) (s s' : State), s' = s.at t → s'.field.powered ∧ s'.fenced 0x040 = false ∧ (s'.fldMode = 1 ∨ s'.fldMode = 3) →
    exec (.fldArming t true) s = .next (fldArm s')) ∧
  (∀ (t : Nat) (s s' : State), s' = s.at t → s'.field.powered ∧ s'.fldMode = 0 ∧ s'.field.safe = false ∧
    s'.field.tmoAt + s'.fldTimeout < s'.now → exec (.fldTmo t) s = .next (report 321 (fldSafe (s'.flag FLD_STAT_TMO_ACT true)))) ∧
  (∀ (t : Nat) (s s' : State), s' = s.at t → s'.field.powered ∧ s'.field.modeAt + s'.fldModeMax ≤ s'.now ∧ s'.field.told = false ∧
    s'.fldMode = 1 → exec (.modeMax t) s = .next (report 322 { s' with field := { s'.field with told := true } })) ∧
  (∀ (s : State), s.field.safe ∧ s.field.safeNext = false ∧ s.field.valid = 64 ∧ s.fenced 0x040 = false ∧ s.fldMode = 0 →
    exec (.fldResume) s = .next (settleField (forEach fieldOuts (fun i x => x.modChan i (fun c =>
    { c with adopted := c.adopted || c.cached, fresh := true, arm := true, bstop := if c.cached then c.entry.bstop else c.bstop }))
    { (s.flag FLD_STAT_TMO_ACT false) with field := { s.field with safe := false } }))) ∧
  (∀ (sel : BitVec 2) (t : Nat) (s s' : State), s' = s.at t → s'.field.powered ∧ (s'.put FLD_CTL_TEST_SEL sel.toNat).fldMode = 0 →
    exec (.testReq sel t) s = .next (fldEnter 2 (s'.put FLD_CTL_TEST_SEL sel.toNat))) ∧
  (∀ (t : Nat) (inFail notOff openOff shortBat : BitVec 16) (s s' : State), s' = s.at t → s'.field.powered ∧ s'.fldMode = 2 →
    exec (.testComplete t inFail notOff openOff shortBat) s = .next (testEnd (if s'.get FLD_CTL_TEST_SEL = 1 then outputTest notOff
    openOff shortBat s' else inputTest inFail s'))) ∧
  (∀ (t : Nat) (raw : BitVec 16) (s : State), s.field.powered ∧ t % s.samplePeriod = 0 ∧ s.fldMode = 0 →
    exec (.fieldInputSample t raw) s = .next (overN 16 (fun n x => if (x.inEntry n).mode = 0 then x else x.setFieldIn n (inputSample t
    (raw.getLsbD n) (x.inEntry n) (x.fieldIn n))) (s.at t))) ∧
  (∀ (t : Nat) (s s' : State), s' = s.at t → s'.field.powered ∧ (s'.grp 8).uv = false →
    exec (.vfieldUndervoltage t) s = .next (report 323 (forEach fieldOuts (fun i x => settle i (fltEvent i 11 x)) ((s'.setGrp 8
    { s'.grp 8 with uv := true }).flag FLD_STAT_VF_OK false)))) ∧
  (∀ (t : Nat) (s s' : State), s' = s.at t → (s'.grp 8).uv →
    exec (.vfieldRelease t) s = .next (forEach fieldOuts (fun i x => settle i (x.modChan i (fun c => { c with arm := true })))
    ((s'.setGrp 8 { s'.grp 8 with uv := false }).flag FLD_STAT_VF_OK true))) ∧
  (∀ (t : Nat) (s s' : State), s' = s.at t → s'.field.powered →
    exec (.vfieldOv t) s = .next (report 324 (s'.flag FLD_STAT_VF_OK false)))

/-- The position scheduler. While the scheduler runs its ticks, wheels, yaw, location and windows act; corrections, point posts and event
posts are taken, and a bad event is rejected. Model's choices it rests on: log entries 4, 45, 46. -/
def Obligations.PositionScheduler : Prop :=
  (∀ (t : Nat) (s s' : State), s' = s.at t → s'.pschRuns ∧ t % 20000 = 0 → exec (.pschTick t) s = .next (covTick t (pschTick t s'))) ∧
  (∀ (t : Nat) (s s' : State), s' = s.at t →
    exec (.eventFire t) s = .next (noteOpens (fireDue t s'.psch.placed.length (applyDue t s')))) ∧
  (∀ (w : Fin 4) (t : Nat) (s s' : State), s' = s.at t → s'.pschRuns → exec (.wheelExclude w t) s = .next (wheelExclude w t s')) ∧
  (∀ (w : Fin 4) (t : Nat) (s s' : State), s' = s.at t → s'.pschRuns → exec (.wheelReadmit w t) s = .next (wheelReadmit w t s')) ∧
  (∀ (w : Fin 4) (t : Nat) (l : Nat) (s s' : State), s' = s.at t → (s'.wheel w).last = some l ∧ s'.stopTime < t - l →
    exec (.wheelStop w t) s = .next (s'.setWheel w { s'.wheel w with per := none })) ∧
  (∀ (t : Nat) (s s' : State), s' = s.at t → s'.pschRuns ∧ s'.yawFresh t = false → exec (.yawLost t) s = .next (yawUpdate t s')) ∧
  (∀ (t code : Nat) (s s' : State), s' = s.at t → s'.pschRuns → exec (.zeroRateUpdate t code) s = .next (zeroRate code t s')) ∧
  (∀ (t : Nat) (s s' : State), s' = s.at t → s'.pschRuns → exec (.locDr t) s = .next (locUpdate t s')) ∧
  (∀ (e n h : Int) (u : Nat) (spread : BitVec 8) (force : Bool) (s : State), s.deltaBad e n force = false →
    exec (.delta e n h u spread force) s = .next
    (({ s with psch := { s.psch with corr := s.psch.corr ++ [⟨false, e, n, h, u, spread.toNat, force⟩] } } : State))) ∧
  (∀ (e n : Int) (h : BitVec 16) (u : Nat) (s : State),
    exec (.setCorr e n h u) s = .next (({ s with psch := { s.psch with corr := s.psch.corr ++ [⟨true, e, n, h.toNat, u, 0, false⟩] } }
    : State))) ∧
  (∀ (i : Fin 256) (s : State), s.psch.posts.contains i.val = false →
    exec (.apPost i) s = .next (({ s with psch := { s.psch with posts := s.psch.posts ++ [i.val] } } : State))) ∧
  (∀ (i : Fin 256) (s : State), exec (.apClr i) s = .next (s.setPoint i { s.point i with flt := 0, fltCnt := 0 })) ∧
  (∀ (slot : Fin 4096) (w0 w1 w2 w3 : Word) (s : State), slot.val < s.fwSlots ∧ eventBad w0 = false ∧ wbits w0 31 30 = 1 →
    exec (.eventPost slot w0 w1 w2 w3) s = .next (s.setEvent slot (some { w0 := w0, w1 := w1, w2 := w2, w3 := w3 }))) ∧
  (∀ (slot : Fin 4096) (s : State), slot.val < s.fwSlots → exec (.eventCancel slot) s = .next (s.setEvent slot none)) ∧
  (∀ (i : Fin 256) (s : State), exec (.cancelAp i) s = .next
    (({ s with psch := { s.psch with events := s.psch.events.filter (fun x => !(decide (x.1 < s.fwSlots) && (match x.2 with | some ev => ev.ap == i.val | none => true))) } }
    : State))) ∧
  (∀ (t : Nat) (s s' : State), s' = s.at t → s'.pschRuns → exec (.applyWindowEntry t) s = .next (applyDecide t s')) ∧
  (∀ (s : State), exec (.pschEn) s = .next (s.flag PSCH_CTL_EN true))

/-- The coverage engine. The coverage engine is enabled, opens, reads, closes, flushes and erases fields, runs its cycle, edits and writes
back tiles, each in the state its rule names. Model's choices it rests on: log entries 47, 48. -/
def Obligations.CoverageCommands : Prop :=
  (∀ (t us : Nat) (s : State), s.covRuns ∧ t % 200000 = 0 ∧ s.cov.doneAt ≤ t → exec (.coverageCycle t us) s = .next (covCycle t us
    (s.at t))) ∧
  (∀ (t : Nat) (s s' : State), s' = s.at t → s'.cov.told = false ∧ s'.cov.cycleAt + us 900 < s'.cov.doneAt ∧
    s'.cov.cycleAt + us 900 ≤ s'.now → exec (.cycleOvr t) s = .next (report 273 { s' with cov := { s'.cov with told := true } })) ∧
  (∀ (s : State), s.alive → exec (.covEn) s = .next (
    let x := s.flag COV_CTL_EN true;
    if x.covState = 0 then x.put COV_STAT_STATE 1 else x)) ∧
  (∀ (id : BitVec 16) (r : Nat × Rec) (s : State), s.covState = 1 ∧ s.fieldRec id.toNat = some r →
    exec (.fieldOpen id) s = .next (covShow (opening id.toNat (takeField r.2 s)))) ∧
  (∀ (t : Nat) (s s' : State), s' = s.at t → s'.covState = 2 → exec (.directoryRead t) s = .next (
    let x : State := { s' with cov := { s'.cov with dir := s'.copies s'.openField } };
    let x := overN 3 (fun k y => y.put (COV_AREA_CELLS k) (y.storedArea (k + 1))) x;
    let x := x.put COV_STORE_FREE_BLK x.storeFree.length;
    covShow (x.put COV_STAT_STATE (if x.posValid then 3 else 4)))) ∧
  (∀ (t : Nat) (s s' : State), s' = s.at t → s'.fieldIsOpen →
    exec (.fieldClose t) s = .next (flushStart (covCancelAll (s'.put COV_STAT_STATE 5)))) ∧
  (∀ (t : Nat) (s s' : State), s' = s.at t → s'.fieldIsOpen → exec (.fieldFlush t) s = .next (flushStart s')) ∧
  (∀ (id : BitVec 16) (s : State), s.covState = 1 →
    exec (.fieldErase id) s = .next (covShow (deleteField id.toNat (deleteTiles id.toNat s)))) ∧
  (∀ (t : Nat) (s s' : State), s' = s.at t → s'.on COV_STAT_FLUSH_BUSY ∧ s'.anyDirty = false → exec (.flushComplete t) s = .next (
    let x := s'.flag COV_STAT_FLUSH_BUSY false;
    if x.covState = 5 then dropResidents false (x.put COV_STAT_STATE 1) else x)) ∧
  (∀ (t : Nat) (s s' : State), s' = s.at t → s'.on COV_STAT_FLUSH_BUSY ∧ s'.cov.flushAt + ms 2200 < s'.now →
    exec (.flushLate t) s = .next (report 281 s')) ∧
  (∀ (layer : BitVec 2) (value : BitVec 8) (s : State), s.editBad 1 layer.toNat value.toNat = false →
    exec (.fill layer value) s = .next (
    let x : State :=
        { s with cov := { s.cov with edit := some ⟨false, layer.toNat, value.toNat, s.get COV_EDIT_A_X0, s.get COV_EDIT_A_Y0, s.get COV_EDIT_B_X1, s.get COV_EDIT_B_Y1, 0x1000 * s.get COV_EDIT_SRC_ADDR, 0⟩ } };
    x.flag COV_EDIT_STAT_BUSY true)) ∧
  (∀ (layer : BitVec 2) (s : State), s.editBad 2 layer.toNat 0 = false → exec (.install layer) s = .next (
    let x : State :=
        { s with cov := { s.cov with edit := some ⟨true, layer.toNat, 0, s.get COV_EDIT_A_X0, s.get COV_EDIT_A_Y0, s.get COV_EDIT_B_X1, s.get COV_EDIT_B_Y1, 0x1000 * s.get COV_EDIT_SRC_ADDR, 0⟩ } };
    x.flag COV_EDIT_STAT_BUSY true)) ∧
  (∀ (e : Fin 1024) (t : Nat) (fail : Bool) (x : Tile) (s s' : State), s' = s.at t → s'.tile e = some x ∧ x.dirty ∧ s'.wbAllowed x ∧
    s'.fieldIsOpen → exec (.writeBackTile e t fail) s = .next (covShow (writeBack e fail s')))

/-- Timer channels, switch inputs and the converter. Posts, clears, ticks and edges act on their timer channel; the switch inputs are
scanned and the converter triggers and completes, each when its block runs. Model's choices it rests on: log entry 49. -/
def Obligations.TimerCommands : Prop :=
  (∀ (c : Fin 32) (s : State), s.tmrPosts.contains c.val = false →
    exec (.tmrPost c) s = .next (({ s with tmrPosts := s.tmrPosts ++ [c.val] } : State))) ∧
  (∀ (c : Fin 32) (t : Nat) (s s' : State), s' = s.at t →
    exec (.tmrClrCnt c t) s = .next ((tmrSync c s').setTmr c { (tmrSync c s').tmrChan c with clrNext := true })) ∧
  (∀ (c : Fin 32) (s : State), exec (.tmrClrFlags c) s = .next (
    let x := tmrSync c s;
    x.setTmr c { x.tmrChan c with flags := (x.tmrChan c).flags - (x.tmrChan c).flags / 2 % 16 * 2, rolls := 0, hits := 0 })) ∧
  (∀ (c : Fin 32) (t : Nat) (s s' : State), s' = s.at t → s'.tmrRuns → exec (.timerTick c t) s = .next (tmrSync c s')) ∧
  (∀ (c : Fin 32) (t : Nat) (lvl : Bool) (pins : BitVec 12) (s s' : State), s' = s.at t →
    ({ s' with captPins := pins.toNat }).tmrRuns ∧ ({ s' with captPins := pins.toNat }).tmrHeld c = false ∧
    ((tmrSync c { s' with captPins := pins.toNat }).tmrChan c).lvl ≠ lvl ∧
    1 < ((tmrSync c { s' with captPins := pins.toNat }).tmrChan c).entry.tMode →
    exec (.filteredEdge c t lvl pins) s = .next (tmrEdge c t lvl (tmrSync c { s' with captPins := pins.toNat }))) ∧
  (∀ (t : Nat) (closed oppose : BitVec 32) (s : State), s.tmrRuns ∧ s.on SWIN_CTL_EN ∧ t % ms (orOne (s.get SWIN_CTL_PER_MS)) = 0 →
    exec (.swinScan t closed oppose) s = .next (overN 32 (fun i x => swinSample i (closed.getLsbD i) (oppose.getLsbD i) x) (s.at t))) ∧
  (∀ (t : Nat) (s s' : State), s' = s.at t → s'.tmrRuns ∧ s'.on ADC_CTL_EN ∧ s'.adcDue t ∧ s'.on ADC_STAT_BUSY = false →
    exec (.adcTrigger t) s = .next (({ s'.flag ADC_STAT_BUSY true with scan := { s'.scan with adcAt := some (s'.now) } } : State))) ∧
  (∀ (t : Nat) (codes : List (BitVec 12)) (a : Nat) (s s' : State), s' = s.at t → s'.scan.adcAt = some a ∧ s'.tmrRuns ∧
    a + us (s'.adcInputs.length + 2) ≤ s'.now → exec (.adcScanComplete t codes true) s = .next (
    let x := forEach s'.adcInputs (fun i x => (x.put (ADC_RES_SEQ i) (s'.get ADC_STAT_SCANS)).put (ADC_RES_CODE i) (codes.getD i
        0).toNat) s';
    let x := (x.wrap ADC_STAT_SCANS).flag ADC_STAT_BUSY false;
    { x with scan := { x.scan with adcAt := none } }))

/-- The CAN controllers: states and queues. A controller that runs follows its state machine; frames are queued, start, are sent, lose
arbitration and are received; queue commands act on the queues of a controller that is not gated. Model's choices it rests on: log
entries 50, 51. -/
def Obligations.CanControllers : Prop :=
  (∀ (n : Fin 13) (s : State), s.canRuns n ∧ s.canState n = 0 ∧ s.on (CAN_CTL_INIT n) ∧ s.timingOk n →
    exec (.initClear n) s = .next (canGo n 1 (s.flag (CAN_CTL_INIT n) false))) ∧
  (∀ (n : Fin 13) (s : State), s.canRuns n → exec (.initSet n) s = .next (
    let x := s.flag (CAN_CTL_INIT n) true;
    if x.canState n = 4 ∨ x.canState n = 5 then canGo n 0 x else x)) ∧
  (∀ (n : Fin 13) (s : State), s.canRuns n → exec (.romSet n) s = .next (s.flag (CAN_CTL_ROM n) true)) ∧
  (∀ (n : Fin 13) (s : State), s.canRuns n → exec (.romClear n) s = .next (
    let x := s.flag (CAN_CTL_ROM n) false;
    if x.canState n = 6 then canGo n 1 x else x)) ∧
  (∀ (n : Fin 13) (t : Nat) (s s' : State), s' = s.at t → s'.canRuns n → exec (.busIdle n t) s = .next (
    let x := s'.modCan n (fun x => { x with onHfrc := false });
    if x.on (CAN_CTL_INIT n) && x.canState n != 0 && x.canState n != 7 then canGo n 0 (cutTx n x) else if x.on (CAN_CTL_ROM n) &&
        (x.canState n == 1 || x.canState n == 2 || x.canState n == 3) then canGo n 6 (cutTx n x) else x)) ∧
  (∀ (n : Fin 13) (s : State), s.canRuns n ∧ s.canState n = 4 → exec (.recover n) s = .next ((canGo n 5 s).put (CAN_STAT_RCNT n) 0)) ∧
  (∀ (n : Fin 13) (t : Nat) (s s' : State), s' = s.at t → s'.canRuns n → exec (.integrationComplete n t) s = .next (
    let x := s'.modCan n (fun x => { x with pxWait := false });
    if x.canState n = 1 then canJoin n x else x)) ∧
  (∀ (n : Fin 13) (t : Nat) (s s' : State), s' = s.at t → s'.canRuns n ∧ s'.canState n = 5 →
    exec (.recoveryComplete n t) s = .next (canGo n 2 (((s'.put (CAN_STAT_RCNT n) 128).put (CAN_ECNT_TEC n) 0).put (CAN_ECNT_REC n) 0))) ∧
  (∀ (n : Fin 13) (t : Nat) (f : BusFrame) (s s' : State), s' = s.at t → s'.canHears n ∧ f.fdf = false →
    exec (.frameReceive n t f) s = .next (rxFrame n f s')) ∧
  (∀ (n : Fin 13) (t : Nat) (o : TxFrom) (s s' : State), s' = s.at t → s'.onBus n ∧ s'.pwr.mute = false ∧ s'.canState n ≠ 6 ∧
    (s'.can n).sending = none ∧ (s'.can n).pxWait = false ∧ s'.rateHeld n = false ∧ s'.gateHeld n = false ∧ s'.offer n false = some o →
    exec (.transmitStart n t) s = .next (startTx n o s')) ∧
  (∀ (n : Fin 13) (t : Nat) (tdcv : BitVec 7) (f : TxFrame) (s s' : State), s' = s.at t → s'.onBus n ∧ (s'.can n).current = some f ∧
    (s'.can n).sending = some .fifo ∧ f.fdf = false →
    exec (.frameSent n t tdcv) s = .next (txRecord n f 0 false (popTx n (canLevel n (s'.put (CAN_ECNT_TEC n) (s'.get (CAN_ECNT_TEC n) -
    1)))))) ∧
  (∀ (n : Fin 13) (t : Nat) (s s' : State), s' = s.at t → s'.onBus n ∧ (s'.can n).sending.isSome →
    exec (.arbitrationLost n t false) s = .next (txFail n s')) ∧
  (∀ (n : Fin 13) (t : Nat) (code : Fin 7) (dataPhase : Bool) (weight : Fin 3) (s s' : State), s' = s.at t → s'.onBus n ∧ code ≠ 0 →
    exec (.busError n t false code dataPhase weight) s = .next (busError n code false dataPhase (errorStep false weight) s')) ∧
  (∀ (n : Fin 13) (s : State), s.bit PRISM_GATE_CAN n = false → exec (.push n) s = .next (canPush n (s.staged n) s)) ∧
  (∀ (n : Fin 13) (s : State), s.bit PRISM_GATE_CAN n = false → exec (.urgent n) s = .next (canUrgent n (s.staged n) s)) ∧
  (∀ (n : Fin 13) (s : State), s.bit PRISM_GATE_CAN n = false → exec (.fifoFlush n) s = .next (canFlush n s)) ∧
  (∀ (n : Fin 13) (s : State), s.bit PRISM_GATE_CAN n = false → exec (.urgAbort n) s = .next (canUrgAbort n s)) ∧
  (∀ (n : Fin 13) (b : Fin 128) (s : State), s.bit PRISM_GATE_CAN n = false → exec (.mbPost n b) s = .next
    (s.modCan n (fun x => if x.posts.contains b.val then x else { x with posts := x.posts ++ [b.val] }))) ∧
  (∀ (n : Fin 13) (b : Fin 128) (s : State), s.bit PRISM_GATE_CAN n = false → exec (.rxAck n b) s = .next (rxAck n b s)) ∧
  (∀ (n : Fin 13) (t : Nat) (s : State), (s.at t).canRuns n ∧ s.get (CAN_STAT_ROLE n) = 2 ∧ t % s.refPer n = 0 →
    exec (.referenceSlot n t) s = .next ((s.at t).modCan n (fun x =>
    { x with refSlot := some { ide := s.on (CAN_REF_ID_IDE n), id := s.get (CAN_REF_ID_ID n), dlc := 1, data := [BitVec.ofNat 32 (s.get (CAN_REF_STAT_CYCLE n))] } }))) ∧
  (∀ (n : Fin 13) (t : Nat) (s s' : State), s' = s.at t → s'.canRuns n ∧ s'.on (CAN_REF_CTL_EN n) ∧ (s'.can n).refTold = false ∧
    2 * (s'.can n).refAt + 3 * s'.refPer n ≤ 2 * s'.now → exec (.refMiss n t) s = .next (
    let x := (s'.setCan n { s'.can n with refTold := true }).flag (CAN_FLAGS_REF_MISS n) true;
    report (337 + 4 * n) (if x.on (CAN_REF_CTL_PM n) then x.put (CAN_STAT_ROLE n) 2 else x))) ∧
  (∀ (n : Fin 13) (t : Nat) (s s' : State), s' = s.at t → s'.canRuns n →
    exec (.txdDominantTimeout n t) s = .next (report (339 + 4 * n) s'))

/-- Network management: sleep and wake of a bus. The network manager of a bus follows its requests and timers into and out of BUS_SLEEP;
wake events and wake-up frames act on a sleeping bus. Model's choices it rests on: log entry 52. -/
def Obligations.NetworkManagement : Prop :=
  (∀ (n : Fin 13) (en : Bool) (t : Nat) (s s' : State), s' = s.at t → s'.nmRuns → exec (.nmEn n en t) s = .next (
    let x := nmEnable n en s';
    if en && x.on (NM_CTL_REQ n) then nmRequested n x else x)) ∧
  (∀ (n : Fin 13) (req : Bool) (t : Nat) (s s' : State), s' = s.at t → s'.nmRuns → exec (.nmReq n req t) s = .next (nmReq n req s')) ∧
  (∀ (n : Fin 13) (t : Nat) (s s' : State), s' = s.at t → s'.nmRuns ∧ s'.nmState n = 2 ∧
    (s'.nm n).rallyAt + ms (orOne (s'.get (NM_CTL_RALLY_MS n))) ≤ s'.now →
    exec (.rallyTimer n t) s = .next (nmRelease n (sendRally n false (s'.modNm n (fun y => { y with rallyAt := s'.now }))))) ∧
  (∀ (n : Fin 13) (t : Nat) (s s' : State), s' = s.at t → s'.nmRuns ∧ s'.nmState n = 3 ∧ (s'.nm n).fwAt = none ∧
    (s'.nm n).tmoAt + ms (s'.get (NM_TMR_TMO_MS n)) ≤ s'.now → exec (.networkTimerExpiry n t) s = .next (nmPrepare n s')) ∧
  (∀ (n : Fin 13) (t : Nat) (s s' : State), s' = s.at t → s'.nmRuns ∧ s'.nmState n = 4 ∧
    (s'.nm n).prepAt + ms (s'.get (NM_TMR_WAIT_MS n)) ≤ s'.now →
    exec (.prepareSleepExpiry n t) s = .next (s'.modNm n (fun y => { y with leaving := true }))) ∧
  (∀ (n : Fin 13) (t : Nat) (s s' : State), s' = s.at t → s'.nmRuns ∧ s'.nmState n = 4 ∧ (s'.nm n).leaving ∧
    (s'.can n).sending = none → exec (.busLeave n t) s = .next (nmSleep n s')) ∧
  (∀ (n : Fin 13) (k : WakeKind) (t : Nat) (s s' : State), s' = s.at t → s'.alive ∧ s'.power ≠ .off →
    exec (.busWake n k t) s = .next (busWake n k s')) ∧
  (∀ (n : Fin 6) (t : Nat) (f : BusFrame) (s s' : State), s' = s.at t → s'.alive ∧ s'.power ≠ .off ∧ s'.on (NM_SW_ID_EN n) ∧
    s'.nmState n = 1 ∧ f.fdf = false → exec (.wakeUpFrame n t true f) s = .next (
    let x := s'.put (NM_SW_FRM_FEC n) (s'.get (NM_SW_FRM_FEC n) - 1);
    if x.isWuf n f then busWake n .frame x else x)) ∧
  (∀ (n : Fin 13) (t : Nat) (a : Nat) (s s' : State), s' = s.at t → s'.nmRuns ∧ s'.nmState n = 3 ∧ (s'.nm n).fwAt = some a ∧
    a + ms (s'.get (NM_FW_FW_TMO_MS n)) ≤ s'.now ∧ s'.get (NM_FW_FW_LIM n) = 0 →
    exec (.falseWake n t) s = .next (nmPrepare n ((s'.put (NM_STAT_FW_CNT n) (min 255 (s'.get (NM_STAT_FW_CNT n) + 1))).flag
    (NM_FLAGS_FALSE_WAKE n) true)))

/-- LIN, Ethernet, SENT and UART. Each link that runs performs its slot, frame, wake, descriptor and byte commands as its rule gives them.
Model's choices it rests on: log entries 53, 54. -/
def Obligations.OtherLinks : Prop :=
  (∀ (m : Fin 6) (t : Nat) (s s' : State), s' = s.at t → s'.linksRun ∧ s'.linState m = 1 ∧ s'.on (LIN_CTL_CMDR m) ∧
    (s'.lin m).slotAt + (s'.lin m).slotLen ≤ s'.now ∧ (s'.lin m).frame = none ∧ 64 * s'.get (LIN_SCHED_BASE m) = (s'.lin m).base ∧
    (s'.linSlot (s'.lin m).base (s'.lin m).slot).1 = 1 →
    exec (.linSlot m t) s = .next (linRunSlot m (s'.lin m).base (s'.lin m).slot s')) ∧
  (∀ (m : Fin 6) (t : Nat) (result : Fin 8) (data : List Byte) (id : Nat) (s s' : State), s' = s.at t → (s'.lin m).frame = some id ∧
    s'.linksRun ∧ s'.pwr.mute = false ∧ s'.linState m = 1 ∧ (s'.lin m).sleepCmd = false ∧ result ≠ 0 →
    exec (.linFrame m t result data) s = .next (linError m result (linWrite m id result data (s'.setLin m
    { s'.lin m with frame := none, sleepCmd := false, actAt := s'.now })))) ∧
  (∀ (m : Fin 6) (t dominant rate : Nat) (id : BitVec 6) (s s' : State), s' = s.at t → s'.linksRun ∧ s'.pwr.mute = false ∧
    s'.linState m = 1 ∧ s'.on (LIN_CTL_CMDR m) = false ∧ 11 ≤ dominant → exec (.linBreak m t dominant rate id true) s = .next (
    let x := s'.setLin m { s'.lin m with actAt := s'.now, frame := none, rate := rate };
    if !within (86 * s'.linBaud m) (114 * s'.linBaud m) (100 * rate) then linError m 7 x else x.setLin m
        { x.lin m with frame := some id.toNat })) ∧
  (∀ (m : Fin 6) (t : Nat) (s s' : State), s' = s.at t → s'.linksRun ∧ s'.linState m = 1 ∧ (s'.lin m).actAt + sec 4 ≤ s'.now →
    exec (.linInactivity m t) s = .next ((s'.put (LIN_STAT_STATE m) 2).setLin m { s'.lin m with frame := none })) ∧
  (∀ (m : Fin 6) (t : Nat) (s s' : State), s' = s.at t → s'.linksRun ∧ s'.linState m = 2 →
    exec (.linWake m t) s = .next (linStart m s')) ∧
  (∀ (m : Fin 6) (t dur : Nat) (s s' : State), s' = s.at t → s'.linksRun ∧ s'.alive ∧ s'.linState m = 2 ∧ us 150 ≤ dur →
    exec (.wakeRx m t dur) s = .next (
    let x := s'.flag (LIN_STAT_WAKE_RX m) true;
    let x : State := if x.asleep then { x with pwr := { x.pwr with lin := setBit x.pwr.lin m } } else x;
    if x.linksRun then linStart m x else x)) ∧
  (∀ (m : Fin 6) (t : Nat) (s s' : State), s' = s.at t → s'.linksRun ∧ s'.on (LIN_CTL_EN m) →
    exec (.linDominantTimeout m t) s = .next (report (388 + m) s')) ∧
  (∀ (e : Fin 2) (s : State), s.ethRuns e → exec (.ethTxPush e) s = .next (s.setEth e { s.eth e with sending := true })) ∧
  (∀ (e : Fin 2) (t ts : Nat) (s s' : State), s' = s.at t → s'.ethRuns e ∧ (s'.eth e).sending ∧ inShared (s'.ethTxDesc e) ∧
    (s'.wordN (s'.ethTxDesc e + 4)).testBit 31 → exec (.ethFrameSent e t ts) s = .next (
    let x := s'.setWords (s'.ethTxDesc e + 4) [BitVec.ofNat 32 (2 ^ 29 + s'.wordN (s'.ethTxDesc e + 4) % 2048), BitVec.ofNat 32 ts,
        BitVec.ofNat 32 (ts / 2 ^ 32)];
    let x := x.setEth e { x.eth e with tx := ((x.eth e).tx + 1) % 64 };
    x.setEth e { x.eth e with sending := (x.wordN (x.ethTxDesc e + 4)).testBit 31 })) ∧
  (∀ (e : Fin 2) (t ts : Nat) (bytes : List Byte) (s s' : State), s' = s.at t → s'.ethRuns e ∧ s'.on (ETH_STAT_LINK e) ∧
    ethSupported bytes ∧ s'.ethAccepts e bytes → exec (.ethFrameReceive e t ts bytes) s = .next (ethStore e ts bytes s')) ∧
  (∀ (e : Fin 2) (t : Nat) (s s' : State), s' = s.at t → s'.on (ETH_STAT_LINK e) ∧ (ethDown e s').alive ∧ (ethDown e s').power = .run →
    exec (.ethLinkLost e t) s = .next (report (394 + e) (ethDown e s'))) ∧
  (∀ (e : Fin 2) (t : Nat) (sqi : BitVec 3) (s s' : State), s' = s.at t → s'.ethRuns e →
    exec (.ethLinkUp e t sqi) s = .next ((s'.flag (ETH_STAT_LINK e) true).put (ETH_STAT_SQI e) sqi.toNat)) ∧
  (∀ (r : Fin 10) (t edge cal : Nat) (nibs : List Nat) (crc : Bool) (s s' : State), s' = s.at t → s'.sentRuns r ∧
    s'.sentCheck r cal nibs crc = 0 → exec (.sentFrame r t edge cal nibs crc none) s = .next (
    let x := s'.setSent r { s'.sent r with cal := some cal };
    let x := (x.put (SENT_FAST_ST r) (nibs.getD 0 12 - 12)).put (SENT_FAST_NIB r) (packNibbles ((nibs.drop 1).map (fun x => x - 12)));
    let x := ((x.put (SENT_FAST_TS_T r) edge).wrap (SENT_STAT_SEQ r)).setSent r { x.sent r with heardAt := x.now };
    sentYaw r edge (packNibbles ((nibs.drop 1).map (fun x => x - 12))) x)) ∧
  (∀ (r : Fin 10) (t : Nat) (s s' : State), s' = s.at t → s'.sentRuns r ∧ (s'.sent r).heardAt + ms 100 ≤ s'.now →
    exec (.sentSilence r t) s = .next (report (396 + r) (s'.setSent r { s'.sent r with heardAt := s'.now }))) ∧
  (∀ (u : Fin 4) (t : Nat) (b : Byte) (s s' : State), s' = s.at t → s'.uartRuns u ∧ (s'.uart u).rx.length < 512 ∧
    s'.on (UART_CTL_DATA7 u) = false → exec (.uartRxByte u t b false false) s = .next (s'.setUart u
    { s'.uart u with stopAt := some (s'.now), rx := (s'.uart u).rx ++ [⟨b, false, false⟩] })) ∧
  (∀ (u n : Fin 4) (b : BitVec 24) (t : Nat) (s s' : State), s' = s.at t → exec (.uartTxd u n b t) s = .next (uartSend u n b.toNat s')) ∧
  (∀ (u : Fin 4) (t : Nat) (a : Nat) (s s' : State), s' = s.at t → (s'.uart u).stopAt = some a ∧ s'.uartRuns u ∧
    a + s'.uartTime u (orOne (s'.get (UART_CTL_IDLE_BITS u))) ≤ s'.now → exec (.uartIdle u t) s = .next (
    let x := (s'.put64 (UART_IDLE_TS_LO_T u) (UART_IDLE_TS_HI_T u) a).wrap (UART_EVT_IDLE_SEQ u);
    x.setUart u { x.uart u with stopAt := none })) ∧
  (∀ (u : Fin 4) (t : Nat) (s s' : State), s' = s.at t → s'.uartRuns u ∧ s'.on (UART_CTL_PPS_EN u) ∧ s'.get (UART_CTL_PPS u) ≤ 11 →
    exec (.uartPps u t) s = .next ((s'.put64 (UART_PPS_TS_LO_T u) (UART_PPS_TS_HI_T u) t).wrap (UART_EVT_PPS_SEQ u))) ∧
  (∀ (t : Nat) (n : Fin 13) (s s' : State), s' = s.at t →
    exec (.transceiverOverTemperature (.can n) t) s = .next (report (339 + 4 * n) s'))

/-- Cab access and the immobiliser. While ACC is on, touches, requests, reply slots, verdicts and timeouts drive an exchange; lockouts and
holds end, and IMMO_OK falls when revoked. Model's choices it rests on: log entries 55, 56. -/
def Obligations.AccessCommands : Prop :=
  (∀ (e : Fin 4) (t : Nat) (over' : List Nat) (s s' : State), s' = s.at t → s'.accOn ∧ s'.capOn e ∧ s'.power = .run ∧
    s'.bit ACC_CAP_STAT_SUSP e = false ∧ 3 ≤ (over'.take 4).countP (fun x => decide (s'.capTh e < x)) ∧
    (s'.putBit ACC_CAP_STAT_TOUCH e true).asleep = false →
    exec (.touch e t over') s = .next (touchTrigger e (s'.putBit ACC_CAP_STAT_TOUCH e true))) ∧
  (∀ (e : Fin 4) (t : Nat) (a : Nat) (s s' : State), s' = s.at t → (s'.pad e).suspEnd = some a ∧ a ≤ s'.now →
    exec (.touchSuspendEnd e t) s = .next ((s'.setPad e { s'.pad e with suspEnd := none }).putBit ACC_CAP_STAT_SUSP e false)) ∧
  (∀ (zone : Fin 4) (t : Nat) (s s' : State), s' = s.at t → s'.accOn → exec (.go zone t) s = .next (serveRequest zone s')) ∧
  (∀ (t : Nat) (c : SlotClass) (x : Exchange) (s s' : State), s' = s.at t → s'.acc.exch = some x ∧ s'.accOn ∧ x.rechal = none ∧
    x.next < 7 ∧ x.window + ms (11 * x.next + 10) ≤ s'.now →
    exec (.replySlotEnd t c) s = .next (s'.setExch (some { x.take x.next c (s'.now) with next := x.next + 1 }))) ∧
  (∀ (t : Nat) (x : Exchange) (r : Reply) (l : List Reply) (s s' : State), s' = s.at t → s'.acc.exch = some x ∧ s'.accOn ∧
    x.wait = r :: l ∧ ¬((x.judge r (s'.verdict r)).rechal = none ∧ 8 ≤ (x.judge r (s'.verdict r)).next ∧
    (x.judge r (s'.verdict r)).wait = []) → exec (.keeperVerdict t) s = .next (s'.setExch (some (x.judge r (s'.verdict r))))) ∧
  (∀ (t : Nat) (x : Exchange) (r : Reply) (l : List Reply) (s s' : State), s' = s.at t → s'.acc.exch = some x ∧ s'.accOn ∧
    x.wait = r :: l ∧ r.at_ + ms 2 < s'.now → exec (.keeperTmo t) s = .next (finishExchange x true s')) ∧
  (∀ (t : Nat) (a : Nat) (s s' : State), s' = s.at t → s'.acc.lockEnd = some a ∧ a ≤ s'.now →
    exec (.lockoutEnd t) s = .next (({ s' with acc := { s'.acc with lockEnd := none }, accKept := { s'.accKept with remain := 0 } } :
    State))) ∧
  (∀ (t : Nat) (s s' : State), s' = s.at t → s'.alive ∧ s'.locked →
    exec (.lockoutSave t) s = .next (({ s' with accKept := { s'.accKept with remain := s'.lockLeft } } : State))) ∧
  (∀ (t : Nat) (a : Nat) (s s' : State), s' = s.at t → s'.acc.authAt = some a ∧ a + ms (s'.get ACC_TIMING_AUTH_HOLD_MS) ≤ s'.now →
    exec (.authHoldExpiry t) s = .next (({ s' with acc := { s'.acc with authAt := none } } : State))) ∧
  (∀ (t : Nat) (a : Nat) (s s' : State), s' = s.at t → s'.immoOk ∧ s'.pwr.ignLow = some a ∧
    a + ms (s'.get ACC_TIMING_IMMO_HOLD_MS) ≤ s'.now → exec (.immoHoldExpiry t) s = .next (immoReport (immoFall s'))) ∧
  (∀ (s : State), exec (.revoke) s = .next (immoReport (immoFall s))) ∧
  (∀ (s : State), s.alive → exec (.accEn) s = .next (s.flag ACC_CTL_EN true)) ∧
  (∀ (c : Int) (t : Nat) (s s' : State), s' = s.at t → s'.alive ∧ 150 ≤ c → exec (.accHealth c t) s = .next (report 411 s')) ∧
  (∀ (t : Nat) (s s' : State), s' = s.at t → exec (.accLink t) s = .next (report 410 s')) ∧
  (∀ (i : Fin 6) (bad : Bool) (mA t : Nat) (s s' : State), s' = s.at t → s'.accOn ∧ s'.bit ACC_CTL_LF_EN i ∧ 1500 < mA →
    exec (.lfDrv i bad mA t) s = .next (report 412 s')) ∧
  (∀ (t : Nat) (s s' : State), s' = s.at t → s'.accOn → exec (.uhfSynthesiserUnlock t) s = .next (report 413 s')) ∧
  (∀ (e : Fin 5) (t : Nat) (s s' : State), s' = s.at t → s'.accOn ∧ e ≠ 4 →
    exec (.electrodeShort e t) s = .next (report 414 (s'.putBit ACC_CAP_STAT_SHORT e true))) ∧
  (∀ (t : Nat) (s s' : State), s' = s.at t → s'.power = .run →
    exec (.lfDriveSupply true t) s = .next (startPending { s' with pwr := { s'.pwr with lfOff := false } }))

/-- The Umpire. A source whose quiet period has passed leaves ACTIVE, its recovery count is forgotten, SAFE is entered on request and by the
self-protection, and FLOOR is stored. Model's choices it rests on: log entry 70. -/
def Obligations.UmpireCommands : Prop :=
  (∀ (n : Fin 512) (t : Nat) (s s' : State), s' = s.at t → (s'.src n).state = .active ∧ (s'.src n).last + s'.quiet n ≤ s'.now →
    exec (.quietExpiry n t) s = .next (exitSource n s')) ∧
  (∀ (n : Fin 512) (t : Nat) (s s' : State), s' = s.at t → s'.get UMP_CFG_FORGET_MIN ≠ 0 ∧
    (s'.src n).last + sec (60 * s'.get UMP_CFG_FORGET_MIN) ≤ s'.now →
    exec (.recCntForget n t) s = .next (s'.put (UMP_SRC_ST_REC_CNT n) 0)) ∧
  (∀ (s : State), s.alive → exec (.safeReq) s = .next (dueReports (enterSafe 2 (s.flag UMP_CTL_SAFE_REQ true)))) ∧
  (∀ (v : BitVec 2) (s : State), exec (.floorLevel v) s = .next (s.put UMP_CTL_FLOOR v.toNat)) ∧
  (∀ (s : State), exec (.selfProtectionTrip false) s = .next (dueReports (enterSafe 4 (setSafeHeld true (s.flag UMP_STAT_SELF true)))))

/-- The Keeper's mailbox, tokens and random numbers. A command is taken by a mailbox that is not busy and completes; debug tokens, entropy
and the failure of the random number generator act as their rules say. Model's choices it rests on: log entries 3, 11, 57. -/
def Obligations.KeeperMailbox : Prop :=
  (∀ (t : Nat) (s s' : State), s' = s.at t → s'.keeperOn ∧ s'.on KMB_STAT_BUSY = false → exec (.getIdentity t) s = .next (
    let x := ((s'.put KMB_CMD_OP 1).put KMB_CMD_LEN 0).flag KMB_STAT_BUSY true;
    x.setKeeper { x.keeper with cmd := some (.identity, x.now) })) ∧
  (∀ (t : Nat) (count : BitVec 32) (s s' : State), s' = s.at t → s'.keeperOn ∧ s'.on KMB_STAT_BUSY = false →
    exec (.getRandom t count) s = .next (
    let x := (((s'.put (KMB_ARG_W 0) count.toNat).put KMB_CMD_OP 2).put KMB_CMD_LEN 4).flag KMB_STAT_BUSY true;
    x.setKeeper { x.keeper with cmd := some (.random count.toNat, x.now) })) ∧
  (∀ (t : Nat) (idx zone : BitVec 8) (token epoch count : BitVec 32) (sig : Bool) (s s' : State), s' = s.at t → s'.keeperOn ∧
    s'.on KMB_STAT_BUSY = false → exec (.tokenEnrol t idx zone token epoch count sig) s = .next (
    let x := ((s'.put KMB_CMD_OP 3).put KMB_CMD_LEN (s'.get KMB_CMD_LEN)).flag KMB_STAT_BUSY true;
    x.setKeeper { x.keeper with cmd := some (.enrol idx.toNat zone.toNat token.toNat epoch.toNat count.toNat sig, x.now) })) ∧
  (∀ (t : Nat) (idx : BitVec 8) (token epoch : BitVec 32) (sig : Bool) (s s' : State), s' = s.at t → s'.keeperOn ∧
    s'.on KMB_STAT_BUSY = false → exec (.tokenRevoke t idx token epoch sig) s = .next (
    let x := ((s'.put KMB_CMD_OP 4).put KMB_CMD_LEN (s'.get KMB_CMD_LEN)).flag KMB_STAT_BUSY true;
    x.setKeeper { x.keeper with cmd := some (.revoke idx.toNat token.toNat epoch.toNat sig, x.now) })) ∧
  (∀ (t : Nat) (s s' : State), s' = s.at t → s'.keeperOn ∧ s'.on KMB_STAT_BUSY = false → exec (.confirm t) s = .next (
    let x := ((s'.put KMB_CMD_OP 5).put KMB_CMD_LEN 0).flag KMB_STAT_BUSY true;
    x.setKeeper { x.keeper with cmd := some (.confirm, x.now) })) ∧
  (∀ (t : Nat) (s s' : State), s' = s.at t → s'.keeperOn ∧ s'.on KMB_STAT_BUSY = false → exec (.abandon t) s = .next (
    let x := ((s'.put KMB_CMD_OP 6).put KMB_CMD_LEN 0).flag KMB_STAT_BUSY true;
    x.setKeeper { x.keeper with cmd := some (.abandon, x.now) })) ∧
  (∀ (t : Nat) (valid : Bool) (codes : BitVec 48) (q : KmbReq × Nat) (s s' : State), s' = s.at t → s'.keeper.cmd = some q ∧
    s'.keeperOn ∧ s'.keeper.trngOff = false → exec (.mailboxComplete t valid codes) s = .next (mbxDo q.1 valid codes.toNat s')) ∧
  (∀ (t : Nat) (tok : DebugToken) (s s' : State), s' = s.at t → s'.keeperOn →
    exec (.portToken t tok) s = .next ((presentToken tok s').2)) ∧
  (∀ (t : Nat) (a : Nat) (s s' : State), s' = s.at t → s'.keeper.tokenEnd = some a ∧ a ≤ s'.now →
    exec (.tokenEnd t) s = .next (endToken s')) ∧
  (∀ (t : Nat) (x : Session) (s s' : State), s' = s.at t → s'.keeper.session = some x ∧ x.heard + sec 10 ≤ s'.now →
    exec (.sessionTimeout t) s = .next (s'.setKeeper { s'.keeper with session := none })) ∧
  (∀ (t : Nat) (s s' : State), s' = s.at t → s'.keeperOn →
    exec (.trngFailure t) s = .next (report 429 (s'.setKeeper { s'.keeper with trngOff := true }))) ∧
  (∀ (t : Nat) (s s' : State), s' = s.at t → s'.keeperOn ∧ s'.keeper.trngOff →
    exec (.trngResume t) s = .next (forEach (s'.keeper.waitSvc.filter (fun x => decide (s'.now < x.2.2.2 + ms 50))) (fun x y =>
    answerRandom x.1 x.2.1 x.2.2.1 y) (s'.setKeeper { s'.keeper with trngOff := false, waitSvc := [] }))) ∧
  (∀ (t : Nat) (q : KmbReq × Nat) (s s' : State), s' = s.at t → s'.keeper.cmd = some q ∧ needsRandom q.1 ∧ s'.keeper.trngOff ∧
    q.2 + ms 50 ≤ s'.now → exec (.entropy t) s = .next (mbxEnd 6 (s'.setKeeper
    { s'.keeper with waitSvc := s'.keeper.waitSvc.filter (fun w => decide (s'.now < w.2.2.2 + ms 50)) })))

/-- The Keeper's service on the bus: ownership, download, activation, debug. A service request that is heard, within the session of its tool
and with its conditions met, has its effect and is answered. Model's choices it rests on: log entries 10, 11, 58, 59. -/
def Obligations.KeeperService : Prop :=
  (∀ (tool : Fin 128) (seq : BitVec 8) (t : Nat) (s s' : State), s' = s.at t → s'.svcHears ∧ s'.session = none →
    exec (.hello tool seq t) s = .next (needRandom 0x10 tool seq.toNat s')) ∧
  (∀ (tool : Fin 128) (seq : BitVec 8) (t : Nat) (nonce : BitVec 128) (x : Session) (s s' : State), s' = s.at t → s'.svcHears ∧
    s'.session = some x ∧ x.tool = tool.val →
    exec (.attest tool seq t nonce) s = .next (reply 0x11 tool seq.toNat 0 ((s'.setKeeper
    { s'.keeper with session := some { x with heard := s'.now } }).attestBody nonce.toNat ++ beBytes 64 (Config.sm2Sign (s'.setKeeper
    { s'.keeper with session := some { x with heard := s'.now } }).drawn ((s'.setKeeper
    { s'.keeper with session := some { x with heard := s'.now } }).attestBody nonce.toNat)).toNat) (s'.setKeeper
    { s'.keeper with session := some { x with heard := s'.now } }).draw)) ∧
  (∀ (tool : Fin 128) (seq : BitVec 8) (t : Nat) (x : Session) (s s' : State), s' = s.at t → s'.svcHears ∧ s'.session = some x ∧
    x.tool = tool.val → exec (.serviceGetIdentity tool seq t) s = .next (reply 0x12 tool seq.toNat 0 ((s'.setKeeper
    { s'.keeper with session := some { x with heard := s'.now } }).pubBytes ++ leBytes 4 (s'.setKeeper
    { s'.keeper with session := some { x with heard := s'.now } }).machineId) (s'.setKeeper
    { s'.keeper with session := some { x with heard := s'.now } }))) ∧
  (∀ (tool : Fin 128) (seq : BitVec 8) (t : Nat) (key : BitVec 512) (x : Session) (s s' : State), s' = s.at t → s'.svcHears ∧
    s'.session = some x ∧ x.tool = tool.val ∧ s'.vault.owner = none ∧ s'.vault.damaged = false →
    exec (.enrolOwner tool seq t key true) s = .next (reply 0x20 tool seq.toNat 0 [] (setOwner key.toNat 1 (s'.setKeeper
    { s'.keeper with session := some { x with heard := s'.now } })))) ∧
  (∀ (tool : Fin 128) (seq : BitVec 8) (t : Nat) (key : BitVec 512) (epoch : BitVec 32) (x : Session) (s s' : State), s' = s.at t →
    s'.svcHears ∧ s'.session = some x ∧ x.tool = tool.val ∧ s'.vault.owner.isSome ∧ s'.vault.phase = 0 ∧
    epoch.toNat = s'.vault.epoch + 1 → exec (.transfer tool seq t key epoch true true) s = .next (reply 0x21 tool seq.toNat 0 []
    (endToken (setOwner key.toNat epoch.toNat (s'.setKeeper { s'.keeper with session := some { x with heard := s'.now } }))))) ∧
  (∀ (tool : Fin 128) (seq : BitVec 8) (t : Nat) (len : BitVec 32) (x : Session) (s s' : State), s' = s.at t → s'.svcHears ∧
    s'.session = some x ∧ x.tool = tool.val ∧ s'.vault.phase < 3 ∧ s'.sub.op = 0 ∧ len.toNat ≤ 17 * 1048576 →
    exec (.dlStart tool seq t len) s = .next (
    let y := (s'.setKeeper { s'.keeper with session := some { x with heard := s'.now } });
    reply 0x30 tool seq.toNat 0 []
        { y with vault := { y.vault with phase := 1, dlLen := len.toNat, dlNext := 0, dlDone := len.toNat == 0, verifyAsked := false, staged := {} }, keeper := { y.keeper with offBad := false, verifying := false, verifyFor := none, dlOpen := true } })) ∧
  (∀ (tool : Fin 128) (seq : BitVec 8) (t : Nat) (off : BitVec 32) (data : List Byte) (x : Session) (s s' : State), s' = s.at t →
    s'.svcHears ∧ s'.session = some x ∧ x.tool = tool.val ∧ s'.vault.phase = 1 ∧ s'.vault.dlDone = false ∧ s'.keeper.dlOpen ∧
    data.length = 56 ∧ off.toNat = s'.vault.dlNext → exec (.dlData tool seq t off data) s = .next (
    let y := dlTake data (s'.setKeeper { s'.keeper with session := some { x with heard := s'.now } });
    if seq.toNat % 16 == 15 || y.vault.dlDone then dlReply tool seq.toNat y else y)) ∧
  (∀ (tool : Fin 128) (seq : BitVec 8) (t : Nat) (x : Session) (s s' : State), s' = s.at t → s'.svcHears ∧ s'.session = some x ∧
    x.tool = tool.val ∧ s'.vault.phase = 1 ∧ s'.vault.dlDone → exec (.verify tool seq t) s = .next (
    let y := (s'.setKeeper { s'.keeper with session := some { x with heard := s'.now } });
    { y with vault := { y.vault with verifyAsked := true }, keeper := { y.keeper with verifying := true, verifyFor := some (tool.val, seq.toNat) } })) ∧
  (∀ (t : Nat) (sig digests tlSet : Bool) (s s' : State), s' = s.at t → s'.keeperOn ∧ s'.keeper.verifying ∧ s'.vault.phase = 1 ∧
    s'.vault.dlDone ∧ s'.containerOk sig digests tlSet →
    exec (.verifyComplete t sig digests tlSet) s = .next (verifyReply 0 (s'.setVault
    { s'.vault with phase := 2, verifyAsked := false, staged := s'.stagedManifest }))) ∧
  (∀ (tool : Fin 128) (seq : BitVec 8) (t : Nat) (x : Session) (s s' : State), s' = s.at t → s'.svcHears ∧ s'.session = some x ∧
    x.tool = tool.val ∧ s'.vault.phase = 2 →
    exec (.activate tool seq t) s = .next (acceptActivation 0x33 tool seq.toNat false (s'.setKeeper
    { s'.keeper with session := some { x with heard := s'.now } }))) ∧
  (∀ (tool : Fin 128) (seq : BitVec 8) (t : Nat) (x : Session) (s s' : State), s' = s.at t → s'.svcHears ∧ s'.session = some x ∧
    x.tool = tool.val ∧ s'.vault.phase = 4 →
    exec (.rollback tool seq t) s = .next (acceptActivation 0x35 tool seq.toNat true (s'.setKeeper
    { s'.keeper with session := some { x with heard := s'.now } }))) ∧
  (∀ (tool : Fin 128) (seq : BitVec 8) (t : Nat) (x : Session) (s s' : State), s' = s.at t → s'.svcHears ∧ s'.session = some x ∧
    x.tool = tool.val ∧ s'.mayConfirm → exec (.serviceConfirm tool seq t) s = .next (reply 0x34 tool seq.toNat 0 [] (confirmImage
    (s'.setKeeper { s'.keeper with session := some { x with heard := s'.now } })))) ∧
  (∀ (tool : Fin 128) (seq : BitVec 8) (t : Nat) (x : Session) (s s' : State), s' = s.at t → s'.svcHears ∧ s'.session = some x ∧
    x.tool = tool.val → exec (.dbgNonce tool seq t) s = .next (needRandom 0x40 tool seq.toNat (s'.setKeeper
    { s'.keeper with session := some { x with heard := s'.now } }))) ∧
  (∀ (tool : Fin 128) (seq : BitVec 8) (t : Nat) (tok : DebugToken) (x : Session) (s s' : State), s' = s.at t → s'.svcHears ∧
    s'.session = some x ∧ x.tool = tool.val → exec (.dbgToken tool seq t tok) s = .next (
    let r := presentToken tok (s'.setKeeper { s'.keeper with session := some { x with heard := s'.now } });
    reply 0x41 tool seq.toNat (if r.1 then 0 else 3) [] r.2))

/-- The work journal. A journal that is enabled, ready and not full takes submissions and the operations of items in the state their rule
names; operations become durable, holds and lifetimes end, and recovery sets READY. Model's choices it rests on: log entries 62, 63. -/
def Obligations.JournalCommands : Prop :=
  (∀ (t : Nat) (s s' : State), s' = s.at t → s'.alive ∧ s'.on JRNL_CTL_EN ∧ s'.on JRNL_STAT_FENCED = false ∧ s'.on JRNL_STAT_READY ∧
    s'.jrnl.queue.length < 64 ∧ s'.on (JRNL_SRC_CFG_EN (s'.get JRNL_SUB_HDR_SRC)) ∧ s'.get JRNL_SUB_HDR_KIND ≠ 0 ∧
    s'.jrnl.hdrBad = false ∧ s'.get JRNL_SUB_SEQ_SEQ = (s'.jrec (s'.get JRNL_SUB_HDR_SRC)).next ∧ s'.openItems < 49088 ∧
    s'.openOf (s'.get JRNL_SUB_HDR_SRC) < orOne (s'.get (JRNL_SRC_CFG_MAX_OPEN (s'.get JRNL_SUB_HDR_SRC))) →
    exec (.submit t) s = .next (jAccept (s'.get JRNL_SUB_HDR_SRC) (s'.get JRNL_SUB_HDR_KIND) (s'.get JRNL_SUB_SEQ_SEQ) s')) ∧
  (∀ (i : BitVec 16) (task : BitVec 8) (t : Nat) (s s' : State), s' = s.at t → s'.alive ∧ s'.on JRNL_CTL_EN ∧
    s'.on JRNL_STAT_FENCED = false ∧ s'.on JRNL_STAT_READY ∧ s'.jrnl.queue.length < 64 ∧ (s'.item i.toNat).state = 1 ∧
    (s'.item i.toNat).seq = s'.get JRNL_ARG_ARG →
    exec (.claim i task t) s = .next (jPush { items := [(i.toNat, { s'.item i.toNat with state := 2, claimant := task.toNat })] } s')) ∧
  (∀ (i : BitVec 16) (outcome : BitVec 4) (task : BitVec 8) (t : Nat) (s s' : State), s' = s.at t → s'.alive ∧ s'.on JRNL_CTL_EN ∧
    s'.on JRNL_STAT_FENCED = false ∧ s'.on JRNL_STAT_READY ∧ s'.jrnl.queue.length < 64 ∧ (s'.item i.toNat).state = 2 ∧
    (s'.item i.toNat).seq = s'.get JRNL_ARG_ARG ∧ (s'.item i.toNat).claimant = task.toNat ∧ 1 ≤ outcome.toNat ∧ outcome.toNat ≤ 3 →
    exec (.done i outcome task t) s = .next (jPush
    { items := [(i.toNat, { s'.item i.toNat with state := 3, outcome := outcome.toNat, result := s'.get JRNL_RESULT_RESULT })] } s')) ∧
  (∀ (i : BitVec 16) (t : Nat) (s s' : State), s' = s.at t → s'.alive ∧ s'.on JRNL_CTL_EN ∧ s'.on JRNL_STAT_FENCED = false ∧
    s'.on JRNL_STAT_READY ∧ s'.jrnl.queue.length < 64 ∧ (s'.item i.toNat).state = 1 ∧ (s'.item i.toNat).seq = s'.get JRNL_ARG_ARG →
    exec (.journalCancel i t) s = .next (jPush { items := [(i.toNat, { s'.item i.toNat with state := 3, outcome := 3 })] } s')) ∧
  (∀ (q : Fin 64) (t : Nat) (x : Nat × Item) (s s' : State), s' = s.at t → s'.alive ∧ s'.on JRNL_CTL_EN ∧
    s'.on JRNL_STAT_FENCED = false ∧ s'.on JRNL_STAT_READY ∧ s'.jrnl.queue.length < 64 ∧
    s'.jrnl.view.find q.val (s'.get JRNL_ARG_ARG) = some x ∧ s'.get JRNL_ARG_ARG = seqNext (s'.jrec q.val).rpt ∧ x.2.state = 3 →
    exec (.rptAck q t) s = .next (jPush { items := [(x.1, {})], recs := [(q.val, { s'.jrec q.val with rpt := s'.get JRNL_ARG_ARG })] }
    s')) ∧
  (∀ (q : Fin 64) (t : Nat) (s s' : State), s' = s.at t → s'.alive ∧ s'.on JRNL_CTL_EN ∧ s'.on JRNL_STAT_FENCED = false ∧
    s'.on JRNL_STAT_READY ∧ s'.jrnl.queue.length < 64 → exec (.replay q t) s = .next (jPush { replay := some q.val } s')) ∧
  (∀ (t : Nat) (w : JWork) (l : List JWork) (s s' : State), s' = s.at t → s'.clocks ∧ s'.on JRNL_STAT_FENCED = false ∧
    s'.jrnl.queue = w :: l → exec (.journalDurable t) s = .next (jDurable w { s' with jrnl := { s'.jrnl with queue := l } })) ∧
  (∀ (task : Fin 64) (t : Nat) (s s' : State), s' = s.at t → tget 0 s'.jrnl.commits task + ms (s'.get JRNL_CTL_HOLD_MS) ≤ s'.now ∧
    s'.on JRNL_STAT_READY → exec (.claimHoldExpiry task t) s = .next (forEach (s'.jrnl.view.items.filter (fun e => e.2.state == 2 &&
    e.2.claimant == task.val)) (fun e x => jRevert e.1 x) s')) ∧
  (∀ (i : BitVec 16) (t : Nat) (s s' : State), s' = s.at t → s'.on JRNL_STAT_READY ∧ (s'.item i.toNat).state = 1 ∧
    (s'.item i.toNat).ttl ≠ 0 ∧ (s'.item i.toNat).since + sec (s'.item i.toNat).ttl ≤ s'.now →
    exec (.ttlExpiry i t) s = .next (report 446 (jPush { items := [(i.toNat, { s'.item i.toNat with state := 3, outcome := 4 })] } s'))) ∧
  (∀ (t : Nat) (bad : List Nat) (s s' : State), s' = s.at t → s'.clocks ∧ s'.on JRNL_STAT_READY = false ∧
    s'.on JRNL_STAT_FENCED = false → exec (.journalRecoveryComplete t bad) s = .next (
    let x := forEach s'.book.items (jRecoverItem bad) s';
    let x : State :=
        { x with jrnl := { x.jrnl with view := x.book, queue := [], outNext := x.book.recs.foldl (fun m e => tset 0 m e.1 e.2.rpt) [] } };
    (overN 64 (fun q y => jOutcomes q y.book.items.length y) x).flag JRNL_STAT_READY true))

/-- Maintenance: requests, activities that finish, cancellations. A request of firmware is queued or refused, a queued slot is cancelled,
one that waits too long expires, and the end of a running activity has the effect of its kind and frees its slot. Model's choices it
rests on: log entry 64. -/
def Obligations.MaintenanceActivities : Prop :=
  (∀ (kind : Fin 16) (unit : BitVec 20) (t : Nat) (k : Nat) (s s' : State), s' = s.at t → s'.alive ∧ unitOk kind unit.toNat ∧
    s'.liveSlot kind unit.toNat = none ∧ s'.freeSlot = some k → exec (.mntRequest kind unit t) s = .next (
    let x := s'.setSlot k { state := 1, kind := kind, unit := unit.toNat, asker := .firmware, ord := s'.mnt.reqs + 1, reqAt := s'.now };
    let x : State := { x with mnt := { x.mnt with reqs := s'.mnt.reqs + 1 } };
    mntClass k (x.canMove unit.toNat) (x.put MNT_REQ_STAT_SLOT k))) ∧
  (∀ (slot : Fin 64) (t : Nat) (s s' : State), s' = s.at t → (s'.slot slot).state = 1 →
    exec (.mntCancel slot t) s = .next (s'.setSlot slot {})) ∧
  (∀ (slot : Fin 64) (t : Nat) (s s' : State), s' = s.at t → s'.clocks ∧ (s'.slot slot).state = 1 ∧ s'.get MNT_WAIT_WAIT_S ≠ 0 ∧
    (s'.slot slot).reqAt + sec (s'.get MNT_WAIT_WAIT_S) ≤ s'.now →
    exec (.activityExpired slot t) s = .next (report 447 (s'.setSlot slot { s'.slot slot with state := 7, ranAt := s'.now }))) ∧
  (∀ (u : Fin 7680) (t : Nat) (k : Nat) (s s' : State), s' = s.at t → s'.runningSlot 3 u = some k ∧ s'.clocks →
    exec (.eraseBlock u t (.finish true)) s = .next (subTryStart (mntEnd k true (blockErased u s')))) ∧
  (∀ (layer : Fin 3) (tx ty : BitVec 8) (t : Nat) (k : Nat) (s s' : State), s' = s.at t →
    s'.runningSlot 5 (layer * 65536 + tx.toNat * 256 + ty.toNat) = some k ∧ s'.clocks →
    exec (.page layer tx ty t (.finish true)) s = .next (subTryStart (mntEnd k true (pageIn (tileKey layer tx.toNat ty.toNat) s')))) ∧
  (∀ (t : Nat) (k : Nat) (s s' : State), s' = s.at t → s'.runningSlot 7 0 = some k ∧ s'.clocks ∧
    inShared (4096 * s'.get MNT_TEL_SRC_ADDR) →
    exec (.telemetry t (.finish true)) s = .next (subTryStart (mntEnd k true (s'.draw.setBytes (logBlock s') (s'.bytes (4096 * s'.get
    MNT_TEL_SRC_ADDR) 4096))))) ∧
  (∀ (t : Nat) (k : Nat) (s s' : State), s' = s.at t → s'.runningSlot 6 0 = some k ∧ s'.clocks →
    exec (.logCopy t (.finish true)) s = .next (subTryStart (mntEnd k true ((s'.draw.setWords (logBlock s') s'.uncopied).put
    UMP_LOG_STAT_UNCOPIED 0)))) ∧
  (∀ (i : Fin 152) (t : Nat) (down up : Bool) (k : Nat) (s s' : State), s' = s.at t → s'.runningSlot 9 i = some k ∧ s'.clocks ∧
    (s'.chan i).out = false → exec (.diagOff i t (.finish true) down up) s = .next (subTryStart (mntEnd k true (twice i 6 (if down then
    (s'.chan i).batHits + 1 else 0) (twice i 5 (if up then (s'.chan i).offHits + 1 else 0) (s'.setChan i
    { s'.chan i with offHits := if up then (s'.chan i).offHits + 1 else 0, batHits := if down then (s'.chan i).batHits + 1 else 0 })))))) ∧
  (∀ (i : Fin 152) (t off : Nat) (gain : BitVec 16) (k : Nat) (s s' : State), s' = s.at t → s'.runningSlot 8 i = some k ∧ s'.clocks ∧
    off ≤ 50 → exec (.calOn i t (.finish true) off gain) s = .next (subTryStart (mntEnd k true (
    let x := s'.modChan i (fun c => { c with senseBad := false });
    { x with calLive := tset [] x.calLive i [BitVec.ofNat 32 (trimmed (wbits ((tget [] x.calSet i).getD 0 0) 31 16) gain.toNat * 65536 + wbits ((tget [] x.calSet i).getD 0 0) 15 0), (tget [] x.calSet i).getD 1 0] })))) ∧
  (∀ (u : Fin 1024) (t : Nat) (corr : List (Nat × Nat)) (k : Nat) (s s' : State), s' = s.at t → s'.runningSlot 1 u = some k ∧
    s'.clocks ∧ s'.scrubDue u = false → exec (.scrubFlash u t (.finish true) corr false) s = .next (subTryStart (mntEnd k true
    (countCorrected corr s')))) ∧
  (∀ (u : Fin 384) (t : Nat) (k : Nat) (s s' : State), s' = s.at t → s'.runningSlot 2 u = some k ∧ s'.clocks ∧
    s'.now < tget 0 s'.mnt.bankAt u + sec (orOne (s'.get MNT_CTL_SRAM_S)) →
    exec (.scrubSram u t (.finish true) false) s = .next (subTryStart (mntEnd k true s'))) ∧
  (∀ (u : Fin 7680) (t : Nat) (k : Nat) (s s' : State), s' = s.at t → s'.runningSlot 4 u = some k ∧ s'.clocks ∧
    tget 0 s'.mnt.corrected u < 4 → exec (.wearReloc u t (.finish true)) s = .next (subTryStart (mntEnd k true
    ({ relocBlock u s' with mnt := { (relocBlock u s').mnt with corrected := tset 0 (relocBlock u s').mnt.corrected u 0 } })))) ∧
  (∀ (c : Fin 4) (t : Nat) (k : Nat) (s s' : State), s' = s.at t → s'.runningSlot 10 c = some k ∧ s'.clocks ∧ s'.sub.op ≠ 7 →
    exec (.coreTest c t (.finish true)) s = .next (subTryStart (mntEnd k true (
    let x := s'.putBit SUB_CORES_TEST c false;
    ({ x with sub := { x.sub with again := true, needTest := clrBit x.sub.needTest c } } : State)))))

/-- Substitution of units by the controller. With substitution enabled and no command running, each substitution command is accepted and
takes its course. Model's choices it rests on: log entry 65. -/
def Obligations.SubstitutionCommands : Prop :=
  (∀ (k : Fin 4) (t : Nat) (s s' : State), s' = s.at t → s'.alive ∧ s'.on SUB_CTL_EN ∧ s'.sub.op = 0 ∧ s'.dieMode k = 1 →
    exec (.subSeq k t) s = .next (subActivity 1 k s')) ∧
  (∀ (t : Nat) (s s' : State), s' = s.at t → s'.alive ∧ s'.on SUB_CTL_EN ∧ s'.sub.op = 0 ∧ s'.subContainer ∧
    s'.vault.staged.tl.isSome ∧ s'.tlSame → exec (.subTl t) s = .next (subActivity 2 0 s')) ∧
  (∀ (t : Nat) (s s' : State), s' = s.at t → s'.alive ∧ s'.on SUB_CTL_EN ∧ s'.sub.op = 0 ∧ s'.subContainer ∧ s'.vault.staged.cal →
    exec (.subCal t) s = .next (subActivity 3 0 s')) ∧
  (∀ (w : Fin 16) (t : Nat) (s s' : State), s' = s.at t → s'.alive ∧ s'.on SUB_CTL_EN ∧ s'.sub.op = 0 ∧ s'.vault.phase = 0 →
    exec (.segMap w t) s = .next (subActivity 4 w s')) ∧
  (∀ (w : Fin 16) (t : Nat) (s s' : State), s' = s.at t → s'.alive ∧ s'.on SUB_CTL_EN ∧ s'.sub.op = 0 → exec (.segUnmap w t) s = .next (
    let x := subAccept 5 w s';
    subShow 5 2 { x with sub := { x.sub with phase := 2, nextMaps := x.sub.nextMaps ++ [(w.val, none)] } })) ∧
  (∀ (c : Fin 4) (t : Nat) (s s' : State), s' = s.at t → s'.alive ∧ s'.on SUB_CTL_EN ∧ s'.sub.op = 0 ∧ s'.stranded c = false →
    exec (.coreOutCmd c t) s = .next (
    let x := (subAccept 6 c s').putBit SUB_CORES_OUT c true;
    subShow 6 2 { x with sub := { x.sub with phase := 2, again := true } })) ∧
  (∀ (c : Fin 4) (t : Nat) (s s' : State), s' = s.at t → s'.alive ∧ s'.on SUB_CTL_EN ∧ s'.sub.op = 0 →
    exec (.coreIn c t) s = .next (needCoreTest c ((subAccept 7 c s').putBit SUB_CORES_OUT c false)))

/-- Clocks and the Prism. A monitored clock that fails is handled as its rule says, a source that qualifies again ends its cause, causes
report again after 100 ms, and the return to the PLL, the calibration and the gates are taken. Model's choices it rests on: log entry
66. -/
def Obligations.ClockCommands : Prop :=
  (∀ (t : Nat) (s s' : State), s' = s.at t → s'.prismRuns ∧ s'.on PRISM_STAT_PLL_Q ∧ s'.get PRISM_STAT_SRC = 1 →
    exec (.prismReturn t) s = .next (({ s' with prism := { s'.prism with ret := true } } : State))) ∧
  (∀ (t : Nat) (s s' : State), s' = s.at t → s'.prismRuns ∧ s'.on PRISM_STAT_XIN_Q →
    exec (.clockMonitorTrip .xin t) s = .next (tripXin s')) ∧
  (∀ (t : Nat) (s s' : State), s' = s.at t → s'.prismRuns ∧ s'.on PRISM_STAT_HFRC_Q →
    exec (.sourceQualified .xin t) s = .next (causeEnds 0 (s'.flag PRISM_STAT_XIN_Q true))) ∧
  (∀ (t : Nat) (cal : BitVec 32) (s s' : State), s' = s.at t → s'.prismRuns ∧ s'.get PRISM_STAT_SRC = 0 →
    exec (.lfcalMeasure t cal) s = .next ((s'.put TBASE_LFCAL_INT (cal.toNat / 65536)).put TBASE_LFCAL_FRAC cal.toNat)) ∧
  (∀ (n : Fin 16) (t : Nat) (a : Nat) (s s' : State), s' = s.at t → tget none s'.prism.causes n = some a ∧ s'.prismRuns ∧
    a + ms 100 ≤ s'.now → exec (.clockRereport n t) s = .next (causeBegins n s')) ∧
  (∀ (v : BitVec 15) (s : State), s.alive → exec (.prismGate v) s = .next (gateWrite v.toNat s))

/-- Power states, wakes and the machine state. A power state is requested, times out or is reached, wakes and alarms act, and IGN-bound
machine states are stored. Model's choices it rests on: log entries 67, 68, 71. -/
def Obligations.PowerStates : Prop :=
  (∀ (t : Nat) (s s' : State), s' = s.at t → s'.clocks ∧ s'.get PWR_STAT_ENTRY = 0 → exec (.idleRequest t) s = .next (takeRequest 1 s')) ∧
  (∀ (t : Nat) (s s' : State), s' = s.at t → s'.clocks ∧ s'.get PWR_STAT_ENTRY = 0 →
    exec (.sleepRequest t) s = .next (takeRequest 2 s')) ∧
  (∀ (t : Nat) (s s' : State), s' = s.at t → s'.clocks ∧ s'.get PWR_STAT_ENTRY = 0 → exec (.deepRequest t) s = .next (takeRequest 3 s')) ∧
  (∀ (t : Nat) (s s' : State), s' = s.at t → s'.clocks ∧ s'.get PWR_STAT_ENTRY = 0 → exec (.offRequest t) s = .next (takeRequest 4 s')) ∧
  (∀ (t : Nat) (s s' : State), s' = s.at t → s'.get PWR_STAT_PHASE = 1 ∧
    s'.pwr.waitAt + sec (orOne (s'.get PWR_ENTRY_TMO_TMO_S)) < s'.now →
    exec (.entryTmo t) s = .next (takePending (report 22 (clearWakes ((endEntry s').flag PWR_STAT_TIMEOUT true))))) ∧
  (∀ (t : Nat) (plan : BootPlan) (s s' : State), s' = s.at t → s'.get PWR_STAT_PHASE = 2 ∧
    (reachTarget s').waking (reachTarget s').power.code = 0 → exec (.targetStateReached t plan) s = .next (reachTarget s')) ∧
  (∀ (src : WakeSrc) (t : Nat) (plan : BootPlan) (s s' : State), s' = s.at t →
    exec (.wake src t plan) s = .next (wakeNow (wakeBit src) (wakeUnit src) plan s')) ∧
  (∀ (level : Bool) (t : Nat) (s s' : State), s' = s.at t → exec (.wakeInput level t) s = .next (
    let e := (s'.get PWR_WAKE_CFG_MODE == 2 && level && !s'.pwr.wakeLvl) || (s'.get PWR_WAKE_CFG_MODE == 3 && !level && s'.pwr.wakeLvl);
    dropOld { s' with pwr := { s'.pwr with wakeLvl := level, wakeLatch := s'.pwr.wakeLatch || (e && !(s'.pastReturn && decide (3 ≤ s'.get PWR_STAT_ENTRY))) } })) ∧
  (∀ (t : Nat) (plan : BootPlan) (s s' : State), s' = s.at t → s'.get64 PWR_ALARM_LO_T PWR_ALARM_HI_T ≤ s'.now →
    exec (.alarm t plan) s = .next (wakeNow 5 0 plan s')) ∧
  (∀ (t : Nat) (s s' : State), s' = s.at t → s'.get PWR_IDLE_FRAMES ≠ 0 ∧ s'.get PWR_IDLE_FRAMES ≤ s'.pwr.frames ∧ s'.power = .idle →
    exec (.idleFrames t) s = .next (takePending (raiseAll 5 (overN 4 (fun c x => x.setCore c { x.core c with clockOff := false })
    ((clearWakes { s' with power := .run }).put PWR_STAT_STATE 0))))) ∧
  (∀ (v : BitVec 2) (s : State), s.alive ∧ s.get PWR_STAT_PHASE = 0 ∧ (v.toNat ≠ 2 ∨ s.pwr.ign) →
    exec (.machReq v) s = .next ((s.put PWR_MACH_REQ v.toNat).put PWR_MACH_STATE (if v.toNat = 3 then 0 else v.toNat)))
end

