-- ==== Sys2Proof/Laws/Alu.lean ====
section
/-!
SUPPORT. Sys2Proof/Laws/Alu.lean: what the adder of the data instructions gives: sum, carry, borrow and overflow in terms of the numbers
that the words stand for.
-/
namespace Sys2Proof.Machine
-- the small lemmas of this file one after another, each without a thread of its own
set_option Elab.async false

theorem word_toInt (x : Word) : x.toInt = if x.getLsbD 31 then (x.toNat : Int) - 2 ^ 32 else (x.toNat : Int) := by
  have := BitVec.toInt_eq_msb_cond x
  rw [BitVec.msb_eq_getLsbD_last] at this
  simpa using this

theorem word_top (x : Word) : x.getLsbD 31 = decide (2 ^ 31 ≤ x.toNat) := by
  rw [← BitVec.msb_eq_getLsbD_last (x := x), BitVec.msb_eq_decide]

theorem word_toNat_not (x : Word) : (~~~x).toNat = 2 ^ 32 - 1 - x.toNat := by simp [BitVec.toNat_not]

theorem addc_r (a b : Word) (c : Bool) : (addc a b c).1 = a + b + (if c then 1 else 0) := by
  apply BitVec.eq_of_toNat_eq
  cases c <;> simp [addc, BitVec.toNat_add]

theorem addc_v (a b : Word) (c : Bool) : (addc a b c).2.2 = true ↔
    a.toInt + b.toInt + (if c then 1 else 0) < -(2 ^ 31) ∨ 2 ^ 31 ≤ a.toInt + b.toInt + (if c then 1 else 0) := by
  have ha := a.isLt
  have hb := b.isLt
  simp only [addc, word_toInt, word_top, BitVec.toNat_ofNat]
  generalize a.toNat = x at *
  generalize b.toNat = y at *
  cases c <;> by_cases h1 : 2 ^ 31 ≤ x <;> by_cases h2 : 2 ^ 31 ≤ y <;> simp [h1, h2] <;> omega

theorem addc_not_v (a b : Word) (c : Bool) : (addc a (~~~b) c).2.2 = true ↔
    a.toInt - b.toInt - (if c then 0 else 1) < -(2 ^ 31) ∨ 2 ^ 31 ≤ a.toInt - b.toInt - (if c then 0 else 1) := by
  rw [addc_v]
  have hb := b.isLt
  have : (~~~b).toInt = - b.toInt - 1 := by
    rw [word_toInt, word_toInt, word_top, word_top, word_toNat_not]
    by_cases h2 : 2 ^ 31 ≤ b.toNat <;> simp [h2] <;> split <;> omega
  rw [this]
  cases c <;> simp <;> omega

theorem addc_c (a b : Word) (c : Bool) : (addc a b c).2.1 = true ↔ 2 ^ 32 ≤ a.toNat + b.toNat + (if c then 1 else 0) := by
  simp [addc]

theorem addc_not_c (a b : Word) (c : Bool) : (addc a (~~~b) c).2.1 = true ↔ b.toNat + (if c then 0 else 1) ≤ a.toNat := by
  have := b.isLt
  rw [addc_c, word_toNat_not]
  cases c <;> simp <;> omega

theorem addc_not_r (a b : Word) (c : Bool) : (addc a (~~~b) c).1 = a - b - (if c then 0 else 1) := by
  rw [addc_r, BitVec.not_eq_neg_add]
  cases c
  · simp; ring
  · simp; ring

end Sys2Proof.Machine
end

