-- ==== Sys2Proof/Laws/Tab.lean ====
section
/-!
SUPPORT. Sys2Proof/Laws/Tab.lean: reading after a write, and the canonical form, of the finite tables that memory, register fields and
per-unit records are.
-/
namespace Sys2Proof.Machine
-- the small lemmas of this file one after another, each without a thread of its own
set_option Elab.async false

variable {α : Type}

theorem Tab.get_ins (d : Nat → α) (m : Tab α) (k j : Nat) (v : α) :
    Tab.get d (Tab.ins k v m) j = if j = k then v else Tab.get d m j := by
  induction m with
  | nil => simp [Tab.ins, Tab.get]
  | cons e m ih =>
    unfold Tab.ins
    split
    · rfl
    · split
      · rename_i h; subst h; by_cases hj : j = e.1 <;> simp [Tab.get, hj]
      · rename_i h
        by_cases hj : j = e.1
        · have : ¬ e.1 = k := fun a => h a.symm
          simp [Tab.get, hj, this]
        · simp [Tab.get, hj, ih]

theorem Tab.get_del (d : Nat → α) (m : Tab α) (k j : Nat) :
    Tab.get d (Tab.del k m) j = if j = k then d k else Tab.get d m j := by
  induction m with
  | nil => by_cases h : j = k <;> simp [Tab.del, Tab.get, h]
  | cons e m ih =>
    unfold Tab.del
    split
    · rename_i h; rw [ih]; by_cases hj : j = k
      · simp [hj]
      · have : ¬ j = e.1 := by omega
        simp [Tab.get, hj, this]
    · rename_i h
      by_cases hj : j = e.1
      · have : ¬ e.1 = k := fun a => h a.symm
        simp [Tab.get, hj, this]
      · simp [Tab.get, hj, ih]

/-- A read after a write gives the value written at its key and what it gave before at every other key. -/
theorem Tab.get_set [DecidableEq α] (d : Nat → α) (m : Tab α) (k j : Nat) (v : α) :
    Tab.get d (Tab.set d m k v) j = if j = k then v else Tab.get d m j := by
  unfold Tab.set
  split
  · rename_i h; rw [Tab.get_del, h]
  · exact Tab.get_ins d m k j v

theorem Tab.get_set_self [DecidableEq α] (d : Nat → α) (m : Tab α) (k : Nat) (v : α) :
    Tab.get d (Tab.set d m k v) k = v := by simp [Tab.get_set]

theorem Tab.get_set_ne [DecidableEq α] (d : Nat → α) (m : Tab α) {k j : Nat} (v : α) (h : j ≠ k) :
    Tab.get d (Tab.set d m k v) j = Tab.get d m j := by simp [Tab.get_set, h]

/-- The canonical form said by membership and order. -/
theorem Tab.wf_iff [DecidableEq α] (d : Nat → α) (m : Tab α) :
    Tab.wf d m = true ↔ (∀ e ∈ m, e.2 ≠ d e.1) ∧ m.Pairwise (fun a b => a.1 < b.1) := by
  induction m with
  | nil => simp [Tab.wf]
  | cons e m ih =>
    cases m with
    | nil => simp [Tab.wf]
    | cons e' m =>
      simp only [Tab.wf, Bool.and_eq_true, decide_eq_true_eq, ih]
      constructor
      · rintro ⟨⟨h1, h2⟩, h3, h4⟩
        refine ⟨?_, ?_⟩
        · intro x hx
          rcases List.mem_cons.1 hx with rfl | hx
          · exact h1
          · exact h3 x hx
        · refine List.pairwise_cons.2 ⟨?_, h4⟩
          intro b hb
          rcases List.mem_cons.1 hb with rfl | hb
          · exact h2
          · exact lt_trans h2 ((List.pairwise_cons.1 h4).1 b hb)
      · rintro ⟨h1, h2⟩
        have h2' := List.pairwise_cons.1 h2
        exact ⟨⟨h1 e (.head _), h2'.1 e' (.head _)⟩, fun x hx => h1 x (.tail _ hx), h2'.2⟩

theorem Tab.mem_ins {m : Tab α} {k : Nat} {v : α} {e : Nat × α} (h : e ∈ Tab.ins k v m) : e = (k, v) ∨ e ∈ m := by
  induction m with
  | nil => simpa [Tab.ins] using h
  | cons x m ih =>
    unfold Tab.ins at h
    split at h
    · simpa using h
    · split at h
      · rcases List.mem_cons.1 h with rfl | h
        · exact .inl rfl
        · exact .inr (.tail _ h)
      · rcases List.mem_cons.1 h with rfl | h
        · exact .inr (.head _)
        · exact (ih h).imp id (.tail _)

theorem Tab.mem_del {m : Tab α} {k : Nat} {e : Nat × α} (h : e ∈ Tab.del k m) : e ∈ m := by
  induction m with
  | nil => simp [Tab.del] at h
  | cons x m ih =>
    unfold Tab.del at h
    split at h
    · exact .tail _ (ih h)
    · rcases List.mem_cons.1 h with rfl | h
      · exact .head _
      · exact .tail _ (ih h)

theorem Tab.ins_rising {m : Tab α} {k : Nat} {v : α} (h : m.Pairwise (fun a b => a.1 < b.1)) :
    (Tab.ins k v m).Pairwise (fun a b => a.1 < b.1) := by
  induction m with
  | nil => simp [Tab.ins]
  | cons x m ih =>
    have h' := List.pairwise_cons.1 h
    unfold Tab.ins
    split
    · rename_i hk
      refine List.pairwise_cons.2 ⟨?_, h⟩
      intro b hb
      rcases List.mem_cons.1 hb with rfl | hb
      · exact hk
      · exact lt_trans hk (h'.1 b hb)
    · split
      · rename_i hk; exact List.pairwise_cons.2 ⟨fun b hb => hk ▸ h'.1 b hb, h'.2⟩
      · rename_i h1 h2
        refine List.pairwise_cons.2 ⟨?_, ih h'.2⟩
        intro b hb
        rcases Tab.mem_ins hb with rfl | hb
        · show x.1 < k; omega
        · exact h'.1 b hb

theorem Tab.del_rising {m : Tab α} {k : Nat} (h : m.Pairwise (fun a b => a.1 < b.1)) :
    (Tab.del k m).Pairwise (fun a b => a.1 < b.1) := by
  induction m with
  | nil => simp [Tab.del]
  | cons x m ih =>
    have h' := List.pairwise_cons.1 h
    unfold Tab.del
    split
    · exact ih h'.2
    · exact List.pairwise_cons.2 ⟨fun b hb => h'.1 b (Tab.mem_del hb), ih h'.2⟩

/-- A write keeps the canonical form. -/
theorem Tab.set_wf [DecidableEq α] {d : Nat → α} {m : Tab α} (k : Nat) (v : α) (h : Tab.wf d m = true) :
    Tab.wf d (Tab.set d m k v) = true := by
  rw [Tab.wf_iff] at h ⊢
  unfold Tab.set
  split
  · exact ⟨fun e he => h.1 e (Tab.mem_del he), Tab.del_rising h.2⟩
  · rename_i hv
    refine ⟨fun e he => ?_, Tab.ins_rising h.2⟩
    rcases Tab.mem_ins he with rfl | he
    · exact hv
    · exact h.1 e he

/-- Dropping entries keeps the canonical form. -/
theorem Tab.keep_wf [DecidableEq α] {d : Nat → α} {m : Tab α} (p : Nat → Bool) (h : Tab.wf d m = true) :
    Tab.wf d (Tab.keep p m) = true := by
  rw [Tab.wf_iff] at h ⊢
  exact ⟨fun e he => h.1 e (List.mem_of_mem_filter he), h.2.filter _⟩

theorem Tab.nil_wf [DecidableEq α] (d : Nat → α) : Tab.wf d ([] : Tab α) = true := rfl

theorem Tab.foldl_set_wf {β : Type} [DecidableEq α] {d : Nat → α} (f : β → Nat) (g : β → α) (l : List β) (m : Tab α)
    (h : Tab.wf d m = true) : Tab.wf d (l.foldl (fun m e => Tab.set d m (f e) (g e)) m) = true := by
  induction l generalizing m with
  | nil => exact h
  | cons x l ih => exact ih _ (Tab.set_wf _ _ h)

end Sys2Proof.Machine
end

