-- ==== Sys2Proof/Laws/State.lean ====
section
/-!
SUPPORT. Sys2Proof/Laws/State.lean: what each update of the state leaves of every field, one lemma for each field, and what a
register field, a byte of memory and a unit record read as after they are written.
-/
namespace Sys2Proof.Machine
-- the small lemmas of this file one after another, each without a thread of its own
set_option Elab.async false
variable (s : State)

/-! ### `State.put` -/

@[simp] theorem State.put_power (f : Fld) (v : Nat) : (s.put f v).power = s.power := rfl
@[simp] theorem State.put_alive (f : Fld) (v : Nat) : (s.put f v).alive = s.alive := rfl
@[simp] theorem State.put_pwr (f : Fld) (v : Nat) : (s.put f v).pwr = s.pwr := rfl
@[simp] theorem State.put_prism (f : Fld) (v : Nat) : (s.put f v).prism = s.prism := rfl
@[simp] theorem State.put_pending (f : Fld) (v : Nat) : (s.put f v).pending = s.pending := rfl
@[simp] theorem State.put_now (f : Fld) (v : Nat) : (s.put f v).now = s.now := rfl
@[simp] theorem State.put_blocksArmed (f : Fld) (v : Nat) : (s.put f v).blocksArmed = s.blocksArmed := rfl
@[simp] theorem State.put_segsWritten (f : Fld) (v : Nat) : (s.put f v).segsWritten = s.segsWritten := rfl
@[simp] theorem State.put_dbgPort (f : Fld) (v : Nat) : (s.put f v).dbgPort = s.dbgPort := rfl
@[simp] theorem State.put_frozen (f : Fld) (v : Nat) : (s.put f v).frozen = s.frozen := rfl
@[simp] theorem State.put_mem (f : Fld) (v : Nat) : (s.put f v).mem = s.mem := rfl
@[simp] theorem State.put_ded (f : Fld) (v : Nat) : (s.put f v).ded = s.ded := rfl
@[simp] theorem State.put_drawn (f : Fld) (v : Nat) : (s.put f v).drawn = s.drawn := rfl
@[simp] theorem State.put_cores (f : Fld) (v : Nat) : (s.put f v).cores = s.cores := rfl
@[simp] theorem State.put_frame (f : Fld) (v : Nat) : (s.put f v).frame = s.frame := rfl
@[simp] theorem State.put_tick (f : Fld) (v : Nat) : (s.put f v).tick = s.tick := rfl
@[simp] theorem State.put_rlog (f : Fld) (v : Nat) : (s.put f v).rlog = s.rlog := rfl
@[simp] theorem State.put_ump (f : Fld) (v : Nat) : (s.put f v).ump = s.ump := rfl
@[simp] theorem State.put_ignOk (f : Fld) (v : Nat) : (s.put f v).ignOk = s.ignOk := rfl
@[simp] theorem State.put_immoOk (f : Fld) (v : Nat) : (s.put f v).immoOk = s.immoOk := rfl
@[simp] theorem State.put_applyOk (f : Fld) (v : Nat) : (s.put f v).applyOk = s.applyOk := rfl
@[simp] theorem State.put_chans (f : Fld) (v : Nat) : (s.put f v).chans = s.chans := rfl
@[simp] theorem State.put_tl (f : Fld) (v : Nat) : (s.put f v).tl = s.tl := rfl
@[simp] theorem State.put_dies (f : Fld) (v : Nat) : (s.put f v).dies = s.dies := rfl
@[simp] theorem State.put_groups (f : Fld) (v : Nat) : (s.put f v).groups = s.groups := rfl
@[simp] theorem State.put_chain (f : Fld) (v : Nat) : (s.put f v).chain = s.chain := rfl
@[simp] theorem State.put_leds (f : Fld) (v : Nat) : (s.put f v).leds = s.leds := rfl
@[simp] theorem State.put_chtPosts (f : Fld) (v : Nat) : (s.put f v).chtPosts = s.chtPosts := rfl
@[simp] theorem State.put_status (f : Fld) (v : Nat) : (s.put f v).status = s.status := rfl
@[simp] theorem State.put_psch (f : Fld) (v : Nat) : (s.put f v).psch = s.psch := rfl
@[simp] theorem State.put_field (f : Fld) (v : Nat) : (s.put f v).field = s.field := rfl
@[simp] theorem State.put_tlActive (f : Fld) (v : Nat) : (s.put f v).tlActive = s.tlActive := rfl
@[simp] theorem State.put_calActive (f : Fld) (v : Nat) : (s.put f v).calActive = s.calActive := rfl
@[simp] theorem State.put_mnt (f : Fld) (v : Nat) : (s.put f v).mnt = s.mnt := rfl
@[simp] theorem State.put_calSet (f : Fld) (v : Nat) : (s.put f v).calSet = s.calSet := rfl
@[simp] theorem State.put_calLive (f : Fld) (v : Nat) : (s.put f v).calLive = s.calLive := rfl
@[simp] theorem State.put_cov (f : Fld) (v : Nat) : (s.put f v).cov = s.cov := rfl
@[simp] theorem State.put_store (f : Fld) (v : Nat) : (s.put f v).store = s.store := rfl
@[simp] theorem State.put_tmr (f : Fld) (v : Nat) : (s.put f v).tmr = s.tmr := rfl
@[simp] theorem State.put_tmrPosts (f : Fld) (v : Nat) : (s.put f v).tmrPosts = s.tmrPosts := rfl
@[simp] theorem State.put_tmrStatus (f : Fld) (v : Nat) : (s.put f v).tmrStatus = s.tmrStatus := rfl
@[simp] theorem State.put_captPins (f : Fld) (v : Nat) : (s.put f v).captPins = s.captPins := rfl
@[simp] theorem State.put_scan (f : Fld) (v : Nat) : (s.put f v).scan = s.scan := rfl
@[simp] theorem State.put_cans (f : Fld) (v : Nat) : (s.put f v).cans = s.cans := rfl
@[simp] theorem State.put_nms (f : Fld) (v : Nat) : (s.put f v).nms = s.nms := rfl
@[simp] theorem State.put_lins (f : Fld) (v : Nat) : (s.put f v).lins = s.lins := rfl
@[simp] theorem State.put_eths (f : Fld) (v : Nat) : (s.put f v).eths = s.eths := rfl
@[simp] theorem State.put_sents (f : Fld) (v : Nat) : (s.put f v).sents = s.sents := rfl
@[simp] theorem State.put_uarts (f : Fld) (v : Nat) : (s.put f v).uarts = s.uarts := rfl
@[simp] theorem State.put_acc (f : Fld) (v : Nat) : (s.put f v).acc = s.acc := rfl
@[simp] theorem State.put_accKept (f : Fld) (v : Nat) : (s.put f v).accKept = s.accKept := rfl
@[simp] theorem State.put_vault (f : Fld) (v : Nat) : (s.put f v).vault = s.vault := rfl
@[simp] theorem State.put_keeper (f : Fld) (v : Nat) : (s.put f v).keeper = s.keeper := rfl
@[simp] theorem State.put_book (f : Fld) (v : Nat) : (s.put f v).book = s.book := rfl
@[simp] theorem State.put_jrnl (f : Fld) (v : Nat) : (s.put f v).jrnl = s.jrnl := rfl
@[simp] theorem State.put_sub (f : Fld) (v : Nat) : (s.put f v).sub = s.sub := rfl

/-! ### `State.at` -/

@[simp] theorem State.at_power (t : Nat) : (s.at t).power = s.power := rfl
@[simp] theorem State.at_alive (t : Nat) : (s.at t).alive = s.alive := rfl
@[simp] theorem State.at_pwr (t : Nat) : (s.at t).pwr = s.pwr := rfl
@[simp] theorem State.at_prism (t : Nat) : (s.at t).prism = s.prism := rfl
@[simp] theorem State.at_pending (t : Nat) : (s.at t).pending = s.pending := rfl
@[simp] theorem State.at_fields (t : Nat) : (s.at t).fields = s.fields := rfl
@[simp] theorem State.at_blocksArmed (t : Nat) : (s.at t).blocksArmed = s.blocksArmed := rfl
@[simp] theorem State.at_segsWritten (t : Nat) : (s.at t).segsWritten = s.segsWritten := rfl
@[simp] theorem State.at_dbgPort (t : Nat) : (s.at t).dbgPort = s.dbgPort := rfl
@[simp] theorem State.at_frozen (t : Nat) : (s.at t).frozen = s.frozen := rfl
@[simp] theorem State.at_mem (t : Nat) : (s.at t).mem = s.mem := rfl
@[simp] theorem State.at_ded (t : Nat) : (s.at t).ded = s.ded := rfl
@[simp] theorem State.at_drawn (t : Nat) : (s.at t).drawn = s.drawn := rfl
@[simp] theorem State.at_cores (t : Nat) : (s.at t).cores = s.cores := rfl
@[simp] theorem State.at_frame (t : Nat) : (s.at t).frame = s.frame := rfl
@[simp] theorem State.at_tick (t : Nat) : (s.at t).tick = s.tick := rfl
@[simp] theorem State.at_rlog (t : Nat) : (s.at t).rlog = s.rlog := rfl
@[simp] theorem State.at_ump (t : Nat) : (s.at t).ump = s.ump := rfl
@[simp] theorem State.at_ignOk (t : Nat) : (s.at t).ignOk = s.ignOk := rfl
@[simp] theorem State.at_immoOk (t : Nat) : (s.at t).immoOk = s.immoOk := rfl
@[simp] theorem State.at_applyOk (t : Nat) : (s.at t).applyOk = s.applyOk := rfl
@[simp] theorem State.at_chans (t : Nat) : (s.at t).chans = s.chans := rfl
@[simp] theorem State.at_tl (t : Nat) : (s.at t).tl = s.tl := rfl
@[simp] theorem State.at_dies (t : Nat) : (s.at t).dies = s.dies := rfl
@[simp] theorem State.at_groups (t : Nat) : (s.at t).groups = s.groups := rfl
@[simp] theorem State.at_chain (t : Nat) : (s.at t).chain = s.chain := rfl
@[simp] theorem State.at_leds (t : Nat) : (s.at t).leds = s.leds := rfl
@[simp] theorem State.at_chtPosts (t : Nat) : (s.at t).chtPosts = s.chtPosts := rfl
@[simp] theorem State.at_status (t : Nat) : (s.at t).status = s.status := rfl
@[simp] theorem State.at_psch (t : Nat) : (s.at t).psch = s.psch := rfl
@[simp] theorem State.at_field (t : Nat) : (s.at t).field = s.field := rfl
@[simp] theorem State.at_tlActive (t : Nat) : (s.at t).tlActive = s.tlActive := rfl
@[simp] theorem State.at_calActive (t : Nat) : (s.at t).calActive = s.calActive := rfl
@[simp] theorem State.at_mnt (t : Nat) : (s.at t).mnt = s.mnt := rfl
@[simp] theorem State.at_calSet (t : Nat) : (s.at t).calSet = s.calSet := rfl
@[simp] theorem State.at_calLive (t : Nat) : (s.at t).calLive = s.calLive := rfl
@[simp] theorem State.at_cov (t : Nat) : (s.at t).cov = s.cov := rfl
@[simp] theorem State.at_store (t : Nat) : (s.at t).store = s.store := rfl
@[simp] theorem State.at_tmr (t : Nat) : (s.at t).tmr = s.tmr := rfl
@[simp] theorem State.at_tmrPosts (t : Nat) : (s.at t).tmrPosts = s.tmrPosts := rfl
@[simp] theorem State.at_tmrStatus (t : Nat) : (s.at t).tmrStatus = s.tmrStatus := rfl
@[simp] theorem State.at_captPins (t : Nat) : (s.at t).captPins = s.captPins := rfl
@[simp] theorem State.at_scan (t : Nat) : (s.at t).scan = s.scan := rfl
@[simp] theorem State.at_cans (t : Nat) : (s.at t).cans = s.cans := rfl
@[simp] theorem State.at_nms (t : Nat) : (s.at t).nms = s.nms := rfl
@[simp] theorem State.at_lins (t : Nat) : (s.at t).lins = s.lins := rfl
@[simp] theorem State.at_eths (t : Nat) : (s.at t).eths = s.eths := rfl
@[simp] theorem State.at_sents (t : Nat) : (s.at t).sents = s.sents := rfl
@[simp] theorem State.at_uarts (t : Nat) : (s.at t).uarts = s.uarts := rfl
@[simp] theorem State.at_acc (t : Nat) : (s.at t).acc = s.acc := rfl
@[simp] theorem State.at_accKept (t : Nat) : (s.at t).accKept = s.accKept := rfl
@[simp] theorem State.at_vault (t : Nat) : (s.at t).vault = s.vault := rfl
@[simp] theorem State.at_keeper (t : Nat) : (s.at t).keeper = s.keeper := rfl
@[simp] theorem State.at_book (t : Nat) : (s.at t).book = s.book := rfl
@[simp] theorem State.at_jrnl (t : Nat) : (s.at t).jrnl = s.jrnl := rfl
@[simp] theorem State.at_sub (t : Nat) : (s.at t).sub = s.sub := rfl

/-! ### `State.draw` -/

@[simp] theorem State.draw_power : s.draw.power = s.power := rfl
@[simp] theorem State.draw_alive : s.draw.alive = s.alive := rfl
@[simp] theorem State.draw_pwr : s.draw.pwr = s.pwr := rfl
@[simp] theorem State.draw_prism : s.draw.prism = s.prism := rfl
@[simp] theorem State.draw_pending : s.draw.pending = s.pending := rfl
@[simp] theorem State.draw_now : s.draw.now = s.now := rfl
@[simp] theorem State.draw_fields : s.draw.fields = s.fields := rfl
@[simp] theorem State.draw_blocksArmed : s.draw.blocksArmed = s.blocksArmed := rfl
@[simp] theorem State.draw_segsWritten : s.draw.segsWritten = s.segsWritten := rfl
@[simp] theorem State.draw_dbgPort : s.draw.dbgPort = s.dbgPort := rfl
@[simp] theorem State.draw_frozen : s.draw.frozen = s.frozen := rfl
@[simp] theorem State.draw_mem : s.draw.mem = s.mem := rfl
@[simp] theorem State.draw_ded : s.draw.ded = s.ded := rfl
@[simp] theorem State.draw_cores : s.draw.cores = s.cores := rfl
@[simp] theorem State.draw_frame : s.draw.frame = s.frame := rfl
@[simp] theorem State.draw_tick : s.draw.tick = s.tick := rfl
@[simp] theorem State.draw_rlog : s.draw.rlog = s.rlog := rfl
@[simp] theorem State.draw_ump : s.draw.ump = s.ump := rfl
@[simp] theorem State.draw_ignOk : s.draw.ignOk = s.ignOk := rfl
@[simp] theorem State.draw_immoOk : s.draw.immoOk = s.immoOk := rfl
@[simp] theorem State.draw_applyOk : s.draw.applyOk = s.applyOk := rfl
@[simp] theorem State.draw_chans : s.draw.chans = s.chans := rfl
@[simp] theorem State.draw_tl : s.draw.tl = s.tl := rfl
@[simp] theorem State.draw_dies : s.draw.dies = s.dies := rfl
@[simp] theorem State.draw_groups : s.draw.groups = s.groups := rfl
@[simp] theorem State.draw_chain : s.draw.chain = s.chain := rfl
@[simp] theorem State.draw_leds : s.draw.leds = s.leds := rfl
@[simp] theorem State.draw_chtPosts : s.draw.chtPosts = s.chtPosts := rfl
@[simp] theorem State.draw_status : s.draw.status = s.status := rfl
@[simp] theorem State.draw_psch : s.draw.psch = s.psch := rfl
@[simp] theorem State.draw_field : s.draw.field = s.field := rfl
@[simp] theorem State.draw_tlActive : s.draw.tlActive = s.tlActive := rfl
@[simp] theorem State.draw_calActive : s.draw.calActive = s.calActive := rfl
@[simp] theorem State.draw_mnt : s.draw.mnt = s.mnt := rfl
@[simp] theorem State.draw_calSet : s.draw.calSet = s.calSet := rfl
@[simp] theorem State.draw_calLive : s.draw.calLive = s.calLive := rfl
@[simp] theorem State.draw_cov : s.draw.cov = s.cov := rfl
@[simp] theorem State.draw_store : s.draw.store = s.store := rfl
@[simp] theorem State.draw_tmr : s.draw.tmr = s.tmr := rfl
@[simp] theorem State.draw_tmrPosts : s.draw.tmrPosts = s.tmrPosts := rfl
@[simp] theorem State.draw_tmrStatus : s.draw.tmrStatus = s.tmrStatus := rfl
@[simp] theorem State.draw_captPins : s.draw.captPins = s.captPins := rfl
@[simp] theorem State.draw_scan : s.draw.scan = s.scan := rfl
@[simp] theorem State.draw_cans : s.draw.cans = s.cans := rfl
@[simp] theorem State.draw_nms : s.draw.nms = s.nms := rfl
@[simp] theorem State.draw_lins : s.draw.lins = s.lins := rfl
@[simp] theorem State.draw_eths : s.draw.eths = s.eths := rfl
@[simp] theorem State.draw_sents : s.draw.sents = s.sents := rfl
@[simp] theorem State.draw_uarts : s.draw.uarts = s.uarts := rfl
@[simp] theorem State.draw_acc : s.draw.acc = s.acc := rfl
@[simp] theorem State.draw_accKept : s.draw.accKept = s.accKept := rfl
@[simp] theorem State.draw_vault : s.draw.vault = s.vault := rfl
@[simp] theorem State.draw_keeper : s.draw.keeper = s.keeper := rfl
@[simp] theorem State.draw_book : s.draw.book = s.book := rfl
@[simp] theorem State.draw_jrnl : s.draw.jrnl = s.jrnl := rfl
@[simp] theorem State.draw_sub : s.draw.sub = s.sub := rfl

/-! ### `State.setByte` -/

@[simp] theorem State.setByte_power (k : Nat) (b : Byte) : (s.setByte k b).power = s.power := rfl
@[simp] theorem State.setByte_alive (k : Nat) (b : Byte) : (s.setByte k b).alive = s.alive := rfl
@[simp] theorem State.setByte_pwr (k : Nat) (b : Byte) : (s.setByte k b).pwr = s.pwr := rfl
@[simp] theorem State.setByte_prism (k : Nat) (b : Byte) : (s.setByte k b).prism = s.prism := rfl
@[simp] theorem State.setByte_pending (k : Nat) (b : Byte) : (s.setByte k b).pending = s.pending := rfl
@[simp] theorem State.setByte_now (k : Nat) (b : Byte) : (s.setByte k b).now = s.now := rfl
@[simp] theorem State.setByte_fields (k : Nat) (b : Byte) : (s.setByte k b).fields = s.fields := rfl
@[simp] theorem State.setByte_blocksArmed (k : Nat) (b : Byte) : (s.setByte k b).blocksArmed = s.blocksArmed := rfl
@[simp] theorem State.setByte_segsWritten (k : Nat) (b : Byte) : (s.setByte k b).segsWritten = s.segsWritten := rfl
@[simp] theorem State.setByte_dbgPort (k : Nat) (b : Byte) : (s.setByte k b).dbgPort = s.dbgPort := rfl
@[simp] theorem State.setByte_frozen (k : Nat) (b : Byte) : (s.setByte k b).frozen = s.frozen := rfl
@[simp] theorem State.setByte_ded (k : Nat) (b : Byte) : (s.setByte k b).ded = s.ded := rfl
@[simp] theorem State.setByte_drawn (k : Nat) (b : Byte) : (s.setByte k b).drawn = s.drawn := rfl
@[simp] theorem State.setByte_cores (k : Nat) (b : Byte) : (s.setByte k b).cores = s.cores := rfl
@[simp] theorem State.setByte_frame (k : Nat) (b : Byte) : (s.setByte k b).frame = s.frame := rfl
@[simp] theorem State.setByte_tick (k : Nat) (b : Byte) : (s.setByte k b).tick = s.tick := rfl
@[simp] theorem State.setByte_rlog (k : Nat) (b : Byte) : (s.setByte k b).rlog = s.rlog := rfl
@[simp] theorem State.setByte_ump (k : Nat) (b : Byte) : (s.setByte k b).ump = s.ump := rfl
@[simp] theorem State.setByte_ignOk (k : Nat) (b : Byte) : (s.setByte k b).ignOk = s.ignOk := rfl
@[simp] theorem State.setByte_immoOk (k : Nat) (b : Byte) : (s.setByte k b).immoOk = s.immoOk := rfl
@[simp] theorem State.setByte_applyOk (k : Nat) (b : Byte) : (s.setByte k b).applyOk = s.applyOk := rfl
@[simp] theorem State.setByte_chans (k : Nat) (b : Byte) : (s.setByte k b).chans = s.chans := rfl
@[simp] theorem State.setByte_tl (k : Nat) (b : Byte) : (s.setByte k b).tl = s.tl := rfl
@[simp] theorem State.setByte_dies (k : Nat) (b : Byte) : (s.setByte k b).dies = s.dies := rfl
@[simp] theorem State.setByte_groups (k : Nat) (b : Byte) : (s.setByte k b).groups = s.groups := rfl
@[simp] theorem State.setByte_chain (k : Nat) (b : Byte) : (s.setByte k b).chain = s.chain := rfl
@[simp] theorem State.setByte_leds (k : Nat) (b : Byte) : (s.setByte k b).leds = s.leds := rfl
@[simp] theorem State.setByte_chtPosts (k : Nat) (b : Byte) : (s.setByte k b).chtPosts = s.chtPosts := rfl
@[simp] theorem State.setByte_status (k : Nat) (b : Byte) : (s.setByte k b).status = s.status := rfl
@[simp] theorem State.setByte_psch (k : Nat) (b : Byte) : (s.setByte k b).psch = s.psch := rfl
@[simp] theorem State.setByte_field (k : Nat) (b : Byte) : (s.setByte k b).field = s.field := rfl
@[simp] theorem State.setByte_tlActive (k : Nat) (b : Byte) : (s.setByte k b).tlActive = s.tlActive := rfl
@[simp] theorem State.setByte_calActive (k : Nat) (b : Byte) : (s.setByte k b).calActive = s.calActive := rfl
@[simp] theorem State.setByte_mnt (k : Nat) (b : Byte) : (s.setByte k b).mnt = s.mnt := rfl
@[simp] theorem State.setByte_calSet (k : Nat) (b : Byte) : (s.setByte k b).calSet = s.calSet := rfl
@[simp] theorem State.setByte_calLive (k : Nat) (b : Byte) : (s.setByte k b).calLive = s.calLive := rfl
@[simp] theorem State.setByte_cov (k : Nat) (b : Byte) : (s.setByte k b).cov = s.cov := rfl
@[simp] theorem State.setByte_store (k : Nat) (b : Byte) : (s.setByte k b).store = s.store := rfl
@[simp] theorem State.setByte_tmr (k : Nat) (b : Byte) : (s.setByte k b).tmr = s.tmr := rfl
@[simp] theorem State.setByte_tmrPosts (k : Nat) (b : Byte) : (s.setByte k b).tmrPosts = s.tmrPosts := rfl
@[simp] theorem State.setByte_tmrStatus (k : Nat) (b : Byte) : (s.setByte k b).tmrStatus = s.tmrStatus := rfl
@[simp] theorem State.setByte_captPins (k : Nat) (b : Byte) : (s.setByte k b).captPins = s.captPins := rfl
@[simp] theorem State.setByte_scan (k : Nat) (b : Byte) : (s.setByte k b).scan = s.scan := rfl
@[simp] theorem State.setByte_cans (k : Nat) (b : Byte) : (s.setByte k b).cans = s.cans := rfl
@[simp] theorem State.setByte_nms (k : Nat) (b : Byte) : (s.setByte k b).nms = s.nms := rfl
@[simp] theorem State.setByte_lins (k : Nat) (b : Byte) : (s.setByte k b).lins = s.lins := rfl
@[simp] theorem State.setByte_eths (k : Nat) (b : Byte) : (s.setByte k b).eths = s.eths := rfl
@[simp] theorem State.setByte_sents (k : Nat) (b : Byte) : (s.setByte k b).sents = s.sents := rfl
@[simp] theorem State.setByte_uarts (k : Nat) (b : Byte) : (s.setByte k b).uarts = s.uarts := rfl
@[simp] theorem State.setByte_acc (k : Nat) (b : Byte) : (s.setByte k b).acc = s.acc := rfl
@[simp] theorem State.setByte_accKept (k : Nat) (b : Byte) : (s.setByte k b).accKept = s.accKept := rfl
@[simp] theorem State.setByte_vault (k : Nat) (b : Byte) : (s.setByte k b).vault = s.vault := rfl
@[simp] theorem State.setByte_keeper (k : Nat) (b : Byte) : (s.setByte k b).keeper = s.keeper := rfl
@[simp] theorem State.setByte_book (k : Nat) (b : Byte) : (s.setByte k b).book = s.book := rfl
@[simp] theorem State.setByte_jrnl (k : Nat) (b : Byte) : (s.setByte k b).jrnl = s.jrnl := rfl
@[simp] theorem State.setByte_sub (k : Nat) (b : Byte) : (s.setByte k b).sub = s.sub := rfl

/-! ### `State.setCore` -/

@[simp] theorem State.setCore_power (c : Nat) (v : Core) : (s.setCore c v).power = s.power := rfl
@[simp] theorem State.setCore_alive (c : Nat) (v : Core) : (s.setCore c v).alive = s.alive := rfl
@[simp] theorem State.setCore_pwr (c : Nat) (v : Core) : (s.setCore c v).pwr = s.pwr := rfl
@[simp] theorem State.setCore_prism (c : Nat) (v : Core) : (s.setCore c v).prism = s.prism := rfl
@[simp] theorem State.setCore_pending (c : Nat) (v : Core) : (s.setCore c v).pending = s.pending := rfl
@[simp] theorem State.setCore_now (c : Nat) (v : Core) : (s.setCore c v).now = s.now := rfl
@[simp] theorem State.setCore_fields (c : Nat) (v : Core) : (s.setCore c v).fields = s.fields := rfl
@[simp] theorem State.setCore_blocksArmed (c : Nat) (v : Core) : (s.setCore c v).blocksArmed = s.blocksArmed := rfl
@[simp] theorem State.setCore_segsWritten (c : Nat) (v : Core) : (s.setCore c v).segsWritten = s.segsWritten := rfl
@[simp] theorem State.setCore_dbgPort (c : Nat) (v : Core) : (s.setCore c v).dbgPort = s.dbgPort := rfl
@[simp] theorem State.setCore_frozen (c : Nat) (v : Core) : (s.setCore c v).frozen = s.frozen := rfl
@[simp] theorem State.setCore_mem (c : Nat) (v : Core) : (s.setCore c v).mem = s.mem := rfl
@[simp] theorem State.setCore_ded (c : Nat) (v : Core) : (s.setCore c v).ded = s.ded := rfl
@[simp] theorem State.setCore_drawn (c : Nat) (v : Core) : (s.setCore c v).drawn = s.drawn := rfl
@[simp] theorem State.setCore_frame (c : Nat) (v : Core) : (s.setCore c v).frame = s.frame := rfl
@[simp] theorem State.setCore_tick (c : Nat) (v : Core) : (s.setCore c v).tick = s.tick := rfl
@[simp] theorem State.setCore_rlog (c : Nat) (v : Core) : (s.setCore c v).rlog = s.rlog := rfl
@[simp] theorem State.setCore_ump (c : Nat) (v : Core) : (s.setCore c v).ump = s.ump := rfl
@[simp] theorem State.setCore_ignOk (c : Nat) (v : Core) : (s.setCore c v).ignOk = s.ignOk := rfl
@[simp] theorem State.setCore_immoOk (c : Nat) (v : Core) : (s.setCore c v).immoOk = s.immoOk := rfl
@[simp] theorem State.setCore_applyOk (c : Nat) (v : Core) : (s.setCore c v).applyOk = s.applyOk := rfl
@[simp] theorem State.setCore_chans (c : Nat) (v : Core) : (s.setCore c v).chans = s.chans := rfl
@[simp] theorem State.setCore_tl (c : Nat) (v : Core) : (s.setCore c v).tl = s.tl := rfl
@[simp] theorem State.setCore_dies (c : Nat) (v : Core) : (s.setCore c v).dies = s.dies := rfl
@[simp] theorem State.setCore_groups (c : Nat) (v : Core) : (s.setCore c v).groups = s.groups := rfl
@[simp] theorem State.setCore_chain (c : Nat) (v : Core) : (s.setCore c v).chain = s.chain := rfl
@[simp] theorem State.setCore_leds (c : Nat) (v : Core) : (s.setCore c v).leds = s.leds := rfl
@[simp] theorem State.setCore_chtPosts (c : Nat) (v : Core) : (s.setCore c v).chtPosts = s.chtPosts := rfl
@[simp] theorem State.setCore_status (c : Nat) (v : Core) : (s.setCore c v).status = s.status := rfl
@[simp] theorem State.setCore_psch (c : Nat) (v : Core) : (s.setCore c v).psch = s.psch := rfl
@[simp] theorem State.setCore_field (c : Nat) (v : Core) : (s.setCore c v).field = s.field := rfl
@[simp] theorem State.setCore_tlActive (c : Nat) (v : Core) : (s.setCore c v).tlActive = s.tlActive := rfl
@[simp] theorem State.setCore_calActive (c : Nat) (v : Core) : (s.setCore c v).calActive = s.calActive := rfl
@[simp] theorem State.setCore_mnt (c : Nat) (v : Core) : (s.setCore c v).mnt = s.mnt := rfl
@[simp] theorem State.setCore_calSet (c : Nat) (v : Core) : (s.setCore c v).calSet = s.calSet := rfl
@[simp] theorem State.setCore_calLive (c : Nat) (v : Core) : (s.setCore c v).calLive = s.calLive := rfl
@[simp] theorem State.setCore_cov (c : Nat) (v : Core) : (s.setCore c v).cov = s.cov := rfl
@[simp] theorem State.setCore_store (c : Nat) (v : Core) : (s.setCore c v).store = s.store := rfl
@[simp] theorem State.setCore_tmr (c : Nat) (v : Core) : (s.setCore c v).tmr = s.tmr := rfl
@[simp] theorem State.setCore_tmrPosts (c : Nat) (v : Core) : (s.setCore c v).tmrPosts = s.tmrPosts := rfl
@[simp] theorem State.setCore_tmrStatus (c : Nat) (v : Core) : (s.setCore c v).tmrStatus = s.tmrStatus := rfl
@[simp] theorem State.setCore_captPins (c : Nat) (v : Core) : (s.setCore c v).captPins = s.captPins := rfl
@[simp] theorem State.setCore_scan (c : Nat) (v : Core) : (s.setCore c v).scan = s.scan := rfl
@[simp] theorem State.setCore_cans (c : Nat) (v : Core) : (s.setCore c v).cans = s.cans := rfl
@[simp] theorem State.setCore_nms (c : Nat) (v : Core) : (s.setCore c v).nms = s.nms := rfl
@[simp] theorem State.setCore_lins (c : Nat) (v : Core) : (s.setCore c v).lins = s.lins := rfl
@[simp] theorem State.setCore_eths (c : Nat) (v : Core) : (s.setCore c v).eths = s.eths := rfl
@[simp] theorem State.setCore_sents (c : Nat) (v : Core) : (s.setCore c v).sents = s.sents := rfl
@[simp] theorem State.setCore_uarts (c : Nat) (v : Core) : (s.setCore c v).uarts = s.uarts := rfl
@[simp] theorem State.setCore_acc (c : Nat) (v : Core) : (s.setCore c v).acc = s.acc := rfl
@[simp] theorem State.setCore_accKept (c : Nat) (v : Core) : (s.setCore c v).accKept = s.accKept := rfl
@[simp] theorem State.setCore_vault (c : Nat) (v : Core) : (s.setCore c v).vault = s.vault := rfl
@[simp] theorem State.setCore_keeper (c : Nat) (v : Core) : (s.setCore c v).keeper = s.keeper := rfl
@[simp] theorem State.setCore_book (c : Nat) (v : Core) : (s.setCore c v).book = s.book := rfl
@[simp] theorem State.setCore_jrnl (c : Nat) (v : Core) : (s.setCore c v).jrnl = s.jrnl := rfl
@[simp] theorem State.setCore_sub (c : Nat) (v : Core) : (s.setCore c v).sub = s.sub := rfl

/-! ### `State.setSrc` -/

@[simp] theorem State.setSrc_power (n : Nat) (v : Source) : (s.setSrc n v).power = s.power := rfl
@[simp] theorem State.setSrc_alive (n : Nat) (v : Source) : (s.setSrc n v).alive = s.alive := rfl
@[simp] theorem State.setSrc_pwr (n : Nat) (v : Source) : (s.setSrc n v).pwr = s.pwr := rfl
@[simp] theorem State.setSrc_prism (n : Nat) (v : Source) : (s.setSrc n v).prism = s.prism := rfl
@[simp] theorem State.setSrc_pending (n : Nat) (v : Source) : (s.setSrc n v).pending = s.pending := rfl
@[simp] theorem State.setSrc_now (n : Nat) (v : Source) : (s.setSrc n v).now = s.now := rfl
@[simp] theorem State.setSrc_fields (n : Nat) (v : Source) : (s.setSrc n v).fields = s.fields := rfl
@[simp] theorem State.setSrc_blocksArmed (n : Nat) (v : Source) : (s.setSrc n v).blocksArmed = s.blocksArmed := rfl
@[simp] theorem State.setSrc_segsWritten (n : Nat) (v : Source) : (s.setSrc n v).segsWritten = s.segsWritten := rfl
@[simp] theorem State.setSrc_dbgPort (n : Nat) (v : Source) : (s.setSrc n v).dbgPort = s.dbgPort := rfl
@[simp] theorem State.setSrc_frozen (n : Nat) (v : Source) : (s.setSrc n v).frozen = s.frozen := rfl
@[simp] theorem State.setSrc_mem (n : Nat) (v : Source) : (s.setSrc n v).mem = s.mem := rfl
@[simp] theorem State.setSrc_ded (n : Nat) (v : Source) : (s.setSrc n v).ded = s.ded := rfl
@[simp] theorem State.setSrc_drawn (n : Nat) (v : Source) : (s.setSrc n v).drawn = s.drawn := rfl
@[simp] theorem State.setSrc_cores (n : Nat) (v : Source) : (s.setSrc n v).cores = s.cores := rfl
@[simp] theorem State.setSrc_frame (n : Nat) (v : Source) : (s.setSrc n v).frame = s.frame := rfl
@[simp] theorem State.setSrc_tick (n : Nat) (v : Source) : (s.setSrc n v).tick = s.tick := rfl
@[simp] theorem State.setSrc_rlog (n : Nat) (v : Source) : (s.setSrc n v).rlog = s.rlog := rfl
@[simp] theorem State.setSrc_ignOk (n : Nat) (v : Source) : (s.setSrc n v).ignOk = s.ignOk := rfl
@[simp] theorem State.setSrc_immoOk (n : Nat) (v : Source) : (s.setSrc n v).immoOk = s.immoOk := rfl
@[simp] theorem State.setSrc_applyOk (n : Nat) (v : Source) : (s.setSrc n v).applyOk = s.applyOk := rfl
@[simp] theorem State.setSrc_chans (n : Nat) (v : Source) : (s.setSrc n v).chans = s.chans := rfl
@[simp] theorem State.setSrc_tl (n : Nat) (v : Source) : (s.setSrc n v).tl = s.tl := rfl
@[simp] theorem State.setSrc_dies (n : Nat) (v : Source) : (s.setSrc n v).dies = s.dies := rfl
@[simp] theorem State.setSrc_groups (n : Nat) (v : Source) : (s.setSrc n v).groups = s.groups := rfl
@[simp] theorem State.setSrc_chain (n : Nat) (v : Source) : (s.setSrc n v).chain = s.chain := rfl
@[simp] theorem State.setSrc_leds (n : Nat) (v : Source) : (s.setSrc n v).leds = s.leds := rfl
@[simp] theorem State.setSrc_chtPosts (n : Nat) (v : Source) : (s.setSrc n v).chtPosts = s.chtPosts := rfl
@[simp] theorem State.setSrc_status (n : Nat) (v : Source) : (s.setSrc n v).status = s.status := rfl
@[simp] theorem State.setSrc_psch (n : Nat) (v : Source) : (s.setSrc n v).psch = s.psch := rfl
@[simp] theorem State.setSrc_field (n : Nat) (v : Source) : (s.setSrc n v).field = s.field := rfl
@[simp] theorem State.setSrc_tlActive (n : Nat) (v : Source) : (s.setSrc n v).tlActive = s.tlActive := rfl
@[simp] theorem State.setSrc_calActive (n : Nat) (v : Source) : (s.setSrc n v).calActive = s.calActive := rfl
@[simp] theorem State.setSrc_mnt (n : Nat) (v : Source) : (s.setSrc n v).mnt = s.mnt := rfl
@[simp] theorem State.setSrc_calSet (n : Nat) (v : Source) : (s.setSrc n v).calSet = s.calSet := rfl
@[simp] theorem State.setSrc_calLive (n : Nat) (v : Source) : (s.setSrc n v).calLive = s.calLive := rfl
@[simp] theorem State.setSrc_cov (n : Nat) (v : Source) : (s.setSrc n v).cov = s.cov := rfl
@[simp] theorem State.setSrc_store (n : Nat) (v : Source) : (s.setSrc n v).store = s.store := rfl
@[simp] theorem State.setSrc_tmr (n : Nat) (v : Source) : (s.setSrc n v).tmr = s.tmr := rfl
@[simp] theorem State.setSrc_tmrPosts (n : Nat) (v : Source) : (s.setSrc n v).tmrPosts = s.tmrPosts := rfl
@[simp] theorem State.setSrc_tmrStatus (n : Nat) (v : Source) : (s.setSrc n v).tmrStatus = s.tmrStatus := rfl
@[simp] theorem State.setSrc_captPins (n : Nat) (v : Source) : (s.setSrc n v).captPins = s.captPins := rfl
@[simp] theorem State.setSrc_scan (n : Nat) (v : Source) : (s.setSrc n v).scan = s.scan := rfl
@[simp] theorem State.setSrc_cans (n : Nat) (v : Source) : (s.setSrc n v).cans = s.cans := rfl
@[simp] theorem State.setSrc_nms (n : Nat) (v : Source) : (s.setSrc n v).nms = s.nms := rfl
@[simp] theorem State.setSrc_lins (n : Nat) (v : Source) : (s.setSrc n v).lins = s.lins := rfl
@[simp] theorem State.setSrc_eths (n : Nat) (v : Source) : (s.setSrc n v).eths = s.eths := rfl
@[simp] theorem State.setSrc_sents (n : Nat) (v : Source) : (s.setSrc n v).sents = s.sents := rfl
@[simp] theorem State.setSrc_uarts (n : Nat) (v : Source) : (s.setSrc n v).uarts = s.uarts := rfl
@[simp] theorem State.setSrc_acc (n : Nat) (v : Source) : (s.setSrc n v).acc = s.acc := rfl
@[simp] theorem State.setSrc_accKept (n : Nat) (v : Source) : (s.setSrc n v).accKept = s.accKept := rfl
@[simp] theorem State.setSrc_vault (n : Nat) (v : Source) : (s.setSrc n v).vault = s.vault := rfl
@[simp] theorem State.setSrc_keeper (n : Nat) (v : Source) : (s.setSrc n v).keeper = s.keeper := rfl
@[simp] theorem State.setSrc_book (n : Nat) (v : Source) : (s.setSrc n v).book = s.book := rfl
@[simp] theorem State.setSrc_jrnl (n : Nat) (v : Source) : (s.setSrc n v).jrnl = s.jrnl := rfl
@[simp] theorem State.setSrc_sub (n : Nat) (v : Source) : (s.setSrc n v).sub = s.sub := rfl

/-! ### `State.setChan` -/

@[simp] theorem State.setChan_power (i : Nat) (v : Chan) : (s.setChan i v).power = s.power := rfl
@[simp] theorem State.setChan_alive (i : Nat) (v : Chan) : (s.setChan i v).alive = s.alive := rfl
@[simp] theorem State.setChan_pwr (i : Nat) (v : Chan) : (s.setChan i v).pwr = s.pwr := rfl
@[simp] theorem State.setChan_prism (i : Nat) (v : Chan) : (s.setChan i v).prism = s.prism := rfl
@[simp] theorem State.setChan_pending (i : Nat) (v : Chan) : (s.setChan i v).pending = s.pending := rfl
@[simp] theorem State.setChan_now (i : Nat) (v : Chan) : (s.setChan i v).now = s.now := rfl
@[simp] theorem State.setChan_fields (i : Nat) (v : Chan) : (s.setChan i v).fields = s.fields := rfl
@[simp] theorem State.setChan_blocksArmed (i : Nat) (v : Chan) : (s.setChan i v).blocksArmed = s.blocksArmed := rfl
@[simp] theorem State.setChan_segsWritten (i : Nat) (v : Chan) : (s.setChan i v).segsWritten = s.segsWritten := rfl
@[simp] theorem State.setChan_dbgPort (i : Nat) (v : Chan) : (s.setChan i v).dbgPort = s.dbgPort := rfl
@[simp] theorem State.setChan_frozen (i : Nat) (v : Chan) : (s.setChan i v).frozen = s.frozen := rfl
@[simp] theorem State.setChan_mem (i : Nat) (v : Chan) : (s.setChan i v).mem = s.mem := rfl
@[simp] theorem State.setChan_ded (i : Nat) (v : Chan) : (s.setChan i v).ded = s.ded := rfl
@[simp] theorem State.setChan_drawn (i : Nat) (v : Chan) : (s.setChan i v).drawn = s.drawn := rfl
@[simp] theorem State.setChan_cores (i : Nat) (v : Chan) : (s.setChan i v).cores = s.cores := rfl
@[simp] theorem State.setChan_frame (i : Nat) (v : Chan) : (s.setChan i v).frame = s.frame := rfl
@[simp] theorem State.setChan_tick (i : Nat) (v : Chan) : (s.setChan i v).tick = s.tick := rfl
@[simp] theorem State.setChan_rlog (i : Nat) (v : Chan) : (s.setChan i v).rlog = s.rlog := rfl
@[simp] theorem State.setChan_ump (i : Nat) (v : Chan) : (s.setChan i v).ump = s.ump := rfl
@[simp] theorem State.setChan_ignOk (i : Nat) (v : Chan) : (s.setChan i v).ignOk = s.ignOk := rfl
@[simp] theorem State.setChan_immoOk (i : Nat) (v : Chan) : (s.setChan i v).immoOk = s.immoOk := rfl
@[simp] theorem State.setChan_applyOk (i : Nat) (v : Chan) : (s.setChan i v).applyOk = s.applyOk := rfl
@[simp] theorem State.setChan_tl (i : Nat) (v : Chan) : (s.setChan i v).tl = s.tl := rfl
@[simp] theorem State.setChan_dies (i : Nat) (v : Chan) : (s.setChan i v).dies = s.dies := rfl
@[simp] theorem State.setChan_groups (i : Nat) (v : Chan) : (s.setChan i v).groups = s.groups := rfl
@[simp] theorem State.setChan_chain (i : Nat) (v : Chan) : (s.setChan i v).chain = s.chain := rfl
@[simp] theorem State.setChan_leds (i : Nat) (v : Chan) : (s.setChan i v).leds = s.leds := rfl
@[simp] theorem State.setChan_chtPosts (i : Nat) (v : Chan) : (s.setChan i v).chtPosts = s.chtPosts := rfl
@[simp] theorem State.setChan_status (i : Nat) (v : Chan) : (s.setChan i v).status = s.status := rfl
@[simp] theorem State.setChan_psch (i : Nat) (v : Chan) : (s.setChan i v).psch = s.psch := rfl
@[simp] theorem State.setChan_field (i : Nat) (v : Chan) : (s.setChan i v).field = s.field := rfl
@[simp] theorem State.setChan_tlActive (i : Nat) (v : Chan) : (s.setChan i v).tlActive = s.tlActive := rfl
@[simp] theorem State.setChan_calActive (i : Nat) (v : Chan) : (s.setChan i v).calActive = s.calActive := rfl
@[simp] theorem State.setChan_mnt (i : Nat) (v : Chan) : (s.setChan i v).mnt = s.mnt := rfl
@[simp] theorem State.setChan_calSet (i : Nat) (v : Chan) : (s.setChan i v).calSet = s.calSet := rfl
@[simp] theorem State.setChan_calLive (i : Nat) (v : Chan) : (s.setChan i v).calLive = s.calLive := rfl
@[simp] theorem State.setChan_cov (i : Nat) (v : Chan) : (s.setChan i v).cov = s.cov := rfl
@[simp] theorem State.setChan_store (i : Nat) (v : Chan) : (s.setChan i v).store = s.store := rfl
@[simp] theorem State.setChan_tmr (i : Nat) (v : Chan) : (s.setChan i v).tmr = s.tmr := rfl
@[simp] theorem State.setChan_tmrPosts (i : Nat) (v : Chan) : (s.setChan i v).tmrPosts = s.tmrPosts := rfl
@[simp] theorem State.setChan_tmrStatus (i : Nat) (v : Chan) : (s.setChan i v).tmrStatus = s.tmrStatus := rfl
@[simp] theorem State.setChan_captPins (i : Nat) (v : Chan) : (s.setChan i v).captPins = s.captPins := rfl
@[simp] theorem State.setChan_scan (i : Nat) (v : Chan) : (s.setChan i v).scan = s.scan := rfl
@[simp] theorem State.setChan_cans (i : Nat) (v : Chan) : (s.setChan i v).cans = s.cans := rfl
@[simp] theorem State.setChan_nms (i : Nat) (v : Chan) : (s.setChan i v).nms = s.nms := rfl
@[simp] theorem State.setChan_lins (i : Nat) (v : Chan) : (s.setChan i v).lins = s.lins := rfl
@[simp] theorem State.setChan_eths (i : Nat) (v : Chan) : (s.setChan i v).eths = s.eths := rfl
@[simp] theorem State.setChan_sents (i : Nat) (v : Chan) : (s.setChan i v).sents = s.sents := rfl
@[simp] theorem State.setChan_uarts (i : Nat) (v : Chan) : (s.setChan i v).uarts = s.uarts := rfl
@[simp] theorem State.setChan_acc (i : Nat) (v : Chan) : (s.setChan i v).acc = s.acc := rfl
@[simp] theorem State.setChan_accKept (i : Nat) (v : Chan) : (s.setChan i v).accKept = s.accKept := rfl
@[simp] theorem State.setChan_vault (i : Nat) (v : Chan) : (s.setChan i v).vault = s.vault := rfl
@[simp] theorem State.setChan_keeper (i : Nat) (v : Chan) : (s.setChan i v).keeper = s.keeper := rfl
@[simp] theorem State.setChan_book (i : Nat) (v : Chan) : (s.setChan i v).book = s.book := rfl
@[simp] theorem State.setChan_jrnl (i : Nat) (v : Chan) : (s.setChan i v).jrnl = s.jrnl := rfl
@[simp] theorem State.setChan_sub (i : Nat) (v : Chan) : (s.setChan i v).sub = s.sub := rfl

/-! ### `State.setDie` -/

@[simp] theorem State.setDie_power (k : Nat) (v : Die) : (s.setDie k v).power = s.power := rfl
@[simp] theorem State.setDie_alive (k : Nat) (v : Die) : (s.setDie k v).alive = s.alive := rfl
@[simp] theorem State.setDie_pwr (k : Nat) (v : Die) : (s.setDie k v).pwr = s.pwr := rfl
@[simp] theorem State.setDie_prism (k : Nat) (v : Die) : (s.setDie k v).prism = s.prism := rfl
@[simp] theorem State.setDie_pending (k : Nat) (v : Die) : (s.setDie k v).pending = s.pending := rfl
@[simp] theorem State.setDie_now (k : Nat) (v : Die) : (s.setDie k v).now = s.now := rfl
@[simp] theorem State.setDie_fields (k : Nat) (v : Die) : (s.setDie k v).fields = s.fields := rfl
@[simp] theorem State.setDie_blocksArmed (k : Nat) (v : Die) : (s.setDie k v).blocksArmed = s.blocksArmed := rfl
@[simp] theorem State.setDie_segsWritten (k : Nat) (v : Die) : (s.setDie k v).segsWritten = s.segsWritten := rfl
@[simp] theorem State.setDie_dbgPort (k : Nat) (v : Die) : (s.setDie k v).dbgPort = s.dbgPort := rfl
@[simp] theorem State.setDie_frozen (k : Nat) (v : Die) : (s.setDie k v).frozen = s.frozen := rfl
@[simp] theorem State.setDie_mem (k : Nat) (v : Die) : (s.setDie k v).mem = s.mem := rfl
@[simp] theorem State.setDie_ded (k : Nat) (v : Die) : (s.setDie k v).ded = s.ded := rfl
@[simp] theorem State.setDie_drawn (k : Nat) (v : Die) : (s.setDie k v).drawn = s.drawn := rfl
@[simp] theorem State.setDie_cores (k : Nat) (v : Die) : (s.setDie k v).cores = s.cores := rfl
@[simp] theorem State.setDie_frame (k : Nat) (v : Die) : (s.setDie k v).frame = s.frame := rfl
@[simp] theorem State.setDie_tick (k : Nat) (v : Die) : (s.setDie k v).tick = s.tick := rfl
@[simp] theorem State.setDie_rlog (k : Nat) (v : Die) : (s.setDie k v).rlog = s.rlog := rfl
@[simp] theorem State.setDie_ump (k : Nat) (v : Die) : (s.setDie k v).ump = s.ump := rfl
@[simp] theorem State.setDie_ignOk (k : Nat) (v : Die) : (s.setDie k v).ignOk = s.ignOk := rfl
@[simp] theorem State.setDie_immoOk (k : Nat) (v : Die) : (s.setDie k v).immoOk = s.immoOk := rfl
@[simp] theorem State.setDie_applyOk (k : Nat) (v : Die) : (s.setDie k v).applyOk = s.applyOk := rfl
@[simp] theorem State.setDie_chans (k : Nat) (v : Die) : (s.setDie k v).chans = s.chans := rfl
@[simp] theorem State.setDie_tl (k : Nat) (v : Die) : (s.setDie k v).tl = s.tl := rfl
@[simp] theorem State.setDie_groups (k : Nat) (v : Die) : (s.setDie k v).groups = s.groups := rfl
@[simp] theorem State.setDie_chain (k : Nat) (v : Die) : (s.setDie k v).chain = s.chain := rfl
@[simp] theorem State.setDie_leds (k : Nat) (v : Die) : (s.setDie k v).leds = s.leds := rfl
@[simp] theorem State.setDie_chtPosts (k : Nat) (v : Die) : (s.setDie k v).chtPosts = s.chtPosts := rfl
@[simp] theorem State.setDie_status (k : Nat) (v : Die) : (s.setDie k v).status = s.status := rfl
@[simp] theorem State.setDie_psch (k : Nat) (v : Die) : (s.setDie k v).psch = s.psch := rfl
@[simp] theorem State.setDie_field (k : Nat) (v : Die) : (s.setDie k v).field = s.field := rfl
@[simp] theorem State.setDie_tlActive (k : Nat) (v : Die) : (s.setDie k v).tlActive = s.tlActive := rfl
@[simp] theorem State.setDie_calActive (k : Nat) (v : Die) : (s.setDie k v).calActive = s.calActive := rfl
@[simp] theorem State.setDie_mnt (k : Nat) (v : Die) : (s.setDie k v).mnt = s.mnt := rfl
@[simp] theorem State.setDie_calSet (k : Nat) (v : Die) : (s.setDie k v).calSet = s.calSet := rfl
@[simp] theorem State.setDie_calLive (k : Nat) (v : Die) : (s.setDie k v).calLive = s.calLive := rfl
@[simp] theorem State.setDie_cov (k : Nat) (v : Die) : (s.setDie k v).cov = s.cov := rfl
@[simp] theorem State.setDie_store (k : Nat) (v : Die) : (s.setDie k v).store = s.store := rfl
@[simp] theorem State.setDie_tmr (k : Nat) (v : Die) : (s.setDie k v).tmr = s.tmr := rfl
@[simp] theorem State.setDie_tmrPosts (k : Nat) (v : Die) : (s.setDie k v).tmrPosts = s.tmrPosts := rfl
@[simp] theorem State.setDie_tmrStatus (k : Nat) (v : Die) : (s.setDie k v).tmrStatus = s.tmrStatus := rfl
@[simp] theorem State.setDie_captPins (k : Nat) (v : Die) : (s.setDie k v).captPins = s.captPins := rfl
@[simp] theorem State.setDie_scan (k : Nat) (v : Die) : (s.setDie k v).scan = s.scan := rfl
@[simp] theorem State.setDie_cans (k : Nat) (v : Die) : (s.setDie k v).cans = s.cans := rfl
@[simp] theorem State.setDie_nms (k : Nat) (v : Die) : (s.setDie k v).nms = s.nms := rfl
@[simp] theorem State.setDie_lins (k : Nat) (v : Die) : (s.setDie k v).lins = s.lins := rfl
@[simp] theorem State.setDie_eths (k : Nat) (v : Die) : (s.setDie k v).eths = s.eths := rfl
@[simp] theorem State.setDie_sents (k : Nat) (v : Die) : (s.setDie k v).sents = s.sents := rfl
@[simp] theorem State.setDie_uarts (k : Nat) (v : Die) : (s.setDie k v).uarts = s.uarts := rfl
@[simp] theorem State.setDie_acc (k : Nat) (v : Die) : (s.setDie k v).acc = s.acc := rfl
@[simp] theorem State.setDie_accKept (k : Nat) (v : Die) : (s.setDie k v).accKept = s.accKept := rfl
@[simp] theorem State.setDie_vault (k : Nat) (v : Die) : (s.setDie k v).vault = s.vault := rfl
@[simp] theorem State.setDie_keeper (k : Nat) (v : Die) : (s.setDie k v).keeper = s.keeper := rfl
@[simp] theorem State.setDie_book (k : Nat) (v : Die) : (s.setDie k v).book = s.book := rfl
@[simp] theorem State.setDie_jrnl (k : Nat) (v : Die) : (s.setDie k v).jrnl = s.jrnl := rfl
@[simp] theorem State.setDie_sub (k : Nat) (v : Die) : (s.setDie k v).sub = s.sub := rfl

/-! ### `State.setGrp` -/

@[simp] theorem State.setGrp_power (g : Nat) (v : Group) : (s.setGrp g v).power = s.power := rfl
@[simp] theorem State.setGrp_alive (g : Nat) (v : Group) : (s.setGrp g v).alive = s.alive := rfl
@[simp] theorem State.setGrp_pwr (g : Nat) (v : Group) : (s.setGrp g v).pwr = s.pwr := rfl
@[simp] theorem State.setGrp_prism (g : Nat) (v : Group) : (s.setGrp g v).prism = s.prism := rfl
@[simp] theorem State.setGrp_pending (g : Nat) (v : Group) : (s.setGrp g v).pending = s.pending := rfl
@[simp] theorem State.setGrp_now (g : Nat) (v : Group) : (s.setGrp g v).now = s.now := rfl
@[simp] theorem State.setGrp_fields (g : Nat) (v : Group) : (s.setGrp g v).fields = s.fields := rfl
@[simp] theorem State.setGrp_blocksArmed (g : Nat) (v : Group) : (s.setGrp g v).blocksArmed = s.blocksArmed := rfl
@[simp] theorem State.setGrp_segsWritten (g : Nat) (v : Group) : (s.setGrp g v).segsWritten = s.segsWritten := rfl
@[simp] theorem State.setGrp_dbgPort (g : Nat) (v : Group) : (s.setGrp g v).dbgPort = s.dbgPort := rfl
@[simp] theorem State.setGrp_frozen (g : Nat) (v : Group) : (s.setGrp g v).frozen = s.frozen := rfl
@[simp] theorem State.setGrp_mem (g : Nat) (v : Group) : (s.setGrp g v).mem = s.mem := rfl
@[simp] theorem State.setGrp_ded (g : Nat) (v : Group) : (s.setGrp g v).ded = s.ded := rfl
@[simp] theorem State.setGrp_drawn (g : Nat) (v : Group) : (s.setGrp g v).drawn = s.drawn := rfl
@[simp] theorem State.setGrp_cores (g : Nat) (v : Group) : (s.setGrp g v).cores = s.cores := rfl
@[simp] theorem State.setGrp_frame (g : Nat) (v : Group) : (s.setGrp g v).frame = s.frame := rfl
@[simp] theorem State.setGrp_tick (g : Nat) (v : Group) : (s.setGrp g v).tick = s.tick := rfl
@[simp] theorem State.setGrp_rlog (g : Nat) (v : Group) : (s.setGrp g v).rlog = s.rlog := rfl
@[simp] theorem State.setGrp_ump (g : Nat) (v : Group) : (s.setGrp g v).ump = s.ump := rfl
@[simp] theorem State.setGrp_ignOk (g : Nat) (v : Group) : (s.setGrp g v).ignOk = s.ignOk := rfl
@[simp] theorem State.setGrp_immoOk (g : Nat) (v : Group) : (s.setGrp g v).immoOk = s.immoOk := rfl
@[simp] theorem State.setGrp_applyOk (g : Nat) (v : Group) : (s.setGrp g v).applyOk = s.applyOk := rfl
@[simp] theorem State.setGrp_chans (g : Nat) (v : Group) : (s.setGrp g v).chans = s.chans := rfl
@[simp] theorem State.setGrp_tl (g : Nat) (v : Group) : (s.setGrp g v).tl = s.tl := rfl
@[simp] theorem State.setGrp_dies (g : Nat) (v : Group) : (s.setGrp g v).dies = s.dies := rfl
@[simp] theorem State.setGrp_chain (g : Nat) (v : Group) : (s.setGrp g v).chain = s.chain := rfl
@[simp] theorem State.setGrp_leds (g : Nat) (v : Group) : (s.setGrp g v).leds = s.leds := rfl
@[simp] theorem State.setGrp_chtPosts (g : Nat) (v : Group) : (s.setGrp g v).chtPosts = s.chtPosts := rfl
@[simp] theorem State.setGrp_status (g : Nat) (v : Group) : (s.setGrp g v).status = s.status := rfl
@[simp] theorem State.setGrp_psch (g : Nat) (v : Group) : (s.setGrp g v).psch = s.psch := rfl
@[simp] theorem State.setGrp_field (g : Nat) (v : Group) : (s.setGrp g v).field = s.field := rfl
@[simp] theorem State.setGrp_tlActive (g : Nat) (v : Group) : (s.setGrp g v).tlActive = s.tlActive := rfl
@[simp] theorem State.setGrp_calActive (g : Nat) (v : Group) : (s.setGrp g v).calActive = s.calActive := rfl
@[simp] theorem State.setGrp_mnt (g : Nat) (v : Group) : (s.setGrp g v).mnt = s.mnt := rfl
@[simp] theorem State.setGrp_calSet (g : Nat) (v : Group) : (s.setGrp g v).calSet = s.calSet := rfl
@[simp] theorem State.setGrp_calLive (g : Nat) (v : Group) : (s.setGrp g v).calLive = s.calLive := rfl
@[simp] theorem State.setGrp_cov (g : Nat) (v : Group) : (s.setGrp g v).cov = s.cov := rfl
@[simp] theorem State.setGrp_store (g : Nat) (v : Group) : (s.setGrp g v).store = s.store := rfl
@[simp] theorem State.setGrp_tmr (g : Nat) (v : Group) : (s.setGrp g v).tmr = s.tmr := rfl
@[simp] theorem State.setGrp_tmrPosts (g : Nat) (v : Group) : (s.setGrp g v).tmrPosts = s.tmrPosts := rfl
@[simp] theorem State.setGrp_tmrStatus (g : Nat) (v : Group) : (s.setGrp g v).tmrStatus = s.tmrStatus := rfl
@[simp] theorem State.setGrp_captPins (g : Nat) (v : Group) : (s.setGrp g v).captPins = s.captPins := rfl
@[simp] theorem State.setGrp_scan (g : Nat) (v : Group) : (s.setGrp g v).scan = s.scan := rfl
@[simp] theorem State.setGrp_cans (g : Nat) (v : Group) : (s.setGrp g v).cans = s.cans := rfl
@[simp] theorem State.setGrp_nms (g : Nat) (v : Group) : (s.setGrp g v).nms = s.nms := rfl
@[simp] theorem State.setGrp_lins (g : Nat) (v : Group) : (s.setGrp g v).lins = s.lins := rfl
@[simp] theorem State.setGrp_eths (g : Nat) (v : Group) : (s.setGrp g v).eths = s.eths := rfl
@[simp] theorem State.setGrp_sents (g : Nat) (v : Group) : (s.setGrp g v).sents = s.sents := rfl
@[simp] theorem State.setGrp_uarts (g : Nat) (v : Group) : (s.setGrp g v).uarts = s.uarts := rfl
@[simp] theorem State.setGrp_acc (g : Nat) (v : Group) : (s.setGrp g v).acc = s.acc := rfl
@[simp] theorem State.setGrp_accKept (g : Nat) (v : Group) : (s.setGrp g v).accKept = s.accKept := rfl
@[simp] theorem State.setGrp_vault (g : Nat) (v : Group) : (s.setGrp g v).vault = s.vault := rfl
@[simp] theorem State.setGrp_keeper (g : Nat) (v : Group) : (s.setGrp g v).keeper = s.keeper := rfl
@[simp] theorem State.setGrp_book (g : Nat) (v : Group) : (s.setGrp g v).book = s.book := rfl
@[simp] theorem State.setGrp_jrnl (g : Nat) (v : Group) : (s.setGrp g v).jrnl = s.jrnl := rfl
@[simp] theorem State.setGrp_sub (g : Nat) (v : Group) : (s.setGrp g v).sub = s.sub := rfl

/-! ### `State.setCan` -/

@[simp] theorem State.setCan_power (n : Nat) (x : Can) : (s.setCan n x).power = s.power := rfl
@[simp] theorem State.setCan_alive (n : Nat) (x : Can) : (s.setCan n x).alive = s.alive := rfl
@[simp] theorem State.setCan_pwr (n : Nat) (x : Can) : (s.setCan n x).pwr = s.pwr := rfl
@[simp] theorem State.setCan_prism (n : Nat) (x : Can) : (s.setCan n x).prism = s.prism := rfl
@[simp] theorem State.setCan_pending (n : Nat) (x : Can) : (s.setCan n x).pending = s.pending := rfl
@[simp] theorem State.setCan_now (n : Nat) (x : Can) : (s.setCan n x).now = s.now := rfl
@[simp] theorem State.setCan_fields (n : Nat) (x : Can) : (s.setCan n x).fields = s.fields := rfl
@[simp] theorem State.setCan_blocksArmed (n : Nat) (x : Can) : (s.setCan n x).blocksArmed = s.blocksArmed := rfl
@[simp] theorem State.setCan_segsWritten (n : Nat) (x : Can) : (s.setCan n x).segsWritten = s.segsWritten := rfl
@[simp] theorem State.setCan_dbgPort (n : Nat) (x : Can) : (s.setCan n x).dbgPort = s.dbgPort := rfl
@[simp] theorem State.setCan_frozen (n : Nat) (x : Can) : (s.setCan n x).frozen = s.frozen := rfl
@[simp] theorem State.setCan_mem (n : Nat) (x : Can) : (s.setCan n x).mem = s.mem := rfl
@[simp] theorem State.setCan_ded (n : Nat) (x : Can) : (s.setCan n x).ded = s.ded := rfl
@[simp] theorem State.setCan_drawn (n : Nat) (x : Can) : (s.setCan n x).drawn = s.drawn := rfl
@[simp] theorem State.setCan_cores (n : Nat) (x : Can) : (s.setCan n x).cores = s.cores := rfl
@[simp] theorem State.setCan_frame (n : Nat) (x : Can) : (s.setCan n x).frame = s.frame := rfl
@[simp] theorem State.setCan_tick (n : Nat) (x : Can) : (s.setCan n x).tick = s.tick := rfl
@[simp] theorem State.setCan_rlog (n : Nat) (x : Can) : (s.setCan n x).rlog = s.rlog := rfl
@[simp] theorem State.setCan_ump (n : Nat) (x : Can) : (s.setCan n x).ump = s.ump := rfl
@[simp] theorem State.setCan_ignOk (n : Nat) (x : Can) : (s.setCan n x).ignOk = s.ignOk := rfl
@[simp] theorem State.setCan_immoOk (n : Nat) (x : Can) : (s.setCan n x).immoOk = s.immoOk := rfl
@[simp] theorem State.setCan_applyOk (n : Nat) (x : Can) : (s.setCan n x).applyOk = s.applyOk := rfl
@[simp] theorem State.setCan_chans (n : Nat) (x : Can) : (s.setCan n x).chans = s.chans := rfl
@[simp] theorem State.setCan_tl (n : Nat) (x : Can) : (s.setCan n x).tl = s.tl := rfl
@[simp] theorem State.setCan_dies (n : Nat) (x : Can) : (s.setCan n x).dies = s.dies := rfl
@[simp] theorem State.setCan_groups (n : Nat) (x : Can) : (s.setCan n x).groups = s.groups := rfl
@[simp] theorem State.setCan_chain (n : Nat) (x : Can) : (s.setCan n x).chain = s.chain := rfl
@[simp] theorem State.setCan_leds (n : Nat) (x : Can) : (s.setCan n x).leds = s.leds := rfl
@[simp] theorem State.setCan_chtPosts (n : Nat) (x : Can) : (s.setCan n x).chtPosts = s.chtPosts := rfl
@[simp] theorem State.setCan_status (n : Nat) (x : Can) : (s.setCan n x).status = s.status := rfl
@[simp] theorem State.setCan_psch (n : Nat) (x : Can) : (s.setCan n x).psch = s.psch := rfl
@[simp] theorem State.setCan_field (n : Nat) (x : Can) : (s.setCan n x).field = s.field := rfl
@[simp] theorem State.setCan_tlActive (n : Nat) (x : Can) : (s.setCan n x).tlActive = s.tlActive := rfl
@[simp] theorem State.setCan_calActive (n : Nat) (x : Can) : (s.setCan n x).calActive = s.calActive := rfl
@[simp] theorem State.setCan_mnt (n : Nat) (x : Can) : (s.setCan n x).mnt = s.mnt := rfl
@[simp] theorem State.setCan_calSet (n : Nat) (x : Can) : (s.setCan n x).calSet = s.calSet := rfl
@[simp] theorem State.setCan_calLive (n : Nat) (x : Can) : (s.setCan n x).calLive = s.calLive := rfl
@[simp] theorem State.setCan_cov (n : Nat) (x : Can) : (s.setCan n x).cov = s.cov := rfl
@[simp] theorem State.setCan_store (n : Nat) (x : Can) : (s.setCan n x).store = s.store := rfl
@[simp] theorem State.setCan_tmr (n : Nat) (x : Can) : (s.setCan n x).tmr = s.tmr := rfl
@[simp] theorem State.setCan_tmrPosts (n : Nat) (x : Can) : (s.setCan n x).tmrPosts = s.tmrPosts := rfl
@[simp] theorem State.setCan_tmrStatus (n : Nat) (x : Can) : (s.setCan n x).tmrStatus = s.tmrStatus := rfl
@[simp] theorem State.setCan_captPins (n : Nat) (x : Can) : (s.setCan n x).captPins = s.captPins := rfl
@[simp] theorem State.setCan_scan (n : Nat) (x : Can) : (s.setCan n x).scan = s.scan := rfl
@[simp] theorem State.setCan_nms (n : Nat) (x : Can) : (s.setCan n x).nms = s.nms := rfl
@[simp] theorem State.setCan_lins (n : Nat) (x : Can) : (s.setCan n x).lins = s.lins := rfl
@[simp] theorem State.setCan_eths (n : Nat) (x : Can) : (s.setCan n x).eths = s.eths := rfl
@[simp] theorem State.setCan_sents (n : Nat) (x : Can) : (s.setCan n x).sents = s.sents := rfl
@[simp] theorem State.setCan_uarts (n : Nat) (x : Can) : (s.setCan n x).uarts = s.uarts := rfl
@[simp] theorem State.setCan_acc (n : Nat) (x : Can) : (s.setCan n x).acc = s.acc := rfl
@[simp] theorem State.setCan_accKept (n : Nat) (x : Can) : (s.setCan n x).accKept = s.accKept := rfl
@[simp] theorem State.setCan_vault (n : Nat) (x : Can) : (s.setCan n x).vault = s.vault := rfl
@[simp] theorem State.setCan_keeper (n : Nat) (x : Can) : (s.setCan n x).keeper = s.keeper := rfl
@[simp] theorem State.setCan_book (n : Nat) (x : Can) : (s.setCan n x).book = s.book := rfl
@[simp] theorem State.setCan_jrnl (n : Nat) (x : Can) : (s.setCan n x).jrnl = s.jrnl := rfl
@[simp] theorem State.setCan_sub (n : Nat) (x : Can) : (s.setCan n x).sub = s.sub := rfl

/-! ### What is read after a write -/

@[simp] theorem State.at_now (t : Nat) : (s.at t).now = max s.now t := rfl
@[simp] theorem State.draw_drawn : s.draw.drawn = s.drawn + 1 := rfl

@[simp] theorem State.get_put (f : Fld) (v : Nat) : (s.put f v).get f = v % 2 ^ f.w := Tab.get_set_self _ _ _ _

theorem State.get_put_ne (f g : Fld) (v : Nat) (h : g.key ≠ f.key) : (s.put f v).get g = s.get g := Tab.get_set_ne _ _ _ h

@[simp] theorem State.byte_setByte (k : Nat) (b : Byte) : (s.setByte k b).byte k = b := Tab.get_set_self _ _ _ _

theorem State.byte_setByte_ne (k a : Nat) (b : Byte) (h : a ≠ k) : (s.setByte k b).byte a = s.byte a := Tab.get_set_ne _ _ _ h

theorem State.byte_setBytes_out (k a : Nat) (l : List Byte) (h : a < k ∨ k + l.length ≤ a) : (s.setBytes k l).byte a = s.byte a := by
  induction l generalizing s k with
  | nil => rfl
  | cons b l ih =>
    have h' : a < k + 1 ∨ k + 1 + l.length ≤ a := by simp only [List.length_cons] at h; omega
    have hn : a ≠ k := by simp only [List.length_cons] at h; omega
    exact (ih (s.setByte k b) (k + 1) h').trans (s.byte_setByte_ne k a b hn)

@[simp] theorem State.core_setCore (c : Nat) (v : Core) : (s.setCore c v).core c = v := Tab.get_set_self _ _ _ _

theorem State.core_setCore_ne (c d : Nat) (v : Core) (h : d ≠ c) : (s.setCore c v).core d = s.core d := Tab.get_set_ne _ _ _ h

@[simp] theorem State.src_setSrc (n : Nat) (v : Source) : (s.setSrc n v).src n = v := Tab.get_set_self _ _ _ _

@[simp] theorem State.chan_setChan (i : Nat) (v : Chan) : (s.setChan i v).chan i = v := Tab.get_set_self _ _ _ _

theorem State.chan_setChan_ne (i j : Nat) (v : Chan) (h : j ≠ i) : (s.setChan i v).chan j = s.chan j := Tab.get_set_ne _ _ _ h

@[simp] theorem State.die_setDie (k : Nat) (v : Die) : (s.setDie k v).die k = v := Tab.get_set_self _ _ _ _

@[simp] theorem State.grp_setGrp (g : Nat) (v : Group) : (s.setGrp g v).grp g = v := Tab.get_set_self _ _ _ _

@[simp] theorem State.can_setCan (n : Nat) (x : Can) : (s.setCan n x).can n = x := Tab.get_set_self _ _ _ _

/-! ### An instant leaves every reading alone -/

@[simp] theorem State.at_get (t : Nat) (f : Fld) : (s.at t).get f = s.get f := rfl
@[simp] theorem State.at_on (t : Nat) (f : Fld) : (s.at t).on f = s.on f := rfl
@[simp] theorem State.at_bit (t : Nat) (f : Fld) (i : Nat) : (s.at t).bit f i = s.bit f i := rfl
@[simp] theorem State.at_byte (t : Nat) (k : Nat) : (s.at t).byte k = s.byte k := rfl
@[simp] theorem State.at_core (t : Nat) (c : Nat) : (s.at t).core c = s.core c := rfl
@[simp] theorem State.at_src (t : Nat) (n : Nat) : (s.at t).src n = s.src n := rfl
@[simp] theorem State.at_chan (t : Nat) (i : Nat) : (s.at t).chan i = s.chan i := rfl
@[simp] theorem State.at_tlOf (t : Nat) (i : Nat) : (s.at t).tlOf i = s.tlOf i := rfl
@[simp] theorem State.at_die (t : Nat) (k : Nat) : (s.at t).die k = s.die k := rfl
@[simp] theorem State.at_grp (t : Nat) (g : Nat) : (s.at t).grp g = s.grp g := rfl
@[simp] theorem State.at_task (t : Nat) (i : Nat) : (s.at t).task i = s.task i := rfl
@[simp] theorem State.at_run (t : Nat) (i : Nat) : (s.at t).run i = s.run i := rfl
@[simp] theorem State.at_led (t : Nat) (p : Nat) : (s.at t).led p = s.led p := rfl
@[simp] theorem State.at_can (t : Nat) (n : Nat) : (s.at t).can n = s.can n := rfl
@[simp] theorem State.at_uart (t : Nat) (u : Nat) : (s.at t).uart u = s.uart u := rfl
@[simp] theorem State.at_clocks (t : Nat) : (s.at t).clocks = s.clocks := rfl
@[simp] theorem State.at_get64 (t : Nat) (lo hi : Fld) : (s.at t).get64 lo hi = s.get64 lo hi := rfl

end Sys2Proof.Machine
end

