-- ==== Sys2Proof/Laws/Core.lean ====
section
/-!
SUPPORT. Sys2Proof/Laws/Core.lean: what an instruction of a core goes through, once: a ready core runs it, or takes its exception; what each
shared operation of an instruction leaves alone (`OnlyCore`, `CoreKept`), up to the end of an instruction and a taken branch.
-/
namespace Sys2Proof.Machine
-- the small lemmas of this file one after another, each without a thread of its own
set_option Elab.async false

theorem xob_ready {c : Nat} {chk : State → Option Exc} {eff : State → State} {s : State} (h : s.coreReady c = true)
    (hc : chk (s.begun c) = none) : xob c chk eff s = .next (eff (s.begun c)) := by
  simp only [State.coreReady, Bool.and_eq_true, Option.isNone_iff_eq_none] at h
  have hf := h.2
  unfold xob
  rw [if_pos h.1]
  simp only [State.begun] at hf hc ⊢
  simp only [hf, hc]

theorem xob_exc {c : Nat} {chk : State → Option Exc} {eff : State → State} {s : State} {x : Exc} (h : s.coreReady c = true)
    (hc : chk (s.begun c) = some x) : xob c chk eff s = .next (takeExc c x (s.begun c)) := by
  simp only [State.coreReady, Bool.and_eq_true, Option.isNone_iff_eq_none] at h
  have hf := h.2
  unfold xob
  rw [if_pos h.1]
  simp only [State.begun] at hf hc ⊢
  simp only [hf, hc]

@[simp] theorem State.begun_core (s : State) (c : Nat) :
    (s.begun c).core c = { s.core c with waiting := (s.core c).waiting && s.tMode c } := State.core_setCore ..

@[simp] theorem State.begun_tMode (s : State) (c : Nat) : (s.begun c).tMode c = s.tMode c := by simp [State.tMode]

@[simp] theorem State.begun_mirror (s : State) (c : Nat) : (s.begun c).mirror c = s.mirror c := by simp [State.mirror]

@[simp] theorem State.begun_bank (s : State) (c : Nat) : (s.begun c).bank c = s.bank c := by simp [State.bank]

@[simp] theorem State.begun_pc (s : State) (c : Nat) : (s.begun c).pc c = s.pc c := by simp [State.pc]

@[simp] theorem State.begun_reg (s : State) (c r : Nat) : (s.begun c).reg c r = s.reg c r := by simp [State.reg]

variable {c d : Nat} {s t u : State}

/-! ### The frame of an instruction: `OnlyCore` and `CoreKept`, operation by operation -/

theorem OnlyCore.refl : OnlyCore c s s := ⟨rfl, fun _ _ => rfl⟩

theorem OnlyCore.trans (h : OnlyCore c s t) (k : OnlyCore c t u) : OnlyCore c s u := by
  refine ⟨?_, fun d e => (k.2 d e).trans (h.2 d e)⟩
  rw [k.1, h.1]

theorem CoreKept.refl : CoreKept c d s s :=
  ⟨fun _ _ => rfl, rfl, rfl, fun _ => ⟨rfl, rfl⟩, fun _ => ⟨rfl, rfl⟩, rfl, rfl, rfl, rfl, rfl, rfl, rfl, rfl, rfl, rfl, rfl, rfl, rfl, rfl,
    rfl, ⟨rfl, rfl, rfl⟩⟩

theorem CoreKept.trans (h : CoreKept c d s t) (k : CoreKept c d t u) : CoreKept c d s u :=
  ⟨fun r e => (k.reg r e).trans (h.reg r e), k.tMode.trans h.tMode, k.mirror.trans h.mirror,
    fun e => ⟨(k.sHalf (h.tMode.trans e)).1.trans (h.sHalf e).1, (k.sHalf (h.tMode.trans e)).2.trans (h.sHalf e).2⟩,
    fun e => ⟨(k.tHalf (h.tMode.trans e)).1.trans (h.tHalf e).1, (k.tHalf (h.tMode.trans e)).2.trans (h.tHalf e).2⟩,
    k.ls.trans h.ls, k.le.trans h.le, k.psr.trans h.psr, k.epc.trans h.epc, k.ecause.trans h.ecause, k.eaddr.trans h.eaddr,
    k.epsr.trans h.epsr, k.escr.trans h.escr, k.svec.trans h.svec, k.ipend.trans h.ipend, k.imask.trans h.imask,
    k.tcause.trans h.tcause, k.tepc.trans h.tepc, k.teaddr.trans h.teaddr, k.cycleHi.trans h.cycleHi,
    ⟨k.mpu.1.trans h.mpu.1, k.mpu.2.1.trans h.mpu.2.1, k.mpu.2.2.trans h.mpu.2.2⟩⟩

theorem OnlyCore.setCore (v : Core) : OnlyCore c s (s.setCore c v) := ⟨rfl, fun _ e => State.core_setCore_ne _ _ _ _ e⟩

theorem State.setBank_only (b : Bank) : OnlyCore c s (s.setBank c b) := OnlyCore.setCore _

theorem State.setPc_only (a : Word) : OnlyCore c s (s.setPc c a) := OnlyCore.setCore _

theorem State.setReg_only (r : Nat) (w : Word) : OnlyCore c s (s.setReg c r w) := by
  unfold State.setReg
  split
  · exact OnlyCore.refl
  · exact State.setBank_only _

theorem State.result_only (gd : Nat) (x : Alu) : OnlyCore c s (s.result c gd x) :=
  (State.setBank_only _).trans (State.setReg_only _ _)

theorem spend_only (n : Nat) : OnlyCore c s (spend c n s) := ⟨rfl, fun _ e => State.core_setCore_ne _ _ _ _ e⟩

/-! ### The bank in use -/

@[simp] theorem State.tMode_setBank (b : Bank) : (s.setBank c b).tMode c = s.tMode c := by
  cases h : s.tMode c <;> simp [State.setBank, State.tMode] at * <;> simp [h]

@[simp] theorem State.mirror_setBank (b : Bank) : (s.setBank c b).mirror c = s.mirror c := by
  cases h : s.tMode c <;> simp [State.setBank, State.mirror, h]

@[simp] theorem State.bank_setBank (b : Bank) : (s.setBank c b).bank c = b := by
  rw [State.bank, State.tMode_setBank]
  cases h : s.tMode c <;> simp [h, State.setBank]

@[simp] theorem State.pc_setBank (b : Bank) : (s.setBank c b).pc c = s.pc c := by
  rw [State.pc, State.tMode_setBank, State.pc]
  cases h : s.tMode c <;> simp [h, State.setBank]

@[simp] theorem State.tMode_setPc (a : Word) : (s.setPc c a).tMode c = s.tMode c := by
  cases h : s.tMode c <;> simp [State.setPc, State.tMode] at * <;> simp [h]

@[simp] theorem State.mirror_setPc (a : Word) : (s.setPc c a).mirror c = s.mirror c := by
  cases h : s.tMode c <;> simp [State.setPc, State.mirror, h]

@[simp] theorem State.bank_setPc (a : Word) : (s.setPc c a).bank c = s.bank c := by
  rw [State.bank, State.tMode_setPc, State.bank]
  cases h : s.tMode c <;> simp [h, State.setPc]

@[simp] theorem State.pc_setPc (a : Word) : (s.setPc c a).pc c = a := by
  rw [State.pc, State.tMode_setPc]
  cases h : s.tMode c <;> simp [h, State.setPc]

/-- A write of the bank in use that changes no general register but `d`, no `LS` and no `LE`. -/
theorem CoreKept.setBank {b : Bank} (hg : ∀ r, r ≠ d → r ≠ 0 → tget 0 b.g r = tget 0 (s.bank c).g r)
    (hs : b.ls = (s.bank c).ls) (he : b.le = (s.bank c).le) : CoreKept c d s (s.setBank c b) where
  reg r e := by
    by_cases h : r = 0
    · simp [State.reg, h]
    · simpa [State.reg, h] using hg r e h
  tMode := by simp
  mirror := by simp
  sHalf h := by simp [State.setBank, h]
  tHalf h := by simp [State.setBank, h]
  ls := by simpa using hs
  le := by simpa using he
  psr := by cases h : s.tMode c <;> simp [State.setBank, h, Core.psr]
  epc := by cases h : s.tMode c <;> simp [State.setBank, h]
  ecause := by cases h : s.tMode c <;> simp [State.setBank, h]
  eaddr := by cases h : s.tMode c <;> simp [State.setBank, h]
  epsr := by cases h : s.tMode c <;> simp [State.setBank, h]
  escr := by cases h : s.tMode c <;> simp [State.setBank, h]
  svec := by cases h : s.tMode c <;> simp [State.setBank, h]
  ipend := by cases h : s.tMode c <;> simp [State.setBank, h]
  imask := by cases h : s.tMode c <;> simp [State.setBank, h]
  tcause := by cases h : s.tMode c <;> simp [State.setBank, h]
  tepc := by cases h : s.tMode c <;> simp [State.setBank, h]
  teaddr := by cases h : s.tMode c <;> simp [State.setBank, h]
  cycleHi := by cases h : s.tMode c <;> simp [State.setBank, h]
  mpu := by cases h : s.tMode c <;> simp [State.setBank, h]

theorem State.setPc_kept (a : Word) : CoreKept c d s (s.setPc c a) where
  reg r _ := by simp [State.reg]
  tMode := by simp
  mirror := by simp
  sHalf h := by simp [State.setPc, h]
  tHalf h := by simp [State.setPc, h]
  ls := by simp
  le := by simp
  psr := by cases h : s.tMode c <;> simp [State.setPc, h, Core.psr]
  epc := by cases h : s.tMode c <;> simp [State.setPc, h]
  ecause := by cases h : s.tMode c <;> simp [State.setPc, h]
  eaddr := by cases h : s.tMode c <;> simp [State.setPc, h]
  epsr := by cases h : s.tMode c <;> simp [State.setPc, h]
  escr := by cases h : s.tMode c <;> simp [State.setPc, h]
  svec := by cases h : s.tMode c <;> simp [State.setPc, h]
  ipend := by cases h : s.tMode c <;> simp [State.setPc, h]
  imask := by cases h : s.tMode c <;> simp [State.setPc, h]
  tcause := by cases h : s.tMode c <;> simp [State.setPc, h]
  tepc := by cases h : s.tMode c <;> simp [State.setPc, h]
  teaddr := by cases h : s.tMode c <;> simp [State.setPc, h]
  cycleHi := by cases h : s.tMode c <;> simp [State.setPc, h]
  mpu := by cases h : s.tMode c <;> simp [State.setPc, h]

theorem State.setReg_kept (w : Word) : CoreKept c d s (s.setReg c d w) := by
  unfold State.setReg
  split
  · exact CoreKept.refl
  · exact CoreKept.setBank (fun r e _ => Tab.get_set_ne _ _ _ e) rfl rfl

/-- The cycles of an instruction, its count in the pass, and the end of a wait. -/
theorem CoreKept.count {w : Bool} {n : Nat} {f : Pass → Pass} (hf : ∀ p, (f p).mirror = p.mirror) :
    CoreKept c d s (s.setCore c { s.core c with waiting := w, cycle := n, pass := (s.core c).pass.map f }) := by
  have ht : (s.setCore c { s.core c with waiting := w, cycle := n, pass := (s.core c).pass.map f }).tMode c = s.tMode c := by
    simp [State.tMode]
  have hm : (s.setCore c { s.core c with waiting := w, cycle := n, pass := (s.core c).pass.map f }).mirror c = s.mirror c := by
    cases h : (s.core c).pass <;> simp [State.mirror, h, hf]
  have hb : (s.setCore c { s.core c with waiting := w, cycle := n, pass := (s.core c).pass.map f }).bank c = s.bank c := by
    rw [State.bank, ht, State.bank]
    simp
  exact ⟨fun r _ => by simp only [State.reg, hm, hb], ht, hm, fun _ => by simp, fun _ => by simp, by rw [hb], by rw [hb],
    by simp [Core.psr], by simp, by simp, by simp, by simp, by simp, by simp, by simp, by simp, by simp, by simp, by simp, by simp, by simp⟩

theorem State.draw_kept : CoreKept c d s s.draw :=
  ⟨fun _ _ => rfl, rfl, rfl, fun _ => ⟨rfl, rfl⟩, fun _ => ⟨rfl, rfl⟩, rfl, rfl, rfl, rfl, rfl, rfl, rfl, rfl, rfl, rfl, rfl, rfl, rfl, rfl,
    rfl, ⟨rfl, rfl, rfl⟩⟩

theorem spend_kept (n : Nat) : CoreKept c d s (spend c n s) :=
  State.draw_kept.trans (CoreKept.count (s := s.draw) (w := (s.core c).waiting)
    (n := ((s.core c).cycle + (n + Config.stall s.drawn)) % 2 ^ 64)
    (f := fun p => { p with cycles := p.cycles + (n + Config.stall s.drawn) }) (fun _ => rfl))

@[simp] theorem spend_bank (n : Nat) : (spend c n s).bank c = s.bank c := by
  simp [State.bank, State.tMode, spend]
  rfl

@[simp] theorem spend_pc (n : Nat) : (spend c n s).pc c = s.pc c := by
  simp [State.pc, State.tMode, spend]
  rfl

theorem State.begun_only : OnlyCore c s (s.begun c) := OnlyCore.setCore _

theorem State.begun_kept : CoreKept c d s (s.begun c) := by
  have := CoreKept.count (c := c) (d := d) (s := s) (w := (s.core c).waiting && s.tMode c) (n := (s.core c).cycle) (f := id) (fun _ => rfl)
  simpa [State.begun] using this

/-- The state in which an instruction has ended but for the writes that a replay delivers after it. -/
def counted (c : Nat) (s : State) : State :=
  s.setCore c { s.core c with pass := (s.core c).pass.map (fun p => { p with retired := p.retired + 1 }) }

theorem retired_eq : retired c s = deliver c (counted c s) := rfl

theorem counted_only : OnlyCore c s (counted c s) := OnlyCore.setCore _

theorem counted_kept : CoreKept c d s (counted c s) :=
  CoreKept.count (w := (s.core c).waiting) (n := (s.core c).cycle) (f := fun p => { p with retired := p.retired + 1 }) (fun _ => rfl)

@[simp] theorem counted_bank : (counted c s).bank c = s.bank c := by
  cases h : (s.core c).pass <;> simp [State.bank, State.tMode, counted, h]

@[simp] theorem counted_pc : (counted c s).pc c = s.pc c := by
  cases h : (s.core c).pass <;> simp [State.pc, State.tMode, counted, h]

/-- The loop levels touch nothing of a bank but `LC`. -/
theorem loopBack_bank (a : Word) (n : Nat) (b : Bank) : (loopBack a n b).1.g = b.g ∧ (loopBack a n b).1.fl = b.fl ∧
    (loopBack a n b).1.ls = b.ls ∧ (loopBack a n b).1.le = b.le := by
  induction n generalizing b with
  | zero => exact ⟨rfl, rfl, rfl, rfl⟩
  | succ n ih =>
    simp only [loopBack]
    split
    · split
      · exact ih { b with lc := tset 0 b.lc n 0 }
      · exact ⟨rfl, rfl, rfl, rfl⟩
    · exact ih b

/-- All that the end of an instruction without a taken branch can do. -/
theorem advance_frame (n : Nat) : ∃ u, advance c n s = deliver c u ∧ OnlyCore c s u ∧ CoreKept c d s u ∧
    (u.bank c).fl = (s.bank c).fl ∧ (u.bank c).g = (s.bank c).g := by
  refine ⟨counted c (spend c n ((s.setBank c (loopBack (s.pc c) 3 (s.bank c)).1).setPc c (loopBack (s.pc c) 3 (s.bank c)).2)),
    rfl, ?_, ?_, ?_, ?_⟩
  · exact (((State.setBank_only _).trans (State.setPc_only _)).trans (spend_only _)).trans counted_only
  · exact (((CoreKept.setBank (fun r _ _ => by rw [(loopBack_bank ..).1]) (loopBack_bank ..).2.2.1 (loopBack_bank ..).2.2.2).trans (State.setPc_kept _)).trans
      (spend_kept _)).trans counted_kept
  · rw [counted_bank, spend_bank, State.bank_setPc, State.bank_setBank, (loopBack_bank ..).2.1]
  · rw [counted_bank, spend_bank, State.bank_setPc, State.bank_setBank, (loopBack_bank ..).1]

theorem Bank.leave_g (b : Bank) (a : Word) : (b.leave a).g = b.g := by unfold Bank.leave; split <;> rfl
theorem Bank.leave_fl (b : Bank) (a : Word) : (b.leave a).fl = b.fl := by unfold Bank.leave; split <;> rfl
theorem Bank.leave_ls (b : Bank) (a : Word) : (b.leave a).ls = b.ls := by unfold Bank.leave; split <;> rfl
theorem Bank.leave_le (b : Bank) (a : Word) : (b.leave a).le = b.le := by unfold Bank.leave; split <;> rfl

/-- All that a taken branch that does not end a pass can do. -/
theorem branch_frame (n : Nat) (a : Word) (h : s.tMode c = false ∨ a ≠ passGate) : ∃ u, branchTo c n a s = deliver c u ∧
    OnlyCore c s u ∧ CoreKept c d s u ∧ (u.bank c).fl = (s.bank c).fl ∧ (u.bank c).g = (s.bank c).g ∧ u.pc c = a := by
  have e : branchTo c n a s = deliver c (counted c (spend c n ((s.setBank c ((s.bank c).leave a)).setPc c a))) := by
    unfold branchTo
    refine if_neg ?_
    rcases h with h | h
    · have hp : (s.core c).pass = none := by simpa [State.tMode] using h
      have : (counted c (spend c n ((s.setBank c ((s.bank c).leave a)).setPc c a))).tMode c = false := by
        rw [counted_kept (d := 0) |>.tMode, spend_kept (d := 0) n |>.tMode, State.tMode_setPc, State.tMode_setBank, h]
      have h' : ((counted c (spend c n ((s.setBank c ((s.bank c).leave a)).setPc c a))).core c).pass = none := by
        simpa [State.tMode] using this
      show ¬((deliver c (counted c (spend c n ((s.setBank c ((s.bank c).leave a)).setPc c a)))).tMode c && a == passGate) = true
      rw [show deliver c (counted c (spend c n ((s.setBank c ((s.bank c).leave a)).setPc c a))) =
        counted c (spend c n ((s.setBank c ((s.bank c).leave a)).setPc c a)) by unfold deliver; rw [h'], this]
      simp
    · simp [h]
  refine ⟨_, e, ?_, ?_, ?_, ?_, ?_⟩
  · exact (((State.setBank_only _).trans (State.setPc_only _)).trans (spend_only _)).trans counted_only
  · exact (((CoreKept.setBank (fun r _ _ => by rw [Bank.leave_g]) (Bank.leave_ls ..) (Bank.leave_le ..)).trans
      (State.setPc_kept _)).trans (spend_kept _)).trans counted_kept
  · rw [counted_bank, spend_bank, State.bank_setPc, State.bank_setBank, Bank.leave_fl]
  · rw [counted_bank, spend_bank, State.bank_setPc, State.bank_setBank, Bank.leave_g]
  · rw [counted_pc, spend_pc, State.pc_setPc]

/-- A result is written to its register, its flags to `FL`, and nothing else of the core changes. -/
theorem State.result_kept (x : Alu) : CoreKept c d s (s.result c d x) :=
  (CoreKept.setBank (b := { s.bank c with fl := x.flags (s.bank c).fl }) (fun _ _ _ => rfl) rfl rfl).trans (State.setReg_kept _)

@[simp] theorem State.setReg_fl (w : Word) : ((s.setReg c d w).bank c).fl = (s.bank c).fl := by
  unfold State.setReg
  split
  · rfl
  · rw [State.bank_setBank]

theorem State.result_fl (x : Alu) : ((s.result c d x).bank c).fl = x.flags (s.bank c).fl := by
  rw [State.result, State.setReg_fl, State.bank_setBank]

theorem State.reg_setReg (w : Word) (h : d ≠ 0) : (s.setReg c d w).reg c d = w := by
  simp only [State.setReg, State.reg, if_neg h, State.bank_setBank]
  exact Tab.get_set_self ..

/-- All that a data instruction of a ready core does. -/
theorem dataOp_frame {gd n : Nat} {f : State → Alu} (h : s.coreReady c = true) : ∃ u, dataOp c gd n f s = .next (deliver c u) ∧
    OnlyCore c s u ∧ CoreKept c gd s u ∧ (u.bank c).fl = (f (s.begun c)).flags (s.bank c).fl ∧
    (gd ≠ 0 → u.reg c gd = (f (s.begun c)).r) := by
  have e : dataOp c gd n f s = .next (advance c n ((s.begun c).result c gd (f (s.begun c)))) := xob_ready h rfl
  obtain ⟨u, hu, ho, hk, hf, hg⟩ := advance_frame (c := c) (d := gd) (s := (s.begun c).result c gd (f (s.begun c))) n
  refine ⟨u, by rw [e, hu], (State.begun_only.trans (State.result_only _ _)).trans ho,
    (State.begun_kept.trans (State.result_kept _)).trans hk, by rw [hf, State.result_fl, State.begun_bank], fun hd => ?_⟩
  have hr : u.reg c gd = ((s.begun c).result c gd (f (s.begun c))).reg c gd := by simp only [State.reg, if_neg hd, hg]
  rw [hr]
  exact State.reg_setReg _ hd

end Sys2Proof.Machine
end

