-- ==== Sys2Proof/Laws/Keeps.lean ====
section
/-!
SUPPORT. Sys2Proof/Laws/Keeps.lean: what every operation of the device leaves alone: the queue, the canonical forms of memory and
registers, the identity, SAFE and the time base up to a reset of the logic die. Said once for each way an operation is built; the
operations themselves follow in `Laws/Ops*.lean`.
-/
namespace Sys2Proof.Machine
-- the small lemmas of this file one after another, each without a thread of its own
set_option Elab.async false

/-- The logic die has been reset and no frame has started since; with `a` set, it has not come out of reset either. -/
def Fresh (a : Bool) (t : State) : Prop := t.frame.started = false ∧ (a = true → t.alive = false)

/-- What an operation that leads from `r` to `t` keeps. -/
structure Keeps (a : Bool) (r t : State) : Prop where
  pending : t.pending = r.pending
  mem : memWf r.mem = true → memWf t.mem = true
  regs : Tab.wf fieldReset r.fields = true → Tab.wf fieldReset t.fields = true
  pub : r.vault.pub.isSome = true → t.vault.pub = r.vault.pub
  damaged : r.vault.damaged = true → t.vault.damaged = true
  drawn : r.drawn ≤ t.drawn
  safe : r.ump.safe = true → Fresh a t ∨ t.ump.safe = true
  now : Fresh a t ∨ r.now ≤ t.now

variable {a : Bool} {r s : State}

theorem Keeps.refl : Keeps a r r :=
  ⟨rfl, id, id, fun _ => rfl, id, Nat.le_refl _, .inr, .inr (Nat.le_refl _)⟩

/-- A record update that leaves memory, registers, queue, time base and reset line alone. -/
theorem Keeps.upd {x_power x_pwr x_prism x_blocksArmed x_segsWritten x_dbgPort x_frozen x_ded x_cores x_tick x_rlog x_ignOk
    x_immoOk x_applyOk x_chans x_tl x_dies x_groups x_chain x_leds x_chtPosts x_status x_psch x_field x_tlActive
    x_calActive x_mnt x_calSet x_calLive x_cov x_store x_tmr x_tmrPosts x_tmrStatus x_captPins x_scan x_cans x_nms
    x_lins x_eths x_sents x_uarts x_acc x_accKept x_keeper x_book x_jrnl x_sub}
    {x : Frame} {u : Umpire} {v : Vault} (h : Keeps a r s)
    (hx : x.started = true → s.frame.started = true := by first | exact id | exact fun h => h)
    (hu : s.ump.safe = true → u.safe = true := by first | exact id | exact fun h => h)
    (hv : s.vault.pub.isSome = true → v.pub = s.vault.pub := by exact fun _ => rfl)
    (hd : s.vault.damaged = true → v.damaged = true := by first | exact id | exact fun h => h) :
    Keeps a r ⟨x_power, s.alive, x_pwr, x_prism, s.pending, s.now, s.fields, x_blocksArmed, x_segsWritten, x_dbgPort, x_frozen, s.mem,
      x_ded, s.drawn, x_cores, x, x_tick, x_rlog, u, x_ignOk, x_immoOk, x_applyOk, x_chans, x_tl, x_dies, x_groups, x_chain,
      x_leds, x_chtPosts, x_status, x_psch, x_field, x_tlActive, x_calActive, x_mnt, x_calSet, x_calLive, x_cov, x_store,
      x_tmr, x_tmrPosts, x_tmrStatus, x_captPins, x_scan, x_cans, x_nms, x_lins, x_eths, x_sents, x_uarts, x_acc, x_accKept,
      v, x_keeper, x_book, x_jrnl, x_sub⟩ := by
  have hf : Fresh a s → x.started = false := fun f => by
    rcases hs : x.started with _ | _
    · rfl
    · exact absurd (hx hs) (by simp [f.1])
  refine ⟨h.pending, h.mem, h.regs, fun p => ?_, fun p => hd (h.damaged p), h.drawn, fun p => ?_, ?_⟩
  · exact (hv (by rw [h.pub p]; exact p)).trans (h.pub p)
  · exact (h.safe p).imp (fun f => ⟨hf f, f.2⟩) hu
  · exact h.now.imp (fun f => ⟨hf f, f.2⟩) id

/-- A write of memory that keeps its canonical form. -/
theorem Keeps.memory {x_power x_pwr x_prism x_blocksArmed x_segsWritten x_dbgPort x_frozen x_ded x_cores x_tick x_rlog x_ignOk
    x_immoOk x_applyOk x_chans x_tl x_dies x_groups x_chain x_leds x_chtPosts x_status x_psch x_field x_tlActive
    x_calActive x_mnt x_calSet x_calLive x_cov x_store x_tmr x_tmrPosts x_tmrStatus x_captPins x_scan x_cans x_nms
    x_lins x_eths x_sents x_uarts x_acc x_accKept x_keeper x_book x_jrnl x_sub}
    {m : List Host.Cell} (h : Keeps a r s) (hm : memWf s.mem = true → memWf m = true) :
    Keeps a r ⟨x_power, s.alive, x_pwr, x_prism, s.pending, s.now, s.fields, x_blocksArmed, x_segsWritten, x_dbgPort, x_frozen, m,
      x_ded, s.drawn, x_cores, s.frame, x_tick, x_rlog, s.ump, x_ignOk, x_immoOk, x_applyOk, x_chans, x_tl, x_dies, x_groups,
      x_chain, x_leds, x_chtPosts, x_status, x_psch, x_field, x_tlActive, x_calActive, x_mnt, x_calSet, x_calLive, x_cov,
      x_store, x_tmr, x_tmrPosts, x_tmrStatus, x_captPins, x_scan, x_cans, x_nms, x_lins, x_eths, x_sents, x_uarts, x_acc,
      x_accKept, s.vault, x_keeper, x_book, x_jrnl, x_sub⟩ :=
  ⟨h.pending, fun p => hm (h.mem p), h.regs, h.pub, h.damaged, h.drawn, h.safe, h.now⟩

/-- A write of the register fields that keeps their canonical form. -/
theorem Keeps.registers {x_power x_pwr x_prism x_blocksArmed x_segsWritten x_dbgPort x_frozen x_ded x_cores x_tick x_rlog x_ignOk
    x_immoOk x_applyOk x_chans x_tl x_dies x_groups x_chain x_leds x_chtPosts x_status x_psch x_field x_tlActive
    x_calActive x_mnt x_calSet x_calLive x_cov x_store x_tmr x_tmrPosts x_tmrStatus x_captPins x_scan x_cans x_nms
    x_lins x_eths x_sents x_uarts x_acc x_accKept x_keeper x_book x_jrnl x_sub}
    {m : Tab Nat} (h : Keeps a r s) (hm : Tab.wf fieldReset s.fields = true → Tab.wf fieldReset m = true) :
    Keeps a r ⟨x_power, s.alive, x_pwr, x_prism, s.pending, s.now, m, x_blocksArmed, x_segsWritten, x_dbgPort, x_frozen, s.mem, x_ded,
      s.drawn, x_cores, s.frame, x_tick, x_rlog, s.ump, x_ignOk, x_immoOk, x_applyOk, x_chans, x_tl, x_dies, x_groups,
      x_chain, x_leds, x_chtPosts, x_status, x_psch, x_field, x_tlActive, x_calActive, x_mnt, x_calSet, x_calLive, x_cov,
      x_store, x_tmr, x_tmrPosts, x_tmrStatus, x_captPins, x_scan, x_cans, x_nms, x_lins, x_eths, x_sents, x_uarts, x_acc,
      x_accKept, s.vault, x_keeper, x_book, x_jrnl, x_sub⟩ :=
  ⟨h.pending, h.mem, fun p => hm (h.regs p), h.pub, h.damaged, h.drawn, h.safe, h.now⟩

theorem Keeps.same (h : Keeps a r s) : Keeps a r (id s) := h

theorem Keeps.ite {x y : State} {c : Prop} [Decidable c] (hx : Keeps a r x) (hy : Keeps a r y) :
    Keeps a r (if c then x else y) := by
  split
  · exact hx
  · exact hy

theorem Keeps.foldl {α : Type} {f : State → α → State} {l : List α} (h : Keeps a r s)
    (hf : ∀ s x, Keeps a r s → Keeps a r (f s x)) : Keeps a r (l.foldl f s) := by
  induction l generalizing s with
  | nil => exact h
  | cons x l ih => exact ih (hf s x h)

theorem Keeps.ofPair {α : Type} {p : α × State} {x : α} (e : p = (x, s)) (h : Keeps a r p.2) : Keeps a r s := by
  rw [e] at h
  exact h

theorem Keeps.weaken (h : Keeps true r s) : Keeps a r s :=
  ⟨h.pending, h.mem, h.regs, h.pub, h.damaged, h.drawn, fun p => (h.safe p).imp (fun f => ⟨f.1, fun _ => f.2 rfl⟩) id,
    h.now.imp (fun f => ⟨f.1, fun _ => f.2 rfl⟩) id⟩

/-- An operation that keeps all of this keeps the device fresh. -/
theorem Keeps.fresh {t : State} (h : ∀ r, Keeps a r s → Keeps a r t) (f : Fresh a s) : Fresh a t :=
  (h { s with now := t.now + 1 } ⟨rfl, id, id, fun _ => rfl, id, Nat.le_refl _, fun _ => .inl f, .inl f⟩).now.resolve_right
    (Nat.not_succ_le_self _)

/-- A command answers a next state, and what it keeps. -/
structure KeepsRes (a : Bool) (r : State) (o : Res) : Prop where
  of : ∃ t, o = .next t ∧ Keeps a r t

theorem KeepsRes.next (h : Keeps a r s) : KeepsRes a r (.next s) := ⟨_, rfl, h⟩

theorem KeepsRes.ite {x y : Res} {c : Prop} [Decidable c] (hx : KeepsRes a r x) (hy : KeepsRes a r y) :
    KeepsRes a r (if c then x else y) := by
  split
  · exact hx
  · exact hy

theorem State.put_keeps (s : State) (f : Fld) (v : Nat) (h : Keeps a r s) : Keeps a r (s.put f v) :=
  h.registers (Tab.set_wf _ _)

theorem State.draw_keeps (s : State) (h : Keeps a r s) : Keeps a r s.draw :=
  ⟨h.pending, h.mem, h.regs, h.pub, h.damaged, Nat.le_succ_of_le h.drawn, h.safe, h.now⟩

theorem State.at_keeps (s : State) (t : Nat) (h : Keeps a r s) : Keeps a r (s.at t) :=
  ⟨h.pending, h.mem, h.regs, h.pub, h.damaged, h.drawn, h.safe, h.now.imp id (fun p => Nat.le_trans p (Nat.le_max_left _ _))⟩

theorem State.setByte_keeps (s : State) (key : Nat) (b : Byte) (h : Keeps a r s) : Keeps a r (s.setByte key b) :=
  h.memory (Tab.set_wf _ _)

theorem State.setWord_keeps (s : State) (key : Nat) (w : Word) (h : Keeps a r s) : Keeps a r (s.setWord key w) := by
  unfold State.setWord
  exact State.setByte_keeps _ _ _ (State.setByte_keeps _ _ _ (State.setByte_keeps _ _ _ (State.setByte_keeps _ _ _ h)))

theorem State.setWords_keeps (s : State) (key : Nat) (l : List Word) (h : Keeps a r s) : Keeps a r (s.setWords key l) := by
  induction l generalizing s key with
  | nil => exact h
  | cons w l ih => exact ih _ _ (State.setWord_keeps _ _ _ h)

theorem State.setBytes_keeps (s : State) (key : Nat) (l : List Byte) (h : Keeps a r s) : Keeps a r (s.setBytes key l) := by
  induction l generalizing s key with
  | nil => exact h
  | cons b l ih => exact ih _ _ (State.setByte_keeps _ _ _ h)

end Sys2Proof.Machine
end

