-- ==== Sys2Proof/Laws/OpsBase.lean ====
section
/-!
SUPPORT. Sys2Proof/Laws/OpsBase.lean: what each operation of the registers, the report path, the fences and the Umpire keeps (`Keeps` says what that is), one lemma for each
operation, so that no proof unfolds one to know that it leaves the queue, the identity or the canonical forms alone.
-/
namespace Sys2Proof.Machine
-- the small lemmas of this file one after another, each without a thread of its own
set_option Elab.async false
set_option linter.all false
variable {fl : Bool} {s₀ : State}

theorem State.flag_keeps (s : State) (f : Fld) (b : Bool) (hk : Keeps fl s₀ s) :
    Keeps fl s₀ (State.flag s f b) := by
  unfold State.flag
  try dsimp only
  repeat' first
    | intro _
    | with_reducible first
      | assumption | apply Keeps.ite | apply State.put_keeps
    | split

theorem State.putBit_keeps (s : State) (f : Fld) (i : Nat) (b : Bool) (hk : Keeps fl s₀ s) :
    Keeps fl s₀ (State.putBit s f i b) := by
  unfold State.putBit
  try dsimp only
  repeat' first
    | intro _
    | with_reducible first
      | assumption | apply State.put_keeps
    | split

theorem State.wrap_keeps (s : State) (f : Fld) (hk : Keeps fl s₀ s) :
    Keeps fl s₀ (State.wrap s f) := by
  unfold State.wrap
  try dsimp only
  repeat' first
    | intro _
    | with_reducible first
      | assumption | apply State.put_keeps
    | split

theorem State.sat_keeps (s : State) (f : Fld) (n : Nat) (hk : Keeps fl s₀ s) :
    Keeps fl s₀ (State.sat s f n) := by
  unfold State.sat
  try dsimp only
  repeat' first
    | intro _
    | with_reducible first
      | assumption | apply State.put_keeps
    | split

theorem State.put64_keeps (s : State) (lo hi : Fld) (v : Nat) (hk : Keeps fl s₀ s) :
    Keeps fl s₀ (State.put64 s lo hi v) := by
  unfold State.put64
  try dsimp only
  repeat' first
    | intro _
    | with_reducible first
      | assumption | apply State.put_keeps
    | split

theorem State.setWordN_keeps (s : State) (key v : Nat) (hk : Keeps fl s₀ s) :
    Keeps fl s₀ (State.setWordN s key v) := by
  unfold State.setWordN
  try dsimp only
  repeat' first
    | intro _
    | with_reducible first
      | assumption | apply State.setWord_keeps
    | split

theorem State.setCore_keeps (s : State) (c : Nat) (v : Core) (hk : Keeps fl s₀ s) :
    Keeps fl s₀ (State.setCore s c v) := by
  unfold State.setCore
  try dsimp only
  repeat' first
    | intro _
    | with_reducible first
      | assumption | fail_if_no_progress refine Keeps.upd ?_
    | split

theorem State.setSrc_keeps (s : State) (n : Nat) (v : Source) (hk : Keeps fl s₀ s) :
    Keeps fl s₀ (State.setSrc s n v) := by
  unfold State.setSrc
  try dsimp only
  repeat' first
    | intro _
    | with_reducible first
      | assumption | fail_if_no_progress refine Keeps.upd ?_
    | split

theorem State.setChan_keeps (s : State) (i : Nat) (v : Chan) (hk : Keeps fl s₀ s) :
    Keeps fl s₀ (State.setChan s i v) := by
  unfold State.setChan
  try dsimp only
  repeat' first
    | intro _
    | with_reducible first
      | assumption | fail_if_no_progress refine Keeps.upd ?_
    | split

theorem State.modChan_keeps (s : State) (i : Nat) (f : Chan → Chan) (hk : Keeps fl s₀ s) :
    Keeps fl s₀ (State.modChan s i f) := by
  unfold State.modChan
  try dsimp only
  repeat' first
    | intro _
    | with_reducible first
      | assumption | apply State.setChan_keeps
    | split

theorem State.setDie_keeps (s : State) (k : Nat) (v : Die) (hk : Keeps fl s₀ s) :
    Keeps fl s₀ (State.setDie s k v) := by
  unfold State.setDie
  try dsimp only
  repeat' first
    | intro _
    | with_reducible first
      | assumption | fail_if_no_progress refine Keeps.upd ?_
    | split

theorem State.modDie_keeps (s : State) (k : Nat) (f : Die → Die) (hk : Keeps fl s₀ s) :
    Keeps fl s₀ (State.modDie s k f) := by
  unfold State.modDie
  try dsimp only
  repeat' first
    | intro _
    | with_reducible first
      | assumption | apply State.setDie_keeps
    | split

theorem State.setGrp_keeps (s : State) (g : Nat) (v : Group) (hk : Keeps fl s₀ s) :
    Keeps fl s₀ (State.setGrp s g v) := by
  unfold State.setGrp
  try dsimp only
  repeat' first
    | intro _
    | with_reducible first
      | assumption | fail_if_no_progress refine Keeps.upd ?_
    | split

theorem State.setTask_keeps (s : State) (i : Nat) (v : Task) (hk : Keeps fl s₀ s) :
    Keeps fl s₀ (State.setTask s i v) := by
  unfold State.setTask
  try dsimp only
  repeat' first
    | intro _
    | with_reducible first
      | assumption | fail_if_no_progress refine Keeps.upd ?_
    | split

theorem State.setRun_keeps (s : State) (i : Nat) (v : TaskRun) (hk : Keeps fl s₀ s) :
    Keeps fl s₀ (State.setRun s i v) := by
  unfold State.setRun
  try dsimp only
  repeat' first
    | intro _
    | with_reducible first
      | assumption | fail_if_no_progress refine Keeps.upd ?_
    | split

theorem State.setLed_keeps (s : State) (p : Nat) (v : LedPort) (hk : Keeps fl s₀ s) :
    Keeps fl s₀ (State.setLed s p v) := by
  unfold State.setLed
  try dsimp only
  repeat' first
    | intro _
    | with_reducible first
      | assumption | fail_if_no_progress refine Keeps.upd ?_
    | split

theorem overN_keeps (n : Nat) (f : Nat → State → State) (s : State) (hf : ∀ y s, Keeps fl s₀ s → Keeps fl s₀ (f y s)) (hk : Keeps
    fl s₀ s) :
    Keeps fl s₀ (overN n f s) := by
  unfold overN
  try dsimp only
  repeat' first
    | intro _
    | with_reducible first
      | assumption | apply Keeps.foldl | apply hf
    | split

theorem forEach_keeps {α : Type} (l : List α) (f : α → State → State) (s : State) (hf : ∀ y s, Keeps fl s₀ s → Keeps fl s₀ (f y
    s)) (hk : Keeps fl s₀ s) :
    Keeps fl s₀ (forEach l f s) := by
  unfold forEach
  try dsimp only
  repeat' first
    | intro _
    | with_reducible first
      | assumption | apply Keeps.foldl | apply hf
    | split

theorem raiseIrq_keeps (c : Nat) (b : Nat) (s : State) (hk : Keeps fl s₀ s) :
    Keeps fl s₀ (raiseIrq c b s) := by
  unfold raiseIrq
  try dsimp only
  repeat' first
    | intro _
    | with_reducible first
      | assumption | apply State.setCore_keeps | fail_if_no_progress refine Keeps.upd ?_
    | split

theorem raiseAll_keeps (b : Nat) (s : State) (hk : Keeps fl s₀ s) :
    Keeps fl s₀ (raiseAll b s) := by
  unfold raiseAll
  try dsimp only
  repeat' first
    | intro _
    | with_reducible first
      | assumption | apply raiseIrq_keeps | apply overN_keeps
    | split

theorem turnOn_keeps (i : Nat) (s : State) (hk : Keeps fl s₀ s) :
    Keeps fl s₀ (turnOn i s) := by
  unfold turnOn
  try dsimp only
  repeat' first
    | intro _
    | with_reducible first
      | assumption | apply Keeps.ite | apply State.setChan_keeps | fail_if_no_progress refine Keeps.upd ?_
    | split

theorem turnOff_keeps (i : Nat) (s : State) (hk : Keeps fl s₀ s) :
    Keeps fl s₀ (turnOff i s) := by
  unfold turnOff
  try dsimp only
  repeat' first
    | intro _
    | with_reducible first
      | assumption | apply Keeps.ite | apply State.setChan_keeps | fail_if_no_progress refine Keeps.upd ?_
    | split

theorem setOut_keeps (i : Nat) (b : Bool) (s : State) (hk : Keeps fl s₀ s) :
    Keeps fl s₀ (setOut i b s) := by
  unfold setOut
  try dsimp only
  repeat' first
    | intro _
    | with_reducible first
      | assumption | apply Keeps.ite | apply turnOff_keeps | apply turnOn_keeps
    | split

theorem settle_keeps (i : Nat) (s : State) (hk : Keeps fl s₀ s) :
    Keeps fl s₀ (settle i s) := by
  unfold settle
  try dsimp only
  repeat' first
    | intro _
    | with_reducible first
      | assumption | apply Keeps.ite | apply setOut_keeps | apply State.setChan_keeps | fail_if_no_progress refine Keeps.upd ?_
    | refine Keeps.ofPair (by assumption) ?_ | split

theorem settleAll_keeps (l : List Nat) (s : State) (hk : Keeps fl s₀ s) :
    Keeps fl s₀ (settleAll l s) := by
  unfold settleAll
  try dsimp only
  repeat' first
    | intro _
    | with_reducible first
      | assumption | apply settle_keeps | apply forEach_keeps
    | split

theorem dieBackstop_keeps (k : Nat) (cause : BackCause) (s : State) (hk : Keeps fl s₀ s) :
    Keeps fl s₀ (dieBackstop k cause s) := by
  unfold dieBackstop
  try dsimp only
  repeat' first
    | intro _
    | with_reducible first
      | assumption | apply Keeps.ite | apply settleAll_keeps | apply forEach_keeps | apply State.modDie_keeps
      | apply State.modChan_keeps | apply State.put_keeps | fail_if_no_progress refine Keeps.upd ?_
    | split

theorem gatesChanged_keeps (s : State) (hk : Keeps fl s₀ s) :
    Keeps fl s₀ (gatesChanged s) := by
  unfold gatesChanged
  try dsimp only
  repeat' first
    | intro _
    | with_reducible first
      | assumption | apply settleAll_keeps
    | split

theorem setSafeHeld_keeps (b : Bool) (s : State) (hk : Keeps fl s₀ s) :
    Keeps fl s₀ (setSafeHeld b s) := by
  unfold setSafeHeld
  try dsimp only
  repeat' first
    | intro _
    | with_reducible first
      | assumption | apply Keeps.ite | apply gatesChanged_keeps | fail_if_no_progress refine Keeps.upd ?_
    | split

theorem State.setTmr_keeps (s : State) (c : Nat) (x : TmrChan) (hk : Keeps fl s₀ s) :
    Keeps fl s₀ (State.setTmr s c x) := by
  unfold State.setTmr
  try dsimp only
  repeat' first
    | intro _
    | with_reducible first
      | assumption | fail_if_no_progress refine Keeps.upd ?_
    | split

theorem tmrSync_keeps (c : Nat) (s : State) (hk : Keeps fl s₀ s) :
    Keeps fl s₀ (tmrSync c s) := by
  unfold tmrSync
  try dsimp only
  repeat' first
    | intro _
    | with_reducible first
      | assumption | apply State.setTmr_keeps
    | split

theorem tmrRestart_keeps (u : Nat) (s : State) (hk : Keeps fl s₀ s) :
    Keeps fl s₀ (tmrRestart u s) := by
  unfold tmrRestart
  try dsimp only
  repeat' first
    | intro _
    | with_reducible first
      | assumption | apply Keeps.ite | apply State.setTmr_keeps | apply forEach_keeps | fail_if_no_progress refine Keeps.upd ?_
    | split

theorem State.setSlot_keeps (s : State) (k : Nat) (v : Slot) (hk : Keeps fl s₀ s) :
    Keeps fl s₀ (State.setSlot s k v) := by
  unfold State.setSlot
  try dsimp only
  repeat' first
    | intro _
    | with_reducible first
      | assumption | fail_if_no_progress refine Keeps.upd ?_
    | split

theorem mntAsk_keeps (kind unit : Nat) (who : Asker) (s : State) (hk : Keeps fl s₀ s) :
    Keeps fl s₀ (mntAsk kind unit who s).2 := by
  unfold mntAsk
  try dsimp only
  repeat' first
    | intro _
    | with_reducible first
      | assumption | apply State.setSlot_keeps | fail_if_no_progress refine Keeps.upd ?_
    | split | refine Keeps.ofPair (by assumption) ?_ | split

theorem mntRequest_keeps (kind unit : Nat) (who : Asker) (s : State) (hk : Keeps fl s₀ s) :
    Keeps fl s₀ (mntRequest kind unit who s) := by
  unfold mntRequest
  try dsimp only
  repeat' first
    | intro _
    | with_reducible first
      | assumption | apply mntAsk_keeps
    | split

theorem needCoreTest_keeps (c : Nat) (s : State) (hk : Keeps fl s₀ s) :
    Keeps fl s₀ (needCoreTest c s) := by
  unfold needCoreTest
  try dsimp only
  repeat' first
    | intro _
    | with_reducible first
      | assumption | apply mntRequest_keeps | fail_if_no_progress refine Keeps.upd ?_
    | split

theorem noteAbort_keeps (i c : Nat) (o : TaskOut) (s : State) (hk : Keeps fl s₀ s) :
    Keeps fl s₀ (noteAbort i c o s) := by
  unfold noteAbort
  try dsimp only
  repeat' first
    | intro _
    | with_reducible first
      | assumption | apply Keeps.ite | fail_if_no_progress refine Keeps.upd ?_
    | split

theorem settleTask_keeps (i : Nat) (o : TaskOut) (s : State) (hk : Keeps fl s₀ s) :
    Keeps fl s₀ (settleTask i o s) := by
  unfold settleTask
  try dsimp only
  repeat' first
    | intro _
    | with_reducible first
      | assumption | apply noteAbort_keeps | apply State.setRun_keeps | fail_if_no_progress refine Keeps.upd ?_
    | refine Keeps.ofPair (by assumption) ?_ | split

theorem dropPasses_keeps (c : Nat) (s : State) (hk : Keeps fl s₀ s) :
    Keeps fl s₀ (dropPasses c s) := by
  unfold dropPasses
  try dsimp only
  repeat' first
    | intro _
    | with_reducible first
      | assumption | apply State.setCore_keeps | fail_if_no_progress refine Keeps.upd ?_
    | split

theorem settleCore_keeps (c : Nat) (o : TaskOut) (s : State) (hk : Keeps fl s₀ s) :
    Keeps fl s₀ (settleCore c o s) := by
  unfold settleCore
  try dsimp only
  repeat' first
    | intro _
    | with_reducible first
      | assumption | apply settleTask_keeps | apply forEach_keeps
    | split

theorem stopFrame_keeps (s : State) (hk : Keeps fl s₀ s) :
    Keeps fl s₀ (stopFrame s) := by
  unfold stopFrame
  try dsimp only
  repeat' first
    | intro _
    | with_reducible first
      | assumption | apply Keeps.ite | apply settleCore_keeps | apply dropPasses_keeps | apply overN_keeps
      | apply State.put_keeps
    | (fail_if_no_progress ((with_reducible apply Keeps.upd) <;> first | exact id | exact fun _ => rfl | skip)) | split

theorem enterSafe_keeps (cause : Nat) (s : State) (hk : Keeps fl s₀ s) :
    Keeps fl s₀ (enterSafe cause s) := by
  unfold enterSafe
  try dsimp only
  repeat' first
    | intro _
    | with_reducible first
      | assumption | apply Keeps.ite | apply stopFrame_keeps | apply setSafeHeld_keeps | apply State.put_keeps
    | (fail_if_no_progress ((with_reducible apply Keeps.upd) <;> first | exact id | exact fun _ => rfl | skip)) | split

theorem enterLimp_keeps (s : State) (hk : Keeps fl s₀ s) :
    Keeps fl s₀ (enterLimp s) := by
  unfold enterLimp
  try dsimp only
  repeat' first
    | intro _
    | with_reducible first
      | assumption | apply dieBackstop_keeps | apply overN_keeps
    | split

theorem tmrFence_keeps (u : Nat) (s : State) (hk : Keeps fl s₀ s) :
    Keeps fl s₀ (tmrFence u s) := by
  unfold tmrFence
  try dsimp only
  repeat' first
    | intro _
    | with_reducible first
      | assumption | apply State.setTmr_keeps | apply forEach_keeps | apply State.putBit_keeps
    | split

theorem fldFence_keeps (s : State) (hk : Keeps fl s₀ s) :
    Keeps fl s₀ (fldFence s) := by
  unfold fldFence
  try dsimp only
  repeat' first
    | intro _
    | with_reducible first
      | assumption | apply Keeps.ite | apply State.flag_keeps | apply State.put_keeps | fail_if_no_progress refine Keeps.upd ?_
    | split

theorem fldUnfence_keeps (s : State) (hk : Keeps fl s₀ s) :
    Keeps fl s₀ (fldUnfence s) := by
  unfold fldUnfence
  try dsimp only
  repeat' first
    | intro _
    | with_reducible first
      | assumption | apply Keeps.ite | apply State.flag_keeps | apply State.put_keeps | fail_if_no_progress refine Keeps.upd ?_
    | split

theorem pschFence_keeps (s : State) (hk : Keeps fl s₀ s) :
    Keeps fl s₀ (pschFence s) := by
  unfold pschFence
  try dsimp only
  repeat' first
    | intro _
    | with_reducible first
      | assumption | apply Keeps.ite | apply gatesChanged_keeps | apply State.flag_keeps
      | fail_if_no_progress refine Keeps.upd ?_
    | split

theorem pschUnfence_keeps (s : State) (hk : Keeps fl s₀ s) :
    Keeps fl s₀ (pschUnfence s) := by
  unfold pschUnfence
  try dsimp only
  repeat' first
    | intro _
    | with_reducible first
      | assumption | apply State.flag_keeps | apply State.put_keeps | fail_if_no_progress refine Keeps.upd ?_
    | split

theorem covFence_keeps (s : State) (hk : Keeps fl s₀ s) :
    Keeps fl s₀ (covFence s) := by
  unfold covFence
  try dsimp only
  repeat' first
    | intro _
    | with_reducible first
      | assumption | apply State.flag_keeps | apply State.put_keeps | fail_if_no_progress refine Keeps.upd ?_
    | split

theorem covUnfence_keeps (s : State) (hk : Keeps fl s₀ s) :
    Keeps fl s₀ (covUnfence s) := by
  unfold covUnfence
  try dsimp only
  repeat' first
    | intro _
    | with_reducible first
      | assumption | apply Keeps.ite | apply Keeps.foldl | apply State.sat_keeps | apply State.flag_keeps
      | apply State.put_keeps | fail_if_no_progress refine Keeps.upd ?_
    | refine Keeps.ofPair (by assumption) ?_ | split

theorem State.setCan_keeps (s : State) (n : Nat) (x : Can) (hk : Keeps fl s₀ s) :
    Keeps fl s₀ (State.setCan s n x) := by
  unfold State.setCan
  try dsimp only
  repeat' first
    | intro _
    | with_reducible first
      | assumption | fail_if_no_progress refine Keeps.upd ?_
    | split

theorem State.modCan_keeps (s : State) (n : Nat) (f : Can → Can) (hk : Keeps fl s₀ s) :
    Keeps fl s₀ (State.modCan s n f) := by
  unfold State.modCan
  try dsimp only
  repeat' first
    | intro _
    | with_reducible first
      | assumption | apply State.setCan_keeps
    | split

theorem canGo_keeps (n st : Nat) (s : State) (hk : Keeps fl s₀ s) :
    Keeps fl s₀ (canGo n st s) := by
  unfold canGo
  try dsimp only
  repeat' first
    | intro _
    | with_reducible first
      | assumption | apply State.put_keeps
    | split

theorem cutTx_keeps (n : Nat) (s : State) (hk : Keeps fl s₀ s) :
    Keeps fl s₀ (cutTx n s) := by
  unfold cutTx
  try dsimp only
  repeat' first
    | intro _
    | with_reducible first
      | assumption | apply State.modCan_keeps | fail_if_no_progress refine Keeps.upd ?_
    | split

theorem canFence_keeps (n : Nat) (s : State) (hk : Keeps fl s₀ s) :
    Keeps fl s₀ (canFence n s) := by
  unfold canFence
  try dsimp only
  repeat' first
    | intro _
    | with_reducible first
      | assumption | apply cutTx_keeps | apply canGo_keeps
    | split

theorem canUnfence_keeps (n : Nat) (s : State) (hk : Keeps fl s₀ s) :
    Keeps fl s₀ (canUnfence n s) := by
  unfold canUnfence
  try dsimp only
  repeat' first
    | intro _
    | with_reducible first
      | assumption | apply canGo_keeps | apply State.put_keeps
    | split

theorem linFence_keeps (m : Nat) (s : State) (hk : Keeps fl s₀ s) :
    Keeps fl s₀ (linFence m s) := by
  unfold linFence
  try dsimp only
  repeat' first
    | intro _
    | with_reducible first
      | assumption | apply State.put_keeps | fail_if_no_progress refine Keeps.upd ?_
    | split

theorem linUnfence_keeps (m : Nat) (s : State) (hk : Keeps fl s₀ s) :
    Keeps fl s₀ (linUnfence m s) := by
  unfold linUnfence
  try dsimp only
  repeat' first
    | intro _
    | with_reducible first
      | assumption | apply Keeps.ite | apply State.put_keeps | fail_if_no_progress refine Keeps.upd ?_
    | split

theorem ethFence_keeps (e : Nat) (s : State) (hk : Keeps fl s₀ s) :
    Keeps fl s₀ (ethFence e s) := by
  unfold ethFence
  try dsimp only
  repeat' first
    | intro _
    | with_reducible first
      | assumption | apply State.flag_keeps | fail_if_no_progress refine Keeps.upd ?_
    | split

theorem State.setUart_keeps (s : State) (u : Nat) (x : Uart) (hk : Keeps fl s₀ s) :
    Keeps fl s₀ (State.setUart s u x) := by
  unfold State.setUart
  try dsimp only
  repeat' first
    | intro _
    | with_reducible first
      | assumption | fail_if_no_progress refine Keeps.upd ?_
    | split

theorem uartStop_keeps (u : Nat) (s : State) (hk : Keeps fl s₀ s) :
    Keeps fl s₀ (uartStop u s) := by
  unfold uartStop
  try dsimp only
  repeat' first
    | intro _
    | with_reducible first
      | assumption | apply State.setUart_keeps | fail_if_no_progress refine Keeps.upd ?_
    | split

theorem immoFall_keeps (s : State) (hk : Keeps fl s₀ s) :
    Keeps fl s₀ (immoFall s) := by
  unfold immoFall
  try dsimp only
  repeat' first
    | intro _
    | with_reducible first
      | assumption | apply Keeps.ite | apply gatesChanged_keeps | fail_if_no_progress refine Keeps.upd ?_
    | split

theorem accFence_keeps (s : State) (hk : Keeps fl s₀ s) :
    Keeps fl s₀ (accFence s) := by
  unfold accFence
  try dsimp only
  repeat' first
    | intro _
    | with_reducible first
      | assumption | apply immoFall_keeps | fail_if_no_progress refine Keeps.upd ?_
    | split

theorem accRestore_keeps (s : State) (hk : Keeps fl s₀ s) :
    Keeps fl s₀ (accRestore s) := by
  unfold accRestore
  try dsimp only
  repeat' first
    | intro _
    | with_reducible first
      | assumption | apply Keeps.ite | fail_if_no_progress refine Keeps.upd ?_
    | split

theorem jrnlFence_keeps (s : State) (hk : Keeps fl s₀ s) :
    Keeps fl s₀ (jrnlFence s) := by
  unfold jrnlFence
  try dsimp only
  repeat' first
    | intro _
    | with_reducible first
      | assumption | apply State.flag_keeps | fail_if_no_progress refine Keeps.upd ?_
    | split

theorem jrnlUnfence_keeps (s : State) (hk : Keeps fl s₀ s) :
    Keeps fl s₀ (jrnlUnfence s) := by
  unfold jrnlUnfence
  try dsimp only
  repeat' first
    | intro _
    | with_reducible first
      | assumption | apply State.flag_keeps
    | split

theorem linkFence_keeps (t : Nat) (s : State) (hk : Keeps fl s₀ s) :
    Keeps fl s₀ (linkFence t s) := by
  unfold linkFence
  try dsimp only
  repeat' first
    | intro _
    | with_reducible first
      | assumption | apply Keeps.ite | apply uartStop_keeps | apply ethFence_keeps | apply linFence_keeps | apply canFence_keeps
    | split

theorem linkUnfence_keeps (t : Nat) (s : State) (hk : Keeps fl s₀ s) :
    Keeps fl s₀ (linkUnfence t s) := by
  unfold linkUnfence
  try dsimp only
  repeat' first
    | intro _
    | with_reducible first
      | assumption | apply Keeps.ite | apply linUnfence_keeps | apply canUnfence_keeps
    | split

theorem fenceEnter_keeps (t : Nat) (s : State) (hk : Keeps fl s₀ s) :
    Keeps fl s₀ (fenceEnter t s) := by
  unfold fenceEnter
  try dsimp only
  repeat' first
    | intro _
    | with_reducible first
      | assumption | apply Keeps.ite | apply linkFence_keeps | apply jrnlFence_keeps | apply accFence_keeps
      | apply covFence_keeps | apply pschFence_keeps | apply fldFence_keeps | apply tmrFence_keeps | apply settleCore_keeps
      | apply dropPasses_keeps | apply dieBackstop_keeps | apply settle_keeps | apply State.flag_keeps
      | fail_if_no_progress refine Keeps.upd ?_
    | split

theorem fenceLeave_keeps (t : Nat) (s : State) (hk : Keeps fl s₀ s) :
    Keeps fl s₀ (fenceLeave t s) := by
  unfold fenceLeave
  try dsimp only
  repeat' first
    | intro _
    | with_reducible first
      | assumption | apply Keeps.ite | apply linkUnfence_keeps | apply jrnlUnfence_keeps | apply accRestore_keeps
      | apply covUnfence_keeps | apply pschUnfence_keeps | apply fldUnfence_keeps | apply needCoreTest_keeps
      | apply tmrRestart_keeps | apply settle_keeps | apply State.putBit_keeps | apply State.flag_keeps
    | split

theorem logRecord_keeps (n code : Nat) (forced perm ex : Bool) (detail : Nat) (s : State) (hk : Keeps fl s₀ s) :
    Keeps fl s₀ (logRecord n code forced perm ex detail s) := by
  unfold logRecord
  try dsimp only
  repeat' first
    | intro _
    | with_reducible first
      | assumption | apply Keeps.ite | apply State.put_keeps | fail_if_no_progress refine Keeps.upd ?_
    | split

theorem react_keeps (code tgt : Nat) (was : Bool) (s : State) (hk : Keeps fl s₀ s) :
    Keeps fl s₀ (react code tgt was s) := by
  unfold react
  try dsimp only
  repeat' first
    | intro _
    | with_reducible first
      | assumption | apply Keeps.ite | apply fenceEnter_keeps | apply enterLimp_keeps | apply enterSafe_keeps
    | split

theorem noteReport_keeps (n : Nat) (forced : Bool) (s : State) (hk : Keeps fl s₀ s) :
    Keeps fl s₀ (noteReport n forced s) := by
  unfold noteReport
  try dsimp only
  repeat' first
    | intro _
    | with_reducible first
      | assumption | apply State.sat_keeps | apply State.putBit_keeps | apply State.flag_keeps
      | fail_if_no_progress refine Keeps.upd ?_
    | refine Keeps.ofPair (by assumption) ?_ | split

theorem enterSource_keeps (n unit detail : Nat) (forced : Bool) (s : State) (hk : Keeps fl s₀ s) :
    Keeps fl s₀ (enterSource n unit detail forced s) := by
  unfold enterSource
  try dsimp only
  repeat' first
    | intro _
    | with_reducible first
      | assumption | apply Keeps.ite | apply react_keeps | apply logRecord_keeps | apply State.setSrc_keeps
      | fail_if_no_progress refine Keeps.upd ?_
    | split

theorem againSource_keeps (n unit : Nat) (s : State) (hk : Keeps fl s₀ s) :
    Keeps fl s₀ (againSource n unit s) := by
  unfold againSource
  try dsimp only
  repeat' first
    | intro _
    | with_reducible first
      | assumption | apply Keeps.ite | apply fenceEnter_keeps | apply State.setSrc_keeps
      | fail_if_no_progress refine Keeps.upd ?_
    | split

theorem notify_keeps (code : Nat) (s : State) (hk : Keeps fl s₀ s) :
    Keeps fl s₀ (notify code s) := by
  unfold notify
  try dsimp only
  repeat' first
    | intro _
    | with_reducible first
      | assumption | apply Keeps.ite | apply raiseIrq_keeps | apply overN_keeps
    | split

theorem safeIfNoCore_keeps (s : State) (hk : Keeps fl s₀ s) :
    Keeps fl s₀ (safeIfNoCore s) := by
  unfold safeIfNoCore
  try dsimp only
  repeat' first
    | intro _
    | with_reducible first
      | assumption | apply Keeps.ite | apply enterSafe_keeps
    | split

theorem reportOnce_keeps (n unit detail : Nat) (forced : Bool) (s : State) (hk : Keeps fl s₀ s) :
    Keeps fl s₀ (reportOnce n unit detail forced s) := by
  unfold reportOnce
  try dsimp only
  repeat' first
    | intro _
    | with_reducible first
      | assumption | apply Keeps.ite | apply safeIfNoCore_keeps | apply notify_keeps | apply againSource_keeps
      | apply enterSource_keeps | apply noteReport_keeps | fail_if_no_progress refine Keeps.upd ?_
    | split

theorem immoReport_keeps (s : State) (hk : Keeps fl s₀ s) :
    Keeps fl s₀ (immoReport s) := by
  unfold immoReport
  try dsimp only
  repeat' first
    | intro _
    | with_reducible first
      | assumption | apply Keeps.ite | apply reportOnce_keeps | fail_if_no_progress refine Keeps.upd ?_
    | split

theorem abortReports_keeps  (nn : Nat) (s : State) (hk : Keeps fl s₀ s) :
    Keeps fl s₀ (abortReports nn s) := by
  induction nn generalizing s with
  | zero => exact hk
  | succ nn ih =>
    unfold abortReports
    try dsimp only
    repeat' first
      | with_reducible first
        | assumption | apply reportOnce_keeps | fail_if_no_progress refine Keeps.upd ?_
      | refine Keeps.ofPair (by assumption) ?_ | split
      | with_reducible first
        | apply ih

theorem dueReports_keeps (s : State) (hk : Keeps fl s₀ s) :
    Keeps fl s₀ (dueReports s) := by
  unfold dueReports
  try dsimp only
  repeat' first
    | intro _
    | with_reducible first
      | assumption | apply abortReports_keeps | apply immoReport_keeps
    | split

theorem reportFull_keeps (n unit detail : Nat) (forced : Bool) (s : State) (hk : Keeps fl s₀ s) :
    Keeps fl s₀ (reportFull n unit detail forced s) := by
  unfold reportFull
  try dsimp only
  repeat' first
    | intro _
    | with_reducible first
      | assumption | apply Keeps.ite | apply dueReports_keeps | apply reportOnce_keeps | fail_if_no_progress refine Keeps.upd ?_
    | split

theorem reportHeld_keeps (h : HeldReport) (s : State) (hk : Keeps fl s₀ s) : Keeps fl s₀ (reportHeld h s) := by
  have hf : Fresh fl s → Fresh fl { s with now := h.at_ } := fun f => f
  have h1 : Keeps fl { s₀ with now := 0 } { s with now := h.at_ } :=
    ⟨hk.pending, hk.mem, hk.regs, hk.pub, hk.damaged, hk.drawn, hk.safe, .inr (Nat.zero_le _)⟩
  have h2 := reportFull_keeps h.src h.unit h.detail h.forced _ h1
  have h3 := Keeps.fresh (fun r hr => reportFull_keeps h.src h.unit h.detail h.forced _ hr) (s := { s with now := h.at_ }) (a := fl)
  unfold reportHeld
  dsimp only
  generalize reportFull h.src h.unit h.detail h.forced { s with now := h.at_ } = t at h2 h3 ⊢
  exact ⟨h2.pending, h2.mem, h2.regs, h2.pub, h2.damaged, h2.drawn, h2.safe,
    hk.now.imp (fun f => h3 (hf f)) (fun f => Nat.le_trans f (Nat.le_max_left _ _))⟩

theorem report_keeps (n : Nat) (s : State) (hk : Keeps fl s₀ s) :
    Keeps fl s₀ (report n s) := by
  unfold report
  try dsimp only
  repeat' first
    | intro _
    | with_reducible first
      | assumption | apply reportFull_keeps
    | split

theorem exitSource_keeps (n : Nat) (s : State) (hk : Keeps fl s₀ s) :
    Keeps fl s₀ (exitSource n s) := by
  unfold exitSource
  try dsimp only
  repeat' first
    | intro _
    | with_reducible first
      | assumption | apply Keeps.ite | apply logRecord_keeps | apply fenceLeave_keeps | apply forEach_keeps
      | apply State.setSrc_keeps | apply State.sat_keeps | fail_if_no_progress refine Keeps.upd ?_
    | split

theorem execQuietExpiry_keeps (n : Fin 512) (t : Nat) (s : State) (hk : Keeps fl s₀ s) :
    KeepsRes fl s₀ (execQuietExpiry n t s) := by
  unfold execQuietExpiry
  try dsimp only
  repeat' first
    | with_reducible first
      | apply KeepsRes.next | apply KeepsRes.ite
    | intro _
    | with_reducible first
      | assumption | apply Keeps.ite | apply exitSource_keeps | apply State.at_keeps | fail_if_no_progress refine Keeps.upd ?_
    | split

theorem execRecCntForget_keeps (n : Fin 512) (t : Nat) (s : State) (hk : Keeps fl s₀ s) :
    KeepsRes fl s₀ (execRecCntForget n t s) := by
  unfold execRecCntForget
  try dsimp only
  repeat' first
    | with_reducible first
      | apply KeepsRes.next | apply KeepsRes.ite
    | intro _
    | with_reducible first
      | assumption | apply Keeps.ite | apply State.at_keeps | apply State.put_keeps | fail_if_no_progress refine Keeps.upd ?_
    | split

theorem execSafeReq_keeps (s : State) (hk : Keeps fl s₀ s) :
    KeepsRes fl s₀ (execSafeReq s) := by
  unfold execSafeReq
  try dsimp only
  repeat' first
    | with_reducible first
      | apply KeepsRes.next | apply KeepsRes.ite
    | intro _
    | with_reducible first
      | assumption | apply Keeps.ite | apply dueReports_keeps | apply enterSafe_keeps | apply State.flag_keeps
    | split

theorem execUmpForce_keeps (n : Fin 512) (s : State) (hk : Keeps fl s₀ s) :
    KeepsRes fl s₀ (execUmpForce n s) := by
  unfold execUmpForce
  try dsimp only
  repeat' first
    | with_reducible first
      | apply KeepsRes.next | apply KeepsRes.ite
    | intro _
    | with_reducible first
      | assumption | apply reportFull_keeps
    | split

theorem execFloorLevel_keeps (v : BitVec 2) (s : State) (hk : Keeps fl s₀ s) :
    KeepsRes fl s₀ (execFloorLevel v s) := by
  unfold execFloorLevel
  try dsimp only
  repeat' first
    | with_reducible first
      | apply KeepsRes.next | apply KeepsRes.ite
    | intro _
    | with_reducible first
      | assumption | apply State.put_keeps
    | split

theorem execSelfProtectionTrip_keeps (clock : Bool) (s : State) (hk : Keeps fl s₀ s) :
    KeepsRes fl s₀ (execSelfProtectionTrip clock s) := by
  unfold execSelfProtectionTrip
  try dsimp only
  repeat' first
    | with_reducible first
      | apply KeepsRes.next | apply KeepsRes.ite
    | intro _
    | with_reducible first
      | assumption | apply Keeps.ite | apply dueReports_keeps | apply logRecord_keeps | apply enterSafe_keeps
      | apply setSafeHeld_keeps | apply State.flag_keeps | fail_if_no_progress refine Keeps.upd ?_
    | split

theorem mntClass_keeps (k : Nat) (canMove : Bool) (s : State) (hk : Keeps fl s₀ s) :
    Keeps fl s₀ (mntClass k canMove s) := by
  unfold mntClass
  try dsimp only
  repeat' first
    | intro _
    | with_reducible first
      | assumption | apply Keeps.ite | apply State.setSlot_keeps | fail_if_no_progress refine Keeps.upd ?_
    | split

theorem mntStart_keeps (k : Nat) (canMove : Bool) (s : State) (hk : Keeps fl s₀ s) :
    Keeps fl s₀ (mntStart k canMove s).2 := by
  unfold mntStart
  try dsimp only
  repeat' first
    | intro _
    | with_reducible first
      | assumption | apply Keeps.ite | apply mntClass_keeps | apply State.setSlot_keeps | apply State.put_keeps
    | split | with_reducible fail_if_no_progress refine Keeps.upd ?_ | split

theorem mntStartOf_keeps (kind unit : Nat) (canMove : Bool) (s : State) (hk : Keeps fl s₀ s) :
    Keeps fl s₀ (mntStartOf kind unit canMove s).2 := by
  unfold mntStartOf
  try dsimp only
  repeat' first
    | intro _
    | with_reducible first
      | assumption | apply mntStart_keeps | fail_if_no_progress refine Keeps.upd ?_
    | split | refine Keeps.ofPair (by assumption) ?_ | split

theorem mntEnd_keeps (k : Nat) (ok : Bool) (s : State) (hk : Keeps fl s₀ s) :
    Keeps fl s₀ (mntEnd k ok s) := by
  unfold mntEnd
  try dsimp only
  repeat' first
    | intro _
    | with_reducible first
      | assumption | apply Keeps.ite | apply report_keeps | apply State.setSlot_keeps | apply State.wrap_keeps
      | apply State.put_keeps | fail_if_no_progress refine Keeps.upd ?_
    | split

theorem mntFinish_keeps (kind unit : Nat) (ok : Bool) (s : State) (hk : Keeps fl s₀ s) :
    Keeps fl s₀ (mntFinish kind unit ok s) := by
  unfold mntFinish
  try dsimp only
  repeat' first
    | intro _
    | with_reducible first
      | assumption | apply mntEnd_keeps | fail_if_no_progress refine Keeps.upd ?_
    | refine Keeps.ofPair (by assumption) ?_ | split

theorem mntHold_keeps (kind unit : Nat) (s : State) (hk : Keeps fl s₀ s) :
    Keeps fl s₀ (mntHold kind unit s) := by
  unfold mntHold
  try dsimp only
  repeat' first
    | intro _
    | with_reducible first
      | assumption | apply Keeps.ite | apply mntAsk_keeps | apply State.setSlot_keeps | apply State.put_keeps
      | fail_if_no_progress refine Keeps.upd ?_
    | refine Keeps.ofPair (by assumption) ?_ | split

end Sys2Proof.Machine
end

