-- ==== Sys2Proof/Laws/OpsCov.lean ====
section
/-!
SUPPORT. Sys2Proof/Laws/OpsCov.lean: what each operation of the tile store, the coverage field and the prism scheduler keeps (`Keeps` says what that is), one lemma for each
operation, so that no proof unfolds one to know that it leaves the queue, the identity or the canonical forms alone.
-/
namespace Sys2Proof.Machine
-- the small lemmas of this file one after another, each without a thread of its own
set_option Elab.async false
set_option linter.all false
variable {fl : Bool} {s₀ : State}

theorem State.setTile_keeps (s : State) (e : Nat) (t : Option Tile) (hk : Keeps fl s₀ s) :
    Keeps fl s₀ (State.setTile s e t) := by
  unfold State.setTile
  try dsimp only
  repeat' first
    | intro _
    | with_reducible first
      | assumption | fail_if_no_progress refine Keeps.upd ?_
    | split

theorem makeRoom_keeps (n : Nat) (nn : Nat) (s : State) (hk : Keeps fl s₀ s) :
    Keeps fl s₀ (makeRoom n nn s).2 := by
  induction nn generalizing n s with
  | zero => exact hk
  | succ nn ih =>
    unfold makeRoom
    try dsimp only
    repeat' first
      | with_reducible first
        | assumption | apply State.setTile_keeps | fail_if_no_progress refine Keeps.upd ?_
      | refine Keeps.ofPair (by assumption) ?_ | split
      | with_reducible first
        | apply ih

theorem freeEntry_keeps (s : State) (hk : Keeps fl s₀ s) : Keeps fl s₀ (freeEntry s).2 := by
  unfold freeEntry
  split
  · exact hk
  · split
    · exact State.setTile_keeps _ _ _ hk
    · exact hk

theorem covLost_keeps (n src : Nat) (s : State) (hk : Keeps fl s₀ s) :
    Keeps fl s₀ (covLost n src s) := by
  unfold covLost
  try dsimp only
  repeat' first
    | intro _
    | with_reducible first
      | assumption | apply report_keeps | apply State.sat_keeps
    | split

theorem fillImage_keeps (layer b v : Nat) (s : State) (hk : Keeps fl s₀ s) :
    Keeps fl s₀ (fillImage layer b v s) := by
  unfold fillImage
  try dsimp only
  repeat' first
    | intro _
    | with_reducible first
      | assumption | apply State.setBytes_keeps
    | split

theorem expandTile_keeps (e : Nat) (t : Tile) (s : State) (hk : Keeps fl s₀ s) :
    Keeps fl s₀ (expandTile e t s).2 := by
  unfold expandTile
  try dsimp only
  repeat' first
    | intro _
    | with_reducible first
      | assumption | apply Keeps.ite | apply fillImage_keeps | apply makeRoom_keeps | apply State.setTile_keeps
      | fail_if_no_progress refine Keeps.upd ?_
    | split | refine Keeps.ofPair (by assumption) ?_ | split

theorem areaChange_keeps (old new : Nat) (s : State) (hk : Keeps fl s₀ s) :
    Keeps fl s₀ (areaChange old new s) := by
  unfold areaChange
  try dsimp only
  repeat' first
    | intro _
    | with_reducible first
      | assumption | apply Keeps.ite | apply State.wrap_keeps | apply State.put_keeps | fail_if_no_progress refine Keeps.upd ?_
    | split

theorem putCell_keeps (t : Tile) (k v : Nat) (s : State) (hk : Keeps fl s₀ s) :
    Keeps fl s₀ (putCell t k v s) := by
  unfold putCell
  try dsimp only
  repeat' first
    | intro _
    | with_reducible first
      | assumption | apply State.setByte_keeps | fail_if_no_progress refine Keeps.upd ?_
    | split

theorem changeCell_keeps (e k v : Nat) (s : State) (hk : Keeps fl s₀ s) :
    Keeps fl s₀ (changeCell e k v s) := by
  unfold changeCell
  try dsimp only
  repeat' first
    | intro _
    | with_reducible first
      | assumption | apply Keeps.ite | apply putCell_keeps | apply areaChange_keeps | apply expandTile_keeps
      | apply covLost_keeps | apply State.setTile_keeps | fail_if_no_progress refine Keeps.upd ?_
    | refine Keeps.ofPair (by assumption) ?_ | split

theorem enterUniform_keeps (layer tx ty : Nat) (s : State) (hk : Keeps fl s₀ s) :
    Keeps fl s₀ (enterUniform layer tx ty s).2 := by
  unfold enterUniform
  try dsimp only
  repeat' first
    | intro _
    | with_reducible first
      | assumption | apply freeEntry_keeps | apply State.setTile_keeps | fail_if_no_progress refine Keeps.upd ?_
    | split | refine Keeps.ofPair (by assumption) ?_ | split

theorem residentEntry_keeps (layer tx ty : Nat) (s : State) (hk : Keeps fl s₀ s) :
    Keeps fl s₀ (residentEntry layer tx ty s).2 := by
  unfold residentEntry
  try dsimp only
  repeat' first
    | intro _
    | with_reducible first
      | assumption | apply Keeps.ite | apply enterUniform_keeps | fail_if_no_progress refine Keeps.upd ?_
    | split | refine Keeps.ofPair (by assumption) ?_ | split

theorem setCell_keeps (layer i j v : Nat) (s : State) (hk : Keeps fl s₀ s) :
    Keeps fl s₀ (setCell layer i j v s) := by
  unfold setCell
  try dsimp only
  repeat' first
    | intro _
    | with_reducible first
      | assumption | apply residentEntry_keeps | apply changeCell_keeps | apply covLost_keeps
      | fail_if_no_progress refine Keeps.upd ?_
    | refine Keeps.ofPair (by assumption) ?_ | split

theorem makeUniform_keeps (e : Nat) (s : State) (hk : Keeps fl s₀ s) :
    Keeps fl s₀ (makeUniform e s) := by
  unfold makeUniform
  try dsimp only
  repeat' first
    | intro _
    | with_reducible first
      | assumption | apply Keeps.ite | apply State.setTile_keeps | fail_if_no_progress refine Keeps.upd ?_
    | refine Keeps.ofPair (by assumption) ?_ | split

theorem freeBlocks_keeps (l : List Nat) (s : State) (hk : Keeps fl s₀ s) :
    Keeps fl s₀ (freeBlocks l s) := by
  unfold freeBlocks
  try dsimp only
  repeat' first
    | intro _
    | with_reducible first
      | assumption | apply mntRequest_keeps | apply forEach_keeps | fail_if_no_progress refine Keeps.upd ?_
    | split

theorem compactDir_keeps (s : State) (hk : Keeps fl s₀ s) :
    Keeps fl s₀ (compactDir s) := by
  unfold compactDir
  try dsimp only
  repeat' first
    | intro _
    | with_reducible first
      | assumption | apply Keeps.ite | apply freeBlocks_keeps | apply State.setBytes_keeps | apply State.setWords_keeps
      | fail_if_no_progress refine Keeps.upd ?_
    | split

theorem appendRec_keeps (l : List Word) (s : State) (hk : Keeps fl s₀ s) :
    Keeps fl s₀ (appendRec l s).2 := by
  unfold appendRec
  try dsimp only
  repeat' first
    | intro _
    | with_reducible first
      | assumption | apply Keeps.ite | apply compactDir_keeps | apply State.setWords_keeps
    | split | with_reducible fail_if_no_progress refine Keeps.upd ?_ | split

theorem nextSeq_keeps (s : State) (hk : Keeps fl s₀ s) :
    Keeps fl s₀ (nextSeq s) := by
  unfold nextSeq
  try dsimp only
  repeat' first
    | intro _
    | with_reducible first
      | assumption | fail_if_no_progress refine Keeps.upd ?_
    | split

theorem covShow_keeps (s : State) (hk : Keeps fl s₀ s) :
    Keeps fl s₀ (covShow s) := by
  unfold covShow
  try dsimp only
  repeat' first
    | intro _
    | with_reducible first
      | assumption | apply State.flag_keeps | apply State.put_keeps | fail_if_no_progress refine Keeps.upd ?_
    | split

theorem wroteBack_keeps (e : Nat) (t : Tile) (c : Copy) (s : State) (hk : Keeps fl s₀ s) :
    Keeps fl s₀ (wroteBack e t c s) := by
  unfold wroteBack
  try dsimp only
  repeat' first
    | intro _
    | with_reducible first
      | assumption | apply Keeps.ite | apply nextSeq_keeps | apply appendRec_keeps | apply freeBlocks_keeps
      | apply State.setTile_keeps | apply report_keeps | fail_if_no_progress refine Keeps.upd ?_
    | split

theorem writeBack_keeps (e : Nat) (fail : Bool) (s : State) (hk : Keeps fl s₀ s) :
    Keeps fl s₀ (writeBack e fail s) := by
  unfold writeBack
  try dsimp only
  repeat' first
    | intro _
    | with_reducible first
      | assumption | apply Keeps.ite | apply wroteBack_keeps | apply report_keeps | apply State.setBytes_keeps
      | fail_if_no_progress refine Keeps.upd ?_
    | refine Keeps.ofPair (by assumption) ?_ | split

theorem applyLog_keeps (e key : Nat) (s : State) (hk : Keeps fl s₀ s) :
    Keeps fl s₀ (applyLog e key s) := by
  unfold applyLog
  try dsimp only
  repeat' first
    | intro _
    | with_reducible first
      | assumption | apply changeCell_keeps | apply forEach_keeps | fail_if_no_progress refine Keeps.upd ?_
    | refine Keeps.ofPair (by assumption) ?_ | split

theorem pageIn_keeps (key : Nat) (s : State) (hk : Keeps fl s₀ s) :
    Keeps fl s₀ (pageIn key s) := by
  unfold pageIn
  try dsimp only
  repeat' first
    | intro _
    | with_reducible first
      | assumption | apply Keeps.ite | apply applyLog_keeps | apply freeEntry_keeps | apply makeRoom_keeps
      | apply State.setTile_keeps | apply report_keeps | apply State.setBytes_keeps | fail_if_no_progress refine Keeps.upd ?_
    | refine Keeps.ofPair (by assumption) ?_ | split

theorem wordDamaged_keeps (key : Nat) (s : State) (hk : Keeps fl s₀ s) :
    Keeps fl s₀ (wordDamaged key s) := by
  unfold wordDamaged
  try dsimp only
  repeat' first
    | intro _
    | with_reducible first
      | assumption | apply Keeps.ite | apply areaChange_keeps | apply State.setTile_keeps | apply report_keeps
      | apply forEach_keeps | apply State.setBytes_keeps | fail_if_no_progress refine Keeps.upd ?_
    | refine Keeps.ofPair (by assumption) ?_ | split

theorem State.setWheel_keeps (s : State) (w : Nat) (v : Wheel) (hk : Keeps fl s₀ s) :
    Keeps fl s₀ (State.setWheel s w v) := by
  unfold State.setWheel
  try dsimp only
  repeat' first
    | intro _
    | with_reducible first
      | assumption | fail_if_no_progress refine Keeps.upd ?_
    | split

theorem State.setPoint_keeps (s : State) (i : Nat) (p : Point) (hk : Keeps fl s₀ s) :
    Keeps fl s₀ (State.setPoint s i p) := by
  unfold State.setPoint
  try dsimp only
  repeat' first
    | intro _
    | with_reducible first
      | assumption | fail_if_no_progress refine Keeps.upd ?_
    | split

theorem wheelInterval_keeps (w t : Nat) (s : State) (hk : Keeps fl s₀ s) :
    Keeps fl s₀ (wheelInterval w t s) := by
  unfold wheelInterval
  try dsimp only
  repeat' first
    | intro _
    | with_reducible first
      | assumption | apply Keeps.ite | apply State.setWheel_keeps | fail_if_no_progress refine Keeps.upd ?_
    | refine Keeps.ofPair (by assumption) ?_ | split

theorem wheelEnable_keeps (w : Nat) (s : State) (hk : Keeps fl s₀ s) :
    Keeps fl s₀ (wheelEnable w s) := by
  unfold wheelEnable
  try dsimp only
  repeat' first
    | intro _
    | with_reducible first
      | assumption | apply Keeps.ite | apply State.setWheel_keeps | fail_if_no_progress refine Keeps.upd ?_
    | split

theorem wheelExclude_keeps (w t : Nat) (s : State) (hk : Keeps fl s₀ s) :
    Keeps fl s₀ (wheelExclude w t s) := by
  unfold wheelExclude
  try dsimp only
  repeat' first
    | intro _
    | with_reducible first
      | assumption | apply Keeps.ite | apply State.setWheel_keeps | apply report_keeps | fail_if_no_progress refine Keeps.upd ?_
    | refine Keeps.ofPair (by assumption) ?_ | split

theorem wheelReadmit_keeps (w t : Nat) (s : State) (hk : Keeps fl s₀ s) :
    Keeps fl s₀ (wheelReadmit w t s) := by
  unfold wheelReadmit
  try dsimp only
  repeat' first
    | intro _
    | with_reducible first
      | assumption | apply Keeps.ite | apply State.setWheel_keeps | fail_if_no_progress refine Keeps.upd ?_
    | refine Keeps.ofPair (by assumption) ?_ | split

theorem takeSign_keeps (rev : Bool) (s : State) (hk : Keeps fl s₀ s) :
    Keeps fl s₀ (takeSign rev s) := by
  unfold takeSign
  try dsimp only
  repeat' first
    | intro _
    | with_reducible first
      | assumption | apply Keeps.ite | apply report_keeps | fail_if_no_progress refine Keeps.upd ?_
    | split

theorem wheelCapture_keeps (w t : Nat) (lvl : Bool) (s : State) (hk : Keeps fl s₀ s) :
    Keeps fl s₀ (wheelCapture w t lvl s) := by
  unfold wheelCapture
  try dsimp only
  repeat' first
    | intro _
    | with_reducible first
      | assumption | apply Keeps.ite | apply takeSign_keeps | apply wheelInterval_keeps
      | fail_if_no_progress refine Keeps.upd ?_
    | split

theorem zeroRate_keeps (code t : Nat) (s : State) (hk : Keeps fl s₀ s) :
    Keeps fl s₀ (zeroRate code t s) := by
  unfold zeroRate
  try dsimp only
  repeat' first
    | intro _
    | with_reducible first
      | assumption | apply Keeps.ite | apply State.put_keeps
    | split

theorem yawFrame_keeps (code t : Nat) (s : State) (hk : Keeps fl s₀ s) :
    Keeps fl s₀ (yawFrame code t s) := by
  unfold yawFrame
  try dsimp only
  repeat' first
    | intro _
    | with_reducible first
      | assumption | apply zeroRate_keeps | fail_if_no_progress refine Keeps.upd ?_
    | split

theorem setYaw_keeps (st : Nat) (rate : Int) (s : State) (hk : Keeps fl s₀ s) :
    Keeps fl s₀ (setYaw st rate s) := by
  unfold setYaw
  try dsimp only
  repeat' first
    | intro _
    | with_reducible first
      | assumption | apply Keeps.ite | apply report_keeps | apply State.put_keeps | fail_if_no_progress refine Keeps.upd ?_
    | split

theorem yawUpdate_keeps (t : Nat) (s : State) (hk : Keeps fl s₀ s) :
    Keeps fl s₀ (yawUpdate t s) := by
  unfold yawUpdate
  try dsimp only
  repeat' first
    | intro _
    | with_reducible first
      | assumption | apply Keeps.ite | apply setYaw_keeps | fail_if_no_progress refine Keeps.upd ?_
    | split

theorem speedUpdate_keeps (t : Nat) (s : State) (hk : Keeps fl s₀ s) :
    Keeps fl s₀ (speedUpdate t s) := by
  unfold speedUpdate
  try dsimp only
  repeat' first
    | intro _
    | with_reducible first
      | assumption | apply Keeps.ite | apply Keeps.foldl | apply report_keeps | apply State.put_keeps
      | fail_if_no_progress refine Keeps.upd ?_
    | refine Keeps.ofPair (by assumption) ?_ | split

theorem shiftRef_keeps (e n h : Int) (s : State) (hk : Keeps fl s₀ s) :
    Keeps fl s₀ (shiftRef e n h s) := by
  unfold shiftRef
  try dsimp only
  repeat' first
    | intro _
    | with_reducible first
      | assumption | fail_if_no_progress refine Keeps.upd ?_
    | split

theorem shiftHist_keeps (e n h : Int) (s : State) (hk : Keeps fl s₀ s) :
    Keeps fl s₀ (shiftHist e n h s) := by
  unfold shiftHist
  try dsimp only
  repeat' first
    | intro _
    | with_reducible first
      | assumption | fail_if_no_progress refine Keeps.upd ?_
    | split

theorem corrDone_keeps (u t : Nat) (s : State) (hk : Keeps fl s₀ s) :
    Keeps fl s₀ (corrDone u t s) := by
  unfold corrDone
  try dsimp only
  repeat' first
    | intro _
    | with_reducible first
      | assumption | fail_if_no_progress refine Keeps.upd ?_
    | split

theorem spreadTick_keeps (t : Nat) (s : State) (hk : Keeps fl s₀ s) :
    Keeps fl s₀ (spreadTick t s) := by
  unfold spreadTick
  try dsimp only
  repeat' first
    | intro _
    | with_reducible first
      | assumption | apply Keeps.ite | apply corrDone_keeps | apply shiftRef_keeps | fail_if_no_progress refine Keeps.upd ?_
    | refine Keeps.ofPair (by assumption) ?_ | split

theorem spreadRest_keeps (t : Nat) (s : State) (hk : Keeps fl s₀ s) :
    Keeps fl s₀ (spreadRest t s) := by
  unfold spreadRest
  try dsimp only
  repeat' first
    | intro _
    | with_reducible first
      | assumption | apply corrDone_keeps | apply shiftRef_keeps | fail_if_no_progress refine Keeps.upd ?_
    | refine Keeps.ofPair (by assumption) ?_ | split

theorem rearmLines_keeps (p : Nat → Bool) (s : State) (hk : Keeps fl s₀ s) :
    Keeps fl s₀ (rearmLines p s) := by
  unfold rearmLines
  try dsimp only
  repeat' first
    | intro _
    | with_reducible first
      | assumption | apply Keeps.ite | fail_if_no_progress refine Keeps.upd ?_
    | split

theorem applyCorr_keeps (t : Nat) (c : Corr) (s : State) (hk : Keeps fl s₀ s) :
    Keeps fl s₀ (applyCorr t c s) := by
  unfold applyCorr
  try dsimp only
  repeat' first
    | intro _
    | with_reducible first
      | assumption | apply Keeps.ite | apply rearmLines_keeps | apply spreadRest_keeps | apply corrDone_keeps
      | apply shiftHist_keeps | apply shiftRef_keeps | fail_if_no_progress refine Keeps.upd ?_
    | split

theorem locUpdate_keeps (t : Nat) (s : State) (hk : Keeps fl s₀ s) :
    Keeps fl s₀ (locUpdate t s) := by
  unfold locUpdate
  try dsimp only
  repeat' first
    | intro _
    | with_reducible first
      | assumption | apply Keeps.ite | apply report_keeps | apply State.put_keeps | fail_if_no_progress refine Keeps.upd ?_
    | split

theorem apFault_keeps (i b : Nat) (s : State) (hk : Keeps fl s₀ s) :
    Keeps fl s₀ (apFault i b s) := by
  unfold apFault
  try dsimp only
  repeat' first
    | intro _
    | with_reducible first
      | assumption | apply State.setPoint_keeps | fail_if_no_progress refine Keeps.upd ?_
    | split

theorem pointTick_keeps (i : Nat) (s : State) (hk : Keeps fl s₀ s) :
    Keeps fl s₀ (pointTick i s) := by
  unfold pointTick
  try dsimp only
  repeat' first
    | intro _
    | with_reducible first
      | assumption | apply Keeps.ite | apply State.setPoint_keeps | fail_if_no_progress refine Keeps.upd ?_
    | split

theorem pointFallback_keeps (i : Nat) (s : State) (hk : Keeps fl s₀ s) :
    Keeps fl s₀ (pointFallback i s) := by
  unfold pointFallback
  try dsimp only
  repeat' first
    | intro _
    | with_reducible first
      | assumption | apply Keeps.ite | apply apFault_keeps | apply State.setPoint_keeps
      | fail_if_no_progress refine Keeps.upd ?_
    | split

theorem latencySample_keeps (ch : Nat) (opening : Bool) (raw : Option Nat) (s : State) (hk : Keeps fl s₀ s) :
    Keeps fl s₀ (latencySample ch opening raw s) := by
  unfold latencySample
  try dsimp only
  repeat' first
    | intro _
    | with_reducible first
      | assumption | apply Keeps.ite | apply apFault_keeps | apply State.setPoint_keeps | apply report_keeps
      | fail_if_no_progress refine Keeps.upd ?_
    | refine Keeps.ofPair (by assumption) ?_ | split

theorem latClamp_keeps (i : Nat) (opening : Bool) (s : State) (hk : Keeps fl s₀ s) :
    Keeps fl s₀ (latClamp i opening s) := by
  unfold latClamp
  try dsimp only
  repeat' first
    | intro _
    | with_reducible first
      | assumption | apply Keeps.ite | apply apFault_keeps | apply State.setPoint_keeps | apply report_keeps
      | fail_if_no_progress refine Keeps.upd ?_
    | split

theorem State.setEvent_keeps (s : State) (k : Nat) (e : Option Event) (hk : Keeps fl s₀ s) :
    Keeps fl s₀ (State.setEvent s k e) := by
  unfold State.setEvent
  try dsimp only
  repeat' first
    | intro _
    | with_reducible first
      | assumption | fail_if_no_progress refine Keeps.upd ?_
    | split

theorem placeEvent_keeps (k : Nat) (ev : Event) (f : Int) (t : Nat) (s : State) (hk : Keeps fl s₀ s) :
    Keeps fl s₀ (placeEvent k ev f t s) := by
  unfold placeEvent
  try dsimp only
  repeat' first
    | intro _
    | with_reducible first
      | assumption | apply Keeps.ite | apply State.setEvent_keeps | apply apFault_keeps | apply report_keeps
      | fail_if_no_progress refine Keeps.upd ?_
    | split

theorem eventTick_keeps (k t : Nat) (s : State) (hk : Keeps fl s₀ s) :
    Keeps fl s₀ (eventTick k t s) := by
  unfold eventTick
  try dsimp only
  repeat' first
    | intro _
    | with_reducible first
      | assumption | apply Keeps.ite | apply placeEvent_keeps | apply State.setEvent_keeps
      | fail_if_no_progress refine Keeps.upd ?_
    | refine Keeps.ofPair (by assumption) ?_ | split

theorem firedRecord_keeps (x : Placed) (nochange : Bool) (s : State) (hk : Keeps fl s₀ s) :
    Keeps fl s₀ (firedRecord x nochange s) := by
  unfold firedRecord
  try dsimp only
  repeat' first
    | intro _
    | with_reducible first
      | assumption | apply Keeps.ite | fail_if_no_progress refine Keeps.upd ?_
    | split

theorem fireOne_keeps (x : Placed) (target : Nat → Option Bool) (s : State) (hk : Keeps fl s₀ s) :
    Keeps fl s₀ (fireOne x target s) := by
  unfold fireOne
  try dsimp only
  repeat' first
    | intro _
    | with_reducible first
      | assumption | apply Keeps.ite | apply firedRecord_keeps | apply State.setEvent_keeps | apply State.setPoint_keeps
      | fail_if_no_progress refine Keeps.upd ?_
    | refine Keeps.ofPair (by assumption) ?_ | split

theorem fireLatch_keeps (l : List Placed) (s : State) (hk : Keeps fl s₀ s) :
    Keeps fl s₀ (fireLatch l s) := by
  unfold fireLatch
  try dsimp only
  repeat' first
    | intro _
    | with_reducible first
      | assumption | apply Keeps.ite | apply fireOne_keeps | apply forEach_keeps | fail_if_no_progress refine Keeps.upd ?_
    | split

theorem fireDue_keeps (t : Nat) (nn : Nat) (s : State) (hk : Keeps fl s₀ s) :
    Keeps fl s₀ (fireDue t nn s) := by
  induction nn generalizing t s with
  | zero => exact hk
  | succ nn ih =>
    unfold fireDue
    try dsimp only
    repeat' first
      | with_reducible first
        | assumption | apply Keeps.foldl | apply fireLatch_keeps | fail_if_no_progress refine Keeps.upd ?_
      | refine Keeps.ofPair (by assumption) ?_ | split
      | with_reducible first
        | apply ih

theorem applyDecide_keeps (t : Nat) (s : State) (hk : Keeps fl s₀ s) :
    Keeps fl s₀ (applyDecide t s) := by
  unfold applyDecide
  try dsimp only
  repeat' first
    | intro _
    | with_reducible first
      | assumption | apply Keeps.ite | fail_if_no_progress refine Keeps.upd ?_
    | refine Keeps.ofPair (by assumption) ?_ | split

theorem setApply_keeps (b : Bool) (s : State) (hk : Keeps fl s₀ s) :
    Keeps fl s₀ (setApply b s) := by
  unfold setApply
  try dsimp only
  repeat' first
    | intro _
    | with_reducible first
      | assumption | apply Keeps.ite | apply gatesChanged_keeps | apply State.flag_keeps
      | fail_if_no_progress refine Keeps.upd ?_
    | split

theorem applyDue_keeps (t : Nat) (s : State) (hk : Keeps fl s₀ s) :
    Keeps fl s₀ (applyDue t s) := by
  unfold applyDue
  try dsimp only
  repeat' first
    | intro _
    | with_reducible first
      | assumption | apply Keeps.ite | apply setApply_keeps | fail_if_no_progress refine Keeps.upd ?_
    | refine Keeps.ofPair (by assumption) ?_ | split

theorem pschInputs_keeps (s : State) (hk : Keeps fl s₀ s) :
    Keeps fl s₀ (pschInputs s) := by
  unfold pschInputs
  try dsimp only
  repeat' first
    | intro _
    | with_reducible first
      | assumption | apply latencySample_keeps | apply yawFrame_keeps | apply wheelCapture_keeps | apply wheelEnable_keeps
      | apply forEach_keeps | apply overN_keeps | fail_if_no_progress refine Keeps.upd ?_
    | split

theorem pschAdvance_keeps (s : State) (hk : Keeps fl s₀ s) :
    Keeps fl s₀ (pschAdvance s) := by
  unfold pschAdvance
  try dsimp only
  repeat' first
    | intro _
    | with_reducible first
      | assumption | apply Keeps.ite | apply shiftRef_keeps | fail_if_no_progress refine Keeps.upd ?_
    | split

theorem histWrite_keeps (t : Nat) (s : State) (hk : Keeps fl s₀ s) :
    Keeps fl s₀ (histWrite t s) := by
  unfold histWrite
  try dsimp only
  repeat' first
    | intro _
    | with_reducible first
      | assumption | apply Keeps.ite | fail_if_no_progress refine Keeps.upd ?_
    | split

theorem pschCorrections_keeps (t : Nat) (s : State) (hk : Keeps fl s₀ s) :
    Keeps fl s₀ (pschCorrections t s) := by
  unfold pschCorrections
  try dsimp only
  repeat' first
    | intro _
    | with_reducible first
      | assumption | apply applyCorr_keeps | apply spreadTick_keeps | apply forEach_keeps
      | fail_if_no_progress refine Keeps.upd ?_
    | split

theorem pschMotion_keeps (t : Nat) (s : State) (hk : Keeps fl s₀ s) :
    Keeps fl s₀ (pschMotion t s) := by
  unfold pschMotion
  try dsimp only
  repeat' first
    | intro _
    | with_reducible first
      | assumption | apply Keeps.ite | apply speedUpdate_keeps | apply yawUpdate_keeps | apply takeSign_keeps
      | apply wheelReadmit_keeps | apply wheelExclude_keeps | apply overN_keeps | fail_if_no_progress refine Keeps.upd ?_
    | split

theorem pschPoints_keeps (t : Nat) (s : State) (hk : Keeps fl s₀ s) :
    Keeps fl s₀ (pschPoints t s) := by
  unfold pschPoints
  try dsimp only
  repeat' first
    | intro _
    | with_reducible first
      | assumption | apply eventTick_keeps | apply latClamp_keeps | apply pointFallback_keeps | apply pointTick_keeps
      | apply forEach_keeps | fail_if_no_progress refine Keeps.upd ?_
    | split

theorem pschTick_keeps (t : Nat) (s : State) (hk : Keeps fl s₀ s) :
    Keeps fl s₀ (pschTick t s) := by
  unfold pschTick
  try dsimp only
  repeat' first
    | intro _
    | with_reducible first
      | assumption | apply pschPoints_keeps | apply pschMotion_keeps | apply pschCorrections_keeps | apply histWrite_keeps
      | apply pschAdvance_keeps | apply pschInputs_keeps | apply applyDue_keeps | apply applyDecide_keeps
      | apply locUpdate_keeps | fail_if_no_progress refine Keeps.upd ?_
    | split

theorem execWheelExclude_keeps (w : Fin 4) (t : Nat) (s : State) (hk : Keeps fl s₀ s) :
    KeepsRes fl s₀ (execWheelExclude w t s) := by
  unfold execWheelExclude
  try dsimp only
  repeat' first
    | with_reducible first
      | apply KeepsRes.next | apply KeepsRes.ite
    | intro _
    | with_reducible first
      | assumption | apply Keeps.ite | apply wheelExclude_keeps | apply State.at_keeps | fail_if_no_progress refine Keeps.upd ?_
    | split

theorem execWheelReadmit_keeps (w : Fin 4) (t : Nat) (s : State) (hk : Keeps fl s₀ s) :
    KeepsRes fl s₀ (execWheelReadmit w t s) := by
  unfold execWheelReadmit
  try dsimp only
  repeat' first
    | with_reducible first
      | apply KeepsRes.next | apply KeepsRes.ite
    | intro _
    | with_reducible first
      | assumption | apply Keeps.ite | apply wheelReadmit_keeps | apply State.at_keeps | fail_if_no_progress refine Keeps.upd ?_
    | split

theorem execWheelStop_keeps (w : Fin 4) (t : Nat) (s : State) (hk : Keeps fl s₀ s) :
    KeepsRes fl s₀ (execWheelStop w t s) := by
  unfold execWheelStop
  try dsimp only
  repeat' first
    | with_reducible first
      | apply KeepsRes.next | apply KeepsRes.ite
    | intro _
    | with_reducible first
      | assumption | apply Keeps.ite | apply State.setWheel_keeps | apply State.at_keeps
      | fail_if_no_progress refine Keeps.upd ?_
    | refine Keeps.ofPair (by assumption) ?_ | split

theorem execYawLost_keeps (t : Nat) (s : State) (hk : Keeps fl s₀ s) :
    KeepsRes fl s₀ (execYawLost t s) := by
  unfold execYawLost
  try dsimp only
  repeat' first
    | with_reducible first
      | apply KeepsRes.next | apply KeepsRes.ite
    | intro _
    | with_reducible first
      | assumption | apply Keeps.ite | apply yawUpdate_keeps | apply State.at_keeps | fail_if_no_progress refine Keeps.upd ?_
    | split

theorem execZeroRateUpdate_keeps (t : Nat) (code : Nat) (s : State) (hk : Keeps fl s₀ s) :
    KeepsRes fl s₀ (execZeroRateUpdate t code s) := by
  unfold execZeroRateUpdate
  try dsimp only
  repeat' first
    | with_reducible first
      | apply KeepsRes.next | apply KeepsRes.ite
    | intro _
    | with_reducible first
      | assumption | apply Keeps.ite | apply zeroRate_keeps | apply State.at_keeps | fail_if_no_progress refine Keeps.upd ?_
    | split

theorem execLocDr_keeps (t : Nat) (s : State) (hk : Keeps fl s₀ s) :
    KeepsRes fl s₀ (execLocDr t s) := by
  unfold execLocDr
  try dsimp only
  repeat' first
    | with_reducible first
      | apply KeepsRes.next | apply KeepsRes.ite
    | intro _
    | with_reducible first
      | assumption | apply Keeps.ite | apply locUpdate_keeps | apply State.at_keeps | fail_if_no_progress refine Keeps.upd ?_
    | split

theorem queueCorr_keeps (c : Corr) (s : State) (hk : Keeps fl s₀ s) :
    Keeps fl s₀ (queueCorr c s) := by
  unfold queueCorr
  try dsimp only
  repeat' first
    | intro _
    | with_reducible first
      | assumption | fail_if_no_progress refine Keeps.upd ?_
    | split

theorem execDelta_keeps (e n : Int) (h : Int) (u : Nat) (spread : BitVec 8) (force : Bool) (s : State) (hk : Keeps fl s₀ s) :
    KeepsRes fl s₀ (execDelta e n h u spread force s) := by
  unfold execDelta
  try dsimp only
  repeat' first
    | with_reducible first
      | apply KeepsRes.next | apply KeepsRes.ite
    | intro _
    | with_reducible first
      | assumption | apply Keeps.ite | apply queueCorr_keeps | apply report_keeps | fail_if_no_progress refine Keeps.upd ?_
    | split

theorem execSetCorr_keeps (e n : Int) (h : BitVec 16) (u : Nat) (s : State) (hk : Keeps fl s₀ s) :
    KeepsRes fl s₀ (execSetCorr e n h u s) := by
  unfold execSetCorr
  try dsimp only
  repeat' first
    | with_reducible first
      | apply KeepsRes.next | apply KeepsRes.ite
    | intro _
    | with_reducible first
      | assumption | apply queueCorr_keeps | fail_if_no_progress refine Keeps.upd ?_
    | split

theorem execApPost_keeps (i : Fin 256) (s : State) (hk : Keeps fl s₀ s) :
    KeepsRes fl s₀ (execApPost i s) := by
  unfold execApPost
  try dsimp only
  repeat' first
    | with_reducible first
      | apply KeepsRes.next | apply KeepsRes.ite
    | intro _
    | with_reducible first
      | assumption | apply Keeps.ite | fail_if_no_progress refine Keeps.upd ?_
    | split

theorem execApClr_keeps (i : Fin 256) (s : State) (hk : Keeps fl s₀ s) :
    KeepsRes fl s₀ (execApClr i s) := by
  unfold execApClr
  try dsimp only
  repeat' first
    | with_reducible first
      | apply KeepsRes.next | apply KeepsRes.ite
    | intro _
    | with_reducible first
      | assumption | apply State.setPoint_keeps | fail_if_no_progress refine Keeps.upd ?_
    | split

theorem rejectEvent_keeps (slot : Nat) (s : State) (hk : Keeps fl s₀ s) :
    Keeps fl s₀ (rejectEvent slot s) := by
  unfold rejectEvent
  try dsimp only
  repeat' first
    | intro _
    | with_reducible first
      | assumption | apply report_keeps | apply State.flag_keeps | apply State.put_keeps
    | split

theorem execEventPost_keeps (slot : Fin 4096) (w0 w1 w2 w3 : Word) (s : State) (hk : Keeps fl s₀ s) :
    KeepsRes fl s₀ (execEventPost slot w0 w1 w2 w3 s) := by
  unfold execEventPost
  try dsimp only
  repeat' first
    | with_reducible first
      | apply KeepsRes.next | apply KeepsRes.ite
    | intro _
    | with_reducible first
      | assumption | apply Keeps.ite | apply rejectEvent_keeps | apply State.setEvent_keeps
      | fail_if_no_progress refine Keeps.upd ?_
    | split

theorem execEventCancel_keeps (slot : Fin 4096) (s : State) (hk : Keeps fl s₀ s) :
    KeepsRes fl s₀ (execEventCancel slot s) := by
  unfold execEventCancel
  try dsimp only
  repeat' first
    | with_reducible first
      | apply KeepsRes.next | apply KeepsRes.ite
    | intro _
    | with_reducible first
      | assumption | apply Keeps.ite | apply rejectEvent_keeps | apply State.setEvent_keeps
    | split

theorem execCancelAp_keeps (i : Fin 256) (s : State) (hk : Keeps fl s₀ s) :
    KeepsRes fl s₀ (execCancelAp i s) := by
  unfold execCancelAp
  try dsimp only
  repeat' first
    | with_reducible first
      | apply KeepsRes.next | apply KeepsRes.ite
    | intro _
    | with_reducible first
      | assumption | fail_if_no_progress refine Keeps.upd ?_
    | refine Keeps.ofPair (by assumption) ?_ | split

theorem execApplyWindowEntry_keeps (t : Nat) (s : State) (hk : Keeps fl s₀ s) :
    KeepsRes fl s₀ (execApplyWindowEntry t s) := by
  unfold execApplyWindowEntry
  try dsimp only
  repeat' first
    | with_reducible first
      | apply KeepsRes.next | apply KeepsRes.ite
    | intro _
    | with_reducible first
      | assumption | apply Keeps.ite | apply applyDecide_keeps | apply State.at_keeps | fail_if_no_progress refine Keeps.upd ?_
    | split

theorem execPschEn_keeps (s : State) (hk : Keeps fl s₀ s) :
    KeepsRes fl s₀ (execPschEn s) := by
  unfold execPschEn
  try dsimp only
  repeat' first
    | with_reducible first
      | apply KeepsRes.next | apply KeepsRes.ite
    | intro _
    | with_reducible first
      | assumption | apply State.flag_keeps
    | split

theorem apRead_keeps (i : Nat) (s : State) (hk : Keeps fl s₀ s) :
    Keeps fl s₀ (apRead i s) := by
  unfold apRead
  try dsimp only
  repeat' first
    | intro _
    | with_reducible first
      | assumption | apply Keeps.ite | apply apFault_keeps | apply State.setPoint_keeps | apply report_keeps
      | apply State.flag_keeps | apply State.put_keeps | fail_if_no_progress refine Keeps.upd ?_
    | split

theorem apCommitPoint_keeps (s : State) (hk : Keeps fl s₀ s) :
    Keeps fl s₀ (apCommitPoint s) := by
  unfold apCommitPoint
  try dsimp only
  repeat' first
    | intro _
    | with_reducible first
      | assumption | apply apRead_keeps | apply forEach_keeps | fail_if_no_progress refine Keeps.upd ?_
    | split

theorem apAdopt_keeps (i : Nat) (s : State) (hk : Keeps fl s₀ s) :
    Keeps fl s₀ (apAdopt i s) := by
  unfold apAdopt
  try dsimp only
  repeat' first
    | intro _
    | with_reducible first
      | assumption | apply Keeps.ite | apply rearmLines_keeps | apply State.setPoint_keeps
      | fail_if_no_progress refine Keeps.upd ?_
    | refine Keeps.ofPair (by assumption) ?_ | split

theorem apFallbackT0_keeps (i : Nat) (s : State) (hk : Keeps fl s₀ s) :
    Keeps fl s₀ (apFallbackT0 i s) := by
  unfold apFallbackT0
  try dsimp only
  repeat' first
    | intro _
    | with_reducible first
      | assumption | apply Keeps.ite | apply State.setPoint_keeps | fail_if_no_progress refine Keeps.upd ?_
    | split

theorem pschT0_keeps (s : State) (hk : Keeps fl s₀ s) :
    Keeps fl s₀ (pschT0 s) := by
  unfold pschT0
  try dsimp only
  repeat' first
    | intro _
    | with_reducible first
      | assumption | apply apFallbackT0_keeps | apply apAdopt_keeps | apply forEach_keeps | apply State.put_keeps
      | fail_if_no_progress refine Keeps.upd ?_
    | split

theorem apWriteBack_keeps (s : State) (hk : Keeps fl s₀ s) :
    Keeps fl s₀ (apWriteBack s) := by
  unfold apWriteBack
  try dsimp only
  repeat' first
    | intro _
    | with_reducible first
      | assumption | apply Keeps.ite | apply overN_keeps | apply State.setWords_keeps
    | split

theorem State.setCovPoint_keeps (s : State) (i : Nat) (x : CovPoint) (hk : Keeps fl s₀ s) :
    Keeps fl s₀ (State.setCovPoint s i x) := by
  unfold State.setCovPoint
  try dsimp only
  repeat' first
    | intro _
    | with_reducible first
      | assumption | fail_if_no_progress refine Keeps.upd ?_
    | split

theorem noteOpen_keeps (i : Nat) (s : State) (hk : Keeps fl s₀ s) :
    Keeps fl s₀ (noteOpen i s) := by
  unfold noteOpen
  try dsimp only
  repeat' first
    | intro _
    | with_reducible first
      | assumption | apply Keeps.ite | apply State.setCovPoint_keeps | fail_if_no_progress refine Keeps.upd ?_
    | split

theorem noteOpens_keeps (s : State) (hk : Keeps fl s₀ s) :
    Keeps fl s₀ (noteOpens s) := by
  unfold noteOpens
  try dsimp only
  repeat' first
    | intro _
    | with_reducible first
      | assumption | apply noteOpen_keeps | apply forEach_keeps
    | split

theorem tickRec_keeps (t i : Nat) (s : State) (hk : Keeps fl s₀ s) :
    Keeps fl s₀ (tickRec t i s) := by
  unfold tickRec
  try dsimp only
  repeat' first
    | intro _
    | with_reducible first
      | assumption | apply Keeps.ite | apply State.setCovPoint_keeps | fail_if_no_progress refine Keeps.upd ?_
    | split

theorem covTick_keeps (t : Nat) (s : State) (hk : Keeps fl s₀ s) :
    Keeps fl s₀ (covTick t s) := by
  unfold covTick
  try dsimp only
  repeat' first
    | intro _
    | with_reducible first
      | assumption | apply Keeps.ite | apply tickRec_keeps | apply noteOpens_keeps | apply forEach_keeps
      | fail_if_no_progress refine Keeps.upd ?_
    | split

theorem bumpCell_keeps (c : Nat × Nat) (s : State) (hk : Keeps fl s₀ s) :
    Keeps fl s₀ (bumpCell c s) := by
  unfold bumpCell
  try dsimp only
  repeat' first
    | intro _
    | with_reducible first
      | assumption | apply Keeps.ite | apply setCell_keeps | apply covLost_keeps | apply report_keeps
      | fail_if_no_progress refine Keeps.upd ?_
    | refine Keeps.ofPair (by assumption) ?_ | split

theorem offGridNow_keeps (i : Nat) (off : Bool) (s : State) (hk : Keeps fl s₀ s) :
    Keeps fl s₀ (offGridNow i off s) := by
  unfold offGridNow
  try dsimp only
  repeat' first
    | intro _
    | with_reducible first
      | assumption | apply Keeps.ite | apply State.setCovPoint_keeps | apply report_keeps
      | fail_if_no_progress refine Keeps.upd ?_
    | split

theorem paintPoint_keeps (i : Nat) (s : State) (hk : Keeps fl s₀ s) :
    Keeps fl s₀ (paintPoint i s) := by
  unfold paintPoint
  try dsimp only
  repeat' first
    | intro _
    | with_reducible first
      | assumption | apply Keeps.ite | apply offGridNow_keeps | apply bumpCell_keeps | apply State.setCovPoint_keeps
      | apply report_keeps | apply forEach_keeps | fail_if_no_progress refine Keeps.upd ?_
    | split

theorem paintPhase_keeps (s : State) (hk : Keeps fl s₀ s) :
    Keeps fl s₀ (paintPhase s) := by
  unfold paintPhase
  try dsimp only
  repeat' first
    | intro _
    | with_reducible first
      | assumption | apply paintPoint_keeps | apply State.setCovPoint_keeps | apply forEach_keeps
      | fail_if_no_progress refine Keeps.upd ?_
    | split

theorem covCancel_keeps (i : Nat) (s : State) (hk : Keeps fl s₀ s) :
    Keeps fl s₀ (covCancel i s) := by
  unfold covCancel
  try dsimp only
  repeat' first
    | intro _
    | with_reducible first
      | assumption | apply Keeps.ite | apply State.setEvent_keeps | fail_if_no_progress refine Keeps.upd ?_
    | refine Keeps.ofPair (by assumption) ?_ | split

theorem covCancelAll_keeps (s : State) (hk : Keeps fl s₀ s) :
    Keeps fl s₀ (covCancelAll s) := by
  unfold covCancelAll
  try dsimp only
  repeat' first
    | intro _
    | with_reducible first
      | assumption | fail_if_no_progress refine Keeps.upd ?_
    | split

theorem covPost_keeps (i : Nat) (opens : Bool) (tag target : Nat) (s : State) (hk : Keeps fl s₀ s) :
    Keeps fl s₀ (covPost i opens tag target s) := by
  unfold covPost
  try dsimp only
  repeat' first
    | intro _
    | with_reducible first
      | assumption | apply Keeps.ite | apply State.setEvent_keeps | apply report_keeps | fail_if_no_progress refine Keeps.upd ?_
    | refine Keeps.ofPair (by assumption) ?_ | split

theorem autoPost_keeps (i : Nat) (x : Query) (s : State) (hk : Keeps fl s₀ s) :
    Keeps fl s₀ (autoPost i x s) := by
  unfold autoPost
  try dsimp only
  repeat' first
    | intro _
    | with_reducible first
      | assumption | apply Keeps.ite | apply covPost_keeps | apply covCancel_keeps | fail_if_no_progress refine Keeps.upd ?_
    | refine Keeps.ofPair (by assumption) ?_ | split

theorem youngTiles_keeps (keys : List Nat) (s : State) (hk : Keeps fl s₀ s) :
    Keeps fl s₀ (youngTiles keys s) := by
  unfold youngTiles
  try dsimp only
  repeat' first
    | intro _
    | with_reducible first
      | assumption | apply Keeps.ite | fail_if_no_progress refine Keeps.upd ?_
    | split

theorem loupePoint_keeps (m i : Nat) (s : State) (hk : Keeps fl s₀ s) :
    Keeps fl s₀ (loupePoint m i s) := by
  unfold loupePoint
  try dsimp only
  repeat' first
    | intro _
    | with_reducible first
      | assumption | apply Keeps.ite | apply youngTiles_keeps | apply autoPost_keeps | apply covCancel_keeps
      | apply offGridNow_keeps | apply State.setCovPoint_keeps | apply report_keeps | fail_if_no_progress refine Keeps.upd ?_
    | split

theorem loupePhase_keeps (m : Nat) (s : State) (hk : Keeps fl s₀ s) :
    Keeps fl s₀ (loupePhase m s) := by
  unfold loupePhase
  try dsimp only
  repeat' first
    | intro _
    | with_reducible first
      | assumption | apply loupePoint_keeps | apply forEach_keeps | fail_if_no_progress refine Keeps.upd ?_
    | split

theorem fillCells_keeps  (nn : Nat) (s : State) (hk : Keeps fl s₀ s) :
    Keeps fl s₀ (fillCells nn s) := by
  induction nn generalizing s with
  | zero => exact hk
  | succ nn ih =>
    unfold fillCells
    try dsimp only
    repeat' first
      | with_reducible first
        | assumption | apply Keeps.ite | apply setCell_keeps | fail_if_no_progress refine Keeps.upd ?_
      | refine Keeps.ofPair (by assumption) ?_ | split
      | with_reducible first
        | apply ih

theorem editDone_keeps (x : Edit) (s : State) (hk : Keeps fl s₀ s) :
    Keeps fl s₀ (editDone x s) := by
  unfold editDone
  try dsimp only
  repeat' first
    | intro _
    | with_reducible first
      | assumption | apply Keeps.ite | apply makeUniform_keeps | apply forEach_keeps | apply State.wrap_keeps
      | apply State.flag_keeps | fail_if_no_progress refine Keeps.upd ?_
    | split

theorem installTile_keeps (x : Edit) (s : State) (hk : Keeps fl s₀ s) :
    Keeps fl s₀ (installTile x s) := by
  unfold installTile
  try dsimp only
  repeat' first
    | intro _
    | with_reducible first
      | assumption | apply Keeps.ite | apply makeUniform_keeps | apply enterUniform_keeps | apply expandTile_keeps
      | apply covLost_keeps | apply State.setTile_keeps | apply overN_keeps | apply State.setBytes_keeps | apply State.put_keeps
      | fail_if_no_progress refine Keeps.upd ?_
    | refine Keeps.ofPair (by assumption) ?_ | split

theorem editPhase_keeps (s : State) (hk : Keeps fl s₀ s) :
    Keeps fl s₀ (editPhase s) := by
  unfold editPhase
  try dsimp only
  repeat' first
    | intro _
    | with_reducible first
      | assumption | apply Keeps.ite | apply installTile_keeps | apply editDone_keeps | apply fillCells_keeps
      | fail_if_no_progress refine Keeps.upd ?_
    | refine Keeps.ofPair (by assumption) ?_ | split

theorem editCmd_keeps (op layer value : Nat) (s : State) (hk : Keeps fl s₀ s) :
    Keeps fl s₀ (editCmd op layer value s) := by
  unfold editCmd
  try dsimp only
  repeat' first
    | intro _
    | with_reducible first
      | assumption | apply Keeps.ite | apply report_keeps | apply State.flag_keeps | fail_if_no_progress refine Keeps.upd ?_
    | split

theorem execFill_keeps (layer : BitVec 2) (value : BitVec 8) (s : State) (hk : Keeps fl s₀ s) :
    KeepsRes fl s₀ (execFill layer value s) := by
  unfold execFill
  try dsimp only
  repeat' first
    | with_reducible first
      | apply KeepsRes.next | apply KeepsRes.ite
    | intro _
    | with_reducible first
      | assumption | apply editCmd_keeps
    | split

theorem execInstall_keeps (layer : BitVec 2) (s : State) (hk : Keeps fl s₀ s) :
    KeepsRes fl s₀ (execInstall layer s) := by
  unfold execInstall
  try dsimp only
  repeat' first
    | with_reducible first
      | apply KeepsRes.next | apply KeepsRes.ite
    | intro _
    | with_reducible first
      | assumption | apply editCmd_keeps
    | split

theorem covSuspend_keeps (s : State) (hk : Keeps fl s₀ s) :
    Keeps fl s₀ (covSuspend s) := by
  unfold covSuspend
  try dsimp only
  repeat' first
    | intro _
    | with_reducible first
      | assumption | apply Keeps.ite | apply covCancelAll_keeps | apply report_keeps | apply State.put_keeps
      | fail_if_no_progress refine Keeps.upd ?_
    | split

theorem covResume_keeps (s : State) (hk : Keeps fl s₀ s) :
    Keeps fl s₀ (covResume s) := by
  unfold covResume
  try dsimp only
  repeat' first
    | intro _
    | with_reducible first
      | assumption | apply Keeps.ite | apply State.put_keeps | fail_if_no_progress refine Keeps.upd ?_
    | split

theorem pageRequests_keeps (s : State) (hk : Keeps fl s₀ s) :
    Keeps fl s₀ (pageRequests s) := by
  unfold pageRequests
  try dsimp only
  repeat' first
    | intro _
    | with_reducible first
      | assumption | apply Keeps.ite | apply mntRequest_keeps | apply forEach_keeps | fail_if_no_progress refine Keeps.upd ?_
    | split

theorem evictPhase_keeps  (nn : Nat) (s : State) (hk : Keeps fl s₀ s) :
    Keeps fl s₀ (evictPhase nn s) := by
  induction nn generalizing s with
  | zero => exact hk
  | succ nn ih =>
    unfold evictPhase
    try dsimp only
    repeat' first
      | with_reducible first
        | assumption | apply Keeps.ite | apply writeBack_keeps | apply State.setTile_keeps
        | fail_if_no_progress refine Keeps.upd ?_
      | refine Keeps.ofPair (by assumption) ?_ | split
      | with_reducible first
        | apply ih

theorem ageTiles_keeps (s : State) (hk : Keeps fl s₀ s) :
    Keeps fl s₀ (ageTiles s) := by
  unfold ageTiles
  try dsimp only
  repeat' first
    | intro _
    | with_reducible first
      | assumption | fail_if_no_progress refine Keeps.upd ?_
    | split

theorem covCycle_keeps (t us : Nat) (s : State) (hk : Keeps fl s₀ s) :
    Keeps fl s₀ (covCycle t us s) := by
  unfold covCycle
  try dsimp only
  repeat' first
    | intro _
    | with_reducible first
      | assumption | apply Keeps.ite | apply ageTiles_keeps | apply evictPhase_keeps | apply pageRequests_keeps
      | apply covResume_keeps | apply covSuspend_keeps | apply editPhase_keeps | apply loupePhase_keeps | apply paintPhase_keeps
      | apply wordDamaged_keeps | apply covShow_keeps | apply forEach_keeps | apply State.put_keeps
      | fail_if_no_progress refine Keeps.upd ?_
    | split

theorem execCoverageCycle_keeps (t : Nat) (us : Nat) (s : State) (hk : Keeps fl s₀ s) :
    KeepsRes fl s₀ (execCoverageCycle t us s) := by
  unfold execCoverageCycle
  try dsimp only
  repeat' first
    | with_reducible first
      | apply KeepsRes.next | apply KeepsRes.ite
    | intro _
    | with_reducible first
      | assumption | apply Keeps.ite | apply covCycle_keeps | apply State.at_keeps | fail_if_no_progress refine Keeps.upd ?_
    | split

theorem execCycleOvr_keeps (t : Nat) (s : State) (hk : Keeps fl s₀ s) :
    KeepsRes fl s₀ (execCycleOvr t s) := by
  unfold execCycleOvr
  try dsimp only
  repeat' first
    | with_reducible first
      | apply KeepsRes.next | apply KeepsRes.ite
    | intro _
    | with_reducible first
      | assumption | apply Keeps.ite | apply report_keeps | apply State.at_keeps | fail_if_no_progress refine Keeps.upd ?_
    | split

theorem execCovEn_keeps (s : State) (hk : Keeps fl s₀ s) :
    KeepsRes fl s₀ (execCovEn s) := by
  unfold execCovEn
  try dsimp only
  repeat' first
    | with_reducible first
      | apply KeepsRes.next | apply KeepsRes.ite
    | intro _
    | with_reducible first
      | assumption | apply Keeps.ite | apply State.flag_keeps | apply State.put_keeps | fail_if_no_progress refine Keeps.upd ?_
    | split

theorem cmdRej_keeps (s : State) (hk : Keeps fl s₀ s) :
    Keeps fl s₀ (cmdRej s) := by
  unfold cmdRej
  try dsimp only
  repeat' first
    | intro _
    | with_reducible first
      | assumption | apply State.flag_keeps
    | split

theorem opening_keeps (id : Nat) (s : State) (hk : Keeps fl s₀ s) :
    Keeps fl s₀ (opening id s) := by
  unfold opening
  try dsimp only
  repeat' first
    | intro _
    | with_reducible first
      | assumption | apply State.put_keeps | fail_if_no_progress refine Keeps.upd ?_ | apply Keeps.same
    | split

theorem takeField_keeps (r : Rec) (s : State) (hk : Keeps fl s₀ s) :
    Keeps fl s₀ (takeField r s) := by
  unfold takeField
  try dsimp only
  repeat' first
    | intro _
    | with_reducible first
      | assumption | apply State.put_keeps | fail_if_no_progress refine Keeps.upd ?_
    | refine Keeps.ofPair (by assumption) ?_ | split

theorem execFieldOpen_keeps (id : BitVec 16) (s : State) (hk : Keeps fl s₀ s) :
    KeepsRes fl s₀ (execFieldOpen id s) := by
  unfold execFieldOpen
  try dsimp only
  repeat' first
    | with_reducible first
      | apply KeepsRes.next | apply KeepsRes.ite
    | intro _
    | with_reducible first
      | assumption | apply Keeps.ite | apply takeField_keeps | apply opening_keeps | apply cmdRej_keeps | apply covShow_keeps
      | apply appendRec_keeps | apply report_keeps | fail_if_no_progress refine Keeps.upd ?_
    | refine Keeps.ofPair (by assumption) ?_ | with_reducible apply Keeps.same | split

theorem execDirectoryRead_keeps (t : Nat) (s : State) (hk : Keeps fl s₀ s) :
    KeepsRes fl s₀ (execDirectoryRead t s) := by
  unfold execDirectoryRead
  try dsimp only
  repeat' first
    | with_reducible first
      | apply KeepsRes.next | apply KeepsRes.ite
    | intro _
    | with_reducible first
      | assumption | apply Keeps.ite | apply covShow_keeps | apply overN_keeps | apply State.at_keeps | apply State.put_keeps
      | fail_if_no_progress refine Keeps.upd ?_
    | split

theorem flushStart_keeps (s : State) (hk : Keeps fl s₀ s) :
    Keeps fl s₀ (flushStart s) := by
  unfold flushStart
  try dsimp only
  repeat' first
    | intro _
    | with_reducible first
      | assumption | apply State.flag_keeps | fail_if_no_progress refine Keeps.upd ?_
    | split

theorem execFieldClose_keeps (t : Nat) (s : State) (hk : Keeps fl s₀ s) :
    KeepsRes fl s₀ (execFieldClose t s) := by
  unfold execFieldClose
  try dsimp only
  repeat' first
    | with_reducible first
      | apply KeepsRes.next | apply KeepsRes.ite
    | intro _
    | with_reducible first
      | assumption | apply Keeps.ite | apply flushStart_keeps | apply cmdRej_keeps | apply covCancelAll_keeps
      | apply State.at_keeps | apply State.put_keeps | fail_if_no_progress refine Keeps.upd ?_
    | split

theorem execFieldFlush_keeps (t : Nat) (s : State) (hk : Keeps fl s₀ s) :
    KeepsRes fl s₀ (execFieldFlush t s) := by
  unfold execFieldFlush
  try dsimp only
  repeat' first
    | with_reducible first
      | apply KeepsRes.next | apply KeepsRes.ite
    | intro _
    | with_reducible first
      | assumption | apply Keeps.ite | apply flushStart_keeps | apply cmdRej_keeps | apply State.at_keeps
      | fail_if_no_progress refine Keeps.upd ?_
    | split

theorem dropResidents_keeps (lost : Bool) (s : State) (hk : Keeps fl s₀ s) :
    Keeps fl s₀ (dropResidents lost s) := by
  unfold dropResidents
  try dsimp only
  repeat' first
    | intro _
    | with_reducible first
      | assumption | apply Keeps.ite | apply Keeps.foldl | apply covShow_keeps | apply State.sat_keeps
      | fail_if_no_progress refine Keeps.upd ?_
    | refine Keeps.ofPair (by assumption) ?_ | split

theorem execFlushComplete_keeps (t : Nat) (s : State) (hk : Keeps fl s₀ s) :
    KeepsRes fl s₀ (execFlushComplete t s) := by
  unfold execFlushComplete
  try dsimp only
  repeat' first
    | with_reducible first
      | apply KeepsRes.next | apply KeepsRes.ite
    | intro _
    | with_reducible first
      | assumption | apply Keeps.ite | apply dropResidents_keeps | apply State.at_keeps | apply State.flag_keeps
      | apply State.put_keeps | fail_if_no_progress refine Keeps.upd ?_
    | split

theorem execFlushLate_keeps (t : Nat) (s : State) (hk : Keeps fl s₀ s) :
    KeepsRes fl s₀ (execFlushLate t s) := by
  unfold execFlushLate
  try dsimp only
  repeat' first
    | with_reducible first
      | apply KeepsRes.next | apply KeepsRes.ite
    | intro _
    | with_reducible first
      | assumption | apply Keeps.ite | apply report_keeps | apply State.at_keeps | fail_if_no_progress refine Keeps.upd ?_
    | split

theorem deleteTiles_keeps (id : Nat) (s : State) (hk : Keeps fl s₀ s) : Keeps fl s₀ (deleteTiles id s) := by
  unfold deleteTiles
  refine forEach_keeps _ _ _ (fun x s hs => ?_) hk
  split
  · exact freeBlocks_keeps _ _ (appendRec_keeps _ _ (nextSeq_keeps _ hs))
  · exact hs

theorem deleteField_keeps (id : Nat) (s : State) (hk : Keeps fl s₀ s) : Keeps fl s₀ (deleteField id s) := by
  unfold deleteField
  split
  · exact State.setWord_keeps _ _ _ hk
  · exact hk

theorem execFieldErase_keeps (id : BitVec 16) (s : State) (hk : Keeps fl s₀ s) :
    KeepsRes fl s₀ (execFieldErase id s) := by
  unfold execFieldErase
  try dsimp only
  repeat' first
    | with_reducible first
      | apply KeepsRes.next | apply KeepsRes.ite
    | intro _
    | with_reducible first
      | assumption | apply Keeps.ite | apply deleteField_keeps | apply deleteTiles_keeps | apply cmdRej_keeps
      | apply covShow_keeps | apply Keeps.same
    | split

theorem execWriteBackTile_keeps (e : Fin 1024) (t : Nat) (fail : Bool) (s : State) (hk : Keeps fl s₀ s) :
    KeepsRes fl s₀ (execWriteBackTile e t fail s) := by
  unfold execWriteBackTile
  try dsimp only
  repeat' first
    | with_reducible first
      | apply KeepsRes.next | apply KeepsRes.ite
    | intro _
    | with_reducible first
      | assumption | apply Keeps.ite | apply writeBack_keeps | apply covShow_keeps | apply State.at_keeps
      | fail_if_no_progress refine Keeps.upd ?_
    | refine Keeps.ofPair (by assumption) ?_ | split

theorem covFreeze_keeps (s : State) (hk : Keeps fl s₀ s) :
    Keeps fl s₀ (covFreeze s) := by
  unfold covFreeze
  try dsimp only
  repeat' first
    | intro _
    | with_reducible first
      | assumption | apply Keeps.ite | apply covCancelAll_keeps | apply State.put_keeps
      | fail_if_no_progress refine Keeps.upd ?_
    | split

theorem covThaw_keeps (s : State) (hk : Keeps fl s₀ s) :
    Keeps fl s₀ (covThaw s) := by
  unfold covThaw
  try dsimp only
  repeat' first
    | intro _
    | with_reducible first
      | assumption | apply Keeps.ite | apply State.put_keeps
    | split

theorem execPschTick_keeps (t : Nat) (s : State) (hk : Keeps fl s₀ s) :
    KeepsRes fl s₀ (execPschTick t s) := by
  unfold execPschTick
  try dsimp only
  repeat' first
    | with_reducible first
      | apply KeepsRes.next | apply KeepsRes.ite
    | intro _
    | with_reducible first
      | assumption | apply Keeps.ite | apply covTick_keeps | apply pschTick_keeps | apply State.at_keeps
      | fail_if_no_progress refine Keeps.upd ?_
    | split

theorem execEventFire_keeps (t : Nat) (s : State) (hk : Keeps fl s₀ s) :
    KeepsRes fl s₀ (execEventFire t s) := by
  unfold execEventFire
  try dsimp only
  repeat' first
    | with_reducible first
      | apply KeepsRes.next | apply KeepsRes.ite
    | intro _
    | with_reducible first
      | assumption | apply noteOpens_keeps | apply applyDue_keeps | apply fireDue_keeps | apply State.at_keeps
      | fail_if_no_progress refine Keeps.upd ?_
    | split

end Sys2Proof.Machine
end

