-- ==== Sys2Proof/Laws/OpsChan.lean ====
section
/-!
SUPPORT. Sys2Proof/Laws/OpsChan.lean: what each operation of the timers, the output channels, the lamp groups and the light field keeps (`Keeps` says what that is), one lemma for each
operation, so that no proof unfolds one to know that it leaves the queue, the identity or the canonical forms alone.
-/
namespace Sys2Proof.Machine
-- the small lemmas of this file one after another, each without a thread of its own
set_option Elab.async false
set_option linter.all false
variable {fl : Bool} {s₀ : State}

theorem tmrPost_keeps (c : Nat) (s : State) (hk : Keeps fl s₀ s) :
    Keeps fl s₀ (tmrPost c s) := by
  unfold tmrPost
  try dsimp only
  repeat' first
    | intro _
    | with_reducible first
      | assumption | apply Keeps.ite | fail_if_no_progress refine Keeps.upd ?_
    | split

theorem execTmrPost_keeps (c : Fin 32) (s : State) (hk : Keeps fl s₀ s) :
    KeepsRes fl s₀ (execTmrPost c s) := by
  unfold execTmrPost
  try dsimp only
  repeat' first
    | with_reducible first
      | apply KeepsRes.next | apply KeepsRes.ite
    | intro _
    | with_reducible first
      | assumption | apply tmrPost_keeps
    | split

theorem tmrRead_keeps (c : Nat) (s : State) (hk : Keeps fl s₀ s) :
    Keeps fl s₀ (tmrRead c s) := by
  unfold tmrRead
  try dsimp only
  repeat' first
    | intro _
    | with_reducible first
      | assumption | apply Keeps.ite | apply reportFull_keeps | apply State.setTmr_keeps | apply State.flag_keeps
      | apply State.put_keeps | fail_if_no_progress refine Keeps.upd ?_
    | split

theorem tmrCommitPoint_keeps (s : State) (hk : Keeps fl s₀ s) :
    Keeps fl s₀ (tmrCommitPoint s) := by
  unfold tmrCommitPoint
  try dsimp only
  repeat' first
    | intro _
    | with_reducible first
      | assumption | apply tmrRead_keeps | apply forEach_keeps | fail_if_no_progress refine Keeps.upd ?_
    | split

theorem tmrT0_keeps (t c : Nat) (s : State) (hk : Keeps fl s₀ s) :
    Keeps fl s₀ (tmrT0 t c s) := by
  unfold tmrT0
  try dsimp only
  repeat' first
    | intro _
    | with_reducible first
      | assumption | apply Keeps.ite | apply reportFull_keeps | apply State.setTmr_keeps
      | fail_if_no_progress refine Keeps.upd ?_
    | refine Keeps.ofPair (by assumption) ?_ | split

theorem tmrFrame_keeps (t : Nat) (s : State) (hk : Keeps fl s₀ s) :
    Keeps fl s₀ (tmrFrame t s) := by
  unfold tmrFrame
  try dsimp only
  repeat' first
    | intro _
    | with_reducible first
      | assumption | apply tmrT0_keeps | apply overN_keeps | fail_if_no_progress refine Keeps.upd ?_
    | split

theorem tmrWriteBack_keeps (s : State) (hk : Keeps fl s₀ s) :
    Keeps fl s₀ (tmrWriteBack s) := by
  unfold tmrWriteBack
  try dsimp only
  repeat' first
    | intro _
    | with_reducible first
      | assumption | apply Keeps.ite | apply forEach_keeps | apply State.setWords_keeps
    | split

theorem tmrClrCnt_keeps (c : Nat) (s : State) (hk : Keeps fl s₀ s) :
    Keeps fl s₀ (tmrClrCnt c s) := by
  unfold tmrClrCnt
  try dsimp only
  repeat' first
    | intro _
    | with_reducible first
      | assumption | apply tmrSync_keeps | apply State.setTmr_keeps | fail_if_no_progress refine Keeps.upd ?_
    | split

theorem execTmrClrCnt_keeps (c : Fin 32) (t : Nat) (s : State) (hk : Keeps fl s₀ s) :
    KeepsRes fl s₀ (execTmrClrCnt c t s) := by
  unfold execTmrClrCnt
  try dsimp only
  repeat' first
    | with_reducible first
      | apply KeepsRes.next | apply KeepsRes.ite
    | intro _
    | with_reducible first
      | assumption | apply tmrClrCnt_keeps | apply State.at_keeps
    | split

theorem tmrClrFlags_keeps (c : Nat) (s : State) (hk : Keeps fl s₀ s) :
    Keeps fl s₀ (tmrClrFlags c s) := by
  unfold tmrClrFlags
  try dsimp only
  repeat' first
    | intro _
    | with_reducible first
      | assumption | apply tmrSync_keeps | apply State.setTmr_keeps | fail_if_no_progress refine Keeps.upd ?_
    | split

theorem execTmrClrFlags_keeps (c : Fin 32) (s : State) (hk : Keeps fl s₀ s) :
    KeepsRes fl s₀ (execTmrClrFlags c s) := by
  unfold execTmrClrFlags
  try dsimp only
  repeat' first
    | with_reducible first
      | apply KeepsRes.next | apply KeepsRes.ite
    | intro _
    | with_reducible first
      | assumption | apply tmrClrFlags_keeps
    | split

theorem execTimerTick_keeps (c : Fin 32) (t : Nat) (s : State) (hk : Keeps fl s₀ s) :
    KeepsRes fl s₀ (execTimerTick c t s) := by
  unfold execTimerTick
  try dsimp only
  repeat' first
    | with_reducible first
      | apply KeepsRes.next | apply KeepsRes.ite
    | intro _
    | with_reducible first
      | assumption | apply Keeps.ite | apply tmrSync_keeps | apply State.at_keeps | fail_if_no_progress refine Keeps.upd ?_
    | split

theorem toWheels_keeps (c t : Nat) (s : State) (hk : Keeps fl s₀ s) :
    Keeps fl s₀ (toWheels c t s) := by
  unfold toWheels
  try dsimp only
  repeat' first
    | intro _
    | with_reducible first
      | assumption | apply Keeps.ite | apply overN_keeps | fail_if_no_progress refine Keeps.upd ?_
    | split

theorem tmrCapture_keeps (c t : Nat) (s : State) (hk : Keeps fl s₀ s) :
    Keeps fl s₀ (tmrCapture c t s) := by
  unfold tmrCapture
  try dsimp only
  repeat' first
    | intro _
    | with_reducible first
      | assumption | apply Keeps.ite | apply toWheels_keeps | apply reportFull_keeps | apply State.setTmr_keeps
      | fail_if_no_progress refine Keeps.upd ?_
    | split

theorem tmrEdge_keeps (c t : Nat) (up : Bool) (s : State) (hk : Keeps fl s₀ s) :
    Keeps fl s₀ (tmrEdge c t up s) := by
  unfold tmrEdge
  try dsimp only
  repeat' first
    | intro _
    | with_reducible first
      | assumption | apply Keeps.ite | apply tmrCapture_keeps | apply State.setTmr_keeps
      | fail_if_no_progress refine Keeps.upd ?_
    | split

theorem execFilteredEdge_keeps (c : Fin 32) (t : Nat) (lvl : Bool) (pins : BitVec 12) (s : State) (hk : Keeps fl s₀ s) :
    KeepsRes fl s₀ (execFilteredEdge c t lvl pins s) := by
  unfold execFilteredEdge
  try dsimp only
  repeat' first
    | with_reducible first
      | apply KeepsRes.next | apply KeepsRes.ite
    | intro _
    | with_reducible first
      | assumption | apply Keeps.ite | apply tmrEdge_keeps | apply tmrSync_keeps | apply State.at_keeps
      | fail_if_no_progress refine Keeps.upd ?_
    | split

theorem capLoRead_keeps (c : Nat) (s : State) (hk : Keeps fl s₀ s) :
    Keeps fl s₀ (capLoRead c s) := by
  unfold capLoRead
  try dsimp only
  repeat' first
    | intro _
    | with_reducible first
      | assumption | apply State.setTmr_keeps | fail_if_no_progress refine Keeps.upd ?_
    | split

theorem capHiRead_keeps (c : Nat) (s : State) (hk : Keeps fl s₀ s) :
    Keeps fl s₀ (capHiRead c s) := by
  unfold capHiRead
  try dsimp only
  repeat' first
    | intro _
    | with_reducible first
      | assumption | apply Keeps.ite | apply State.setTmr_keeps | fail_if_no_progress refine Keeps.upd ?_
    | refine Keeps.ofPair (by assumption) ?_ | split

theorem execCapLoRead_keeps (c : Fin 32) (t : Nat) (s : State) (hk : Keeps fl s₀ s) :
    KeepsRes fl s₀ (execCapLoRead c t s) := by
  unfold execCapLoRead
  try dsimp only
  repeat' first
    | with_reducible first
      | apply KeepsRes.next | apply KeepsRes.ite
    | intro _
    | with_reducible first
      | assumption | apply capLoRead_keeps | apply State.at_keeps
    | split

theorem execCapHiRead_keeps (c : Fin 32) (t : Nat) (s : State) (hk : Keeps fl s₀ s) :
    KeepsRes fl s₀ (execCapHiRead c t s) := by
  unfold execCapHiRead
  try dsimp only
  repeat' first
    | with_reducible first
      | apply KeepsRes.next | apply KeepsRes.ite
    | intro _
    | with_reducible first
      | assumption | apply capHiRead_keeps | apply State.at_keeps
    | split

theorem tmrWake_keeps (s : State) (hk : Keeps fl s₀ s) :
    Keeps fl s₀ (tmrWake s) := by
  unfold tmrWake
  try dsimp only
  repeat' first
    | intro _
    | with_reducible first
      | assumption | apply Keeps.ite | apply State.setTmr_keeps | apply overN_keeps | fail_if_no_progress refine Keeps.upd ?_
    | split

theorem swinSample_keeps (i : Nat) (closed oppose : Bool) (s : State) (hk : Keeps fl s₀ s) :
    Keeps fl s₀ (swinSample i closed oppose s) := by
  unfold swinSample
  try dsimp only
  repeat' first
    | intro _
    | with_reducible first
      | assumption | apply Keeps.ite | apply report_keeps | apply State.putBit_keeps | fail_if_no_progress refine Keeps.upd ?_
    | split

theorem execSwinScan_keeps (t : Nat) (closed oppose : BitVec 32) (s : State) (hk : Keeps fl s₀ s) :
    KeepsRes fl s₀ (execSwinScan t closed oppose s) := by
  unfold execSwinScan
  try dsimp only
  repeat' first
    | with_reducible first
      | apply KeepsRes.next | apply KeepsRes.ite
    | intro _
    | with_reducible first
      | assumption | apply Keeps.ite | apply swinSample_keeps | apply overN_keeps | apply State.at_keeps
      | fail_if_no_progress refine Keeps.upd ?_
    | split

theorem execAdcTrigger_keeps (t : Nat) (s : State) (hk : Keeps fl s₀ s) :
    KeepsRes fl s₀ (execAdcTrigger t s) := by
  unfold execAdcTrigger
  try dsimp only
  repeat' first
    | with_reducible first
      | apply KeepsRes.next | apply KeepsRes.ite
    | intro _
    | with_reducible first
      | assumption | apply Keeps.ite | apply report_keeps | apply State.at_keeps | apply State.wrap_keeps
      | apply State.flag_keeps | fail_if_no_progress refine Keeps.upd ?_
    | split

theorem execAdcScanComplete_keeps (t : Nat) (codes : List (BitVec 12)) (refOk : Bool) (s : State) (hk : Keeps fl s₀ s) :
    KeepsRes fl s₀ (execAdcScanComplete t codes refOk s) := by
  unfold execAdcScanComplete
  try dsimp only
  repeat' first
    | with_reducible first
      | apply KeepsRes.next | apply KeepsRes.ite
    | intro _
    | with_reducible first
      | assumption | apply Keeps.ite | apply report_keeps | apply forEach_keeps | apply State.at_keeps | apply State.wrap_keeps
      | apply State.flag_keeps | apply State.put_keeps | fail_if_no_progress refine Keeps.upd ?_
    | refine Keeps.ofPair (by assumption) ?_ | split

theorem fltEvent_keeps (i b : Nat) (s : State) (hk : Keeps fl s₀ s) :
    Keeps fl s₀ (fltEvent i b s) := by
  unfold fltEvent
  try dsimp only
  repeat' first
    | intro _
    | with_reducible first
      | assumption | apply Keeps.ite | apply reportFull_keeps | apply State.modChan_keeps | apply State.setChan_keeps
      | apply State.putBit_keeps | fail_if_no_progress refine Keeps.upd ?_
    | split

theorem settlePair_keeps (i : Nat) (s : State) (hk : Keeps fl s₀ s) :
    Keeps fl s₀ (settlePair i s) := by
  unfold settlePair
  try dsimp only
  repeat' first
    | intro _
    | with_reducible first
      | assumption | apply Keeps.ite | apply settle_keeps
    | split

theorem retryRule_keeps (i : Nat) (s : State) (hk : Keeps fl s₀ s) :
    Keeps fl s₀ (retryRule i s) := by
  unfold retryRule
  try dsimp only
  repeat' first
    | intro _
    | with_reducible first
      | assumption | apply Keeps.ite | apply fltEvent_keeps | apply State.setChan_keeps
      | fail_if_no_progress refine Keeps.upd ?_
    | split

theorem cutChan_keeps (i b : Nat) (s : State) (hk : Keeps fl s₀ s) :
    Keeps fl s₀ (cutChan i b s) := by
  unfold cutChan
  try dsimp only
  repeat' first
    | intro _
    | with_reducible first
      | assumption | apply retryRule_keeps | apply settlePair_keeps | apply fltEvent_keeps | apply turnOff_keeps
      | apply State.modChan_keeps | fail_if_no_progress refine Keeps.upd ?_
    | split

theorem execShort_keeps (i : Fin 152) (t : Nat) (s : State) (hk : Keeps fl s₀ s) :
    KeepsRes fl s₀ (execShort i t s) := by
  unfold execShort
  try dsimp only
  repeat' first
    | with_reducible first
      | apply KeepsRes.next | apply KeepsRes.ite
    | intro _
    | with_reducible first
      | assumption | apply Keeps.ite | apply cutChan_keeps | apply State.at_keeps | fail_if_no_progress refine Keeps.upd ?_
    | split

theorem execOvercur_keeps (i : Fin 152) (t : Nat) (a b c : Nat) (s : State) (hk : Keeps fl s₀ s) :
    KeepsRes fl s₀ (execOvercur i t a b c s) := by
  unfold execOvercur
  try dsimp only
  repeat' first
    | with_reducible first
      | apply KeepsRes.next | apply KeepsRes.ite
    | intro _
    | with_reducible first
      | assumption | apply Keeps.ite | apply cutChan_keeps | apply State.at_keeps | fail_if_no_progress refine Keeps.upd ?_
    | split

theorem execInrushWindowEnd_keeps (i : Fin 152) (t : Nat) (s : State) (hk : Keeps fl s₀ s) :
    KeepsRes fl s₀ (execInrushWindowEnd i t s) := by
  unfold execInrushWindowEnd
  try dsimp only
  repeat' first
    | with_reducible first
      | apply KeepsRes.next | apply KeepsRes.ite
    | intro _
    | with_reducible first
      | assumption | apply Keeps.ite | apply State.setChan_keeps | apply State.at_keeps
      | fail_if_no_progress refine Keeps.upd ?_
    | refine Keeps.ofPair (by assumption) ?_ | split

theorem execGroupDroop_keeps (g : Fin 8) (t : Nat) (s : State) (hk : Keeps fl s₀ s) :
    KeepsRes fl s₀ (execGroupDroop g t s) := by
  unfold execGroupDroop
  try dsimp only
  repeat' first
    | with_reducible first
      | apply KeepsRes.next | apply KeepsRes.ite
    | intro _
    | with_reducible first
      | assumption | apply Keeps.ite | apply forEach_keeps | apply State.setGrp_keeps | apply State.modChan_keeps
      | apply State.at_keeps | apply State.wrap_keeps | fail_if_no_progress refine Keeps.upd ?_
    | split

theorem execDroopRelease_keeps (g : Fin 8) (t : Nat) (s : State) (hk : Keeps fl s₀ s) :
    KeepsRes fl s₀ (execDroopRelease g t s) := by
  unfold execDroopRelease
  try dsimp only
  repeat' first
    | with_reducible first
      | apply KeepsRes.next | apply KeepsRes.ite
    | intro _
    | with_reducible first
      | assumption | apply Keeps.ite | apply forEach_keeps | apply State.setGrp_keeps | apply State.modChan_keeps
      | apply State.at_keeps | fail_if_no_progress refine Keeps.upd ?_
    | refine Keeps.ofPair (by assumption) ?_ | split

theorem thermalLatch_keeps (i : Nat) (s : State) (hk : Keeps fl s₀ s) :
    Keeps fl s₀ (thermalLatch i s) := by
  unfold thermalLatch
  try dsimp only
  repeat' first
    | intro _
    | with_reducible first
      | assumption | apply settlePair_keeps | apply fltEvent_keeps | apply State.setChan_keeps
      | fail_if_no_progress refine Keeps.upd ?_
    | split

theorem thermalFree_keeps (i : Nat) (s : State) (hk : Keeps fl s₀ s) :
    Keeps fl s₀ (thermalFree i s) := by
  unfold thermalFree
  try dsimp only
  repeat' first
    | intro _
    | with_reducible first
      | assumption | apply settlePair_keeps | apply State.setChan_keeps | fail_if_no_progress refine Keeps.upd ?_
    | split

theorem execThermal_keeps (i : Fin 152) (t : Nat) (tj : Int) (s : State) (hk : Keeps fl s₀ s) :
    KeepsRes fl s₀ (execThermal i t tj s) := by
  unfold execThermal
  try dsimp only
  repeat' first
    | with_reducible first
      | apply KeepsRes.next | apply KeepsRes.ite
    | intro _
    | with_reducible first
      | assumption | apply Keeps.ite | apply thermalLatch_keeps | apply State.modChan_keeps | apply State.at_keeps
      | fail_if_no_progress refine Keeps.upd ?_
    | split

theorem execThermalRelease_keeps (i : Fin 152) (t : Nat) (tj : Int) (s : State) (hk : Keeps fl s₀ s) :
    KeepsRes fl s₀ (execThermalRelease i t tj s) := by
  unfold execThermalRelease
  try dsimp only
  repeat' first
    | with_reducible first
      | apply KeepsRes.next | apply KeepsRes.ite
    | intro _
    | with_reducible first
      | assumption | apply Keeps.ite | apply thermalFree_keeps | apply State.modChan_keeps | apply State.at_keeps
      | fail_if_no_progress refine Keeps.upd ?_
    | split

theorem execRetryWaitEnd_keeps (i : Fin 152) (t : Nat) (s : State) (hk : Keeps fl s₀ s) :
    KeepsRes fl s₀ (execRetryWaitEnd i t s) := by
  unfold execRetryWaitEnd
  try dsimp only
  repeat' first
    | with_reducible first
      | apply KeepsRes.next | apply KeepsRes.ite
    | intro _
    | with_reducible first
      | assumption | apply Keeps.ite | apply settlePair_keeps | apply State.setChan_keeps | apply State.at_keeps
      | fail_if_no_progress refine Keeps.upd ?_
    | refine Keeps.ofPair (by assumption) ?_ | split

theorem execRetryCntReset_keeps (i : Fin 152) (t : Nat) (s : State) (hk : Keeps fl s₀ s) :
    KeepsRes fl s₀ (execRetryCntReset i t s) := by
  unfold execRetryCntReset
  try dsimp only
  repeat' first
    | with_reducible first
      | apply KeepsRes.next | apply KeepsRes.ite
    | intro _
    | with_reducible first
      | assumption | apply Keeps.ite | apply State.setChan_keeps | apply State.at_keeps
      | fail_if_no_progress refine Keeps.upd ?_
    | refine Keeps.ofPair (by assumption) ?_ | split

theorem execReversalBrakeEnd_keeps (b : Fin 4) (t : Nat) (s : State) (hk : Keeps fl s₀ s) :
    KeepsRes fl s₀ (execReversalBrakeEnd b t s) := by
  unfold execReversalBrakeEnd
  try dsimp only
  repeat' first
    | with_reducible first
      | apply KeepsRes.next | apply KeepsRes.ite
    | intro _
    | with_reducible first
      | assumption | apply Keeps.ite | apply State.setChan_keeps | apply State.at_keeps
      | fail_if_no_progress refine Keeps.upd ?_
    | refine Keeps.ofPair (by assumption) ?_ | split

theorem execUvHold_keeps (g : Fin 8) (t : Nat) (s : State) (hk : Keeps fl s₀ s) :
    KeepsRes fl s₀ (execUvHold g t s) := by
  unfold execUvHold
  try dsimp only
  repeat' first
    | with_reducible first
      | apply KeepsRes.next | apply KeepsRes.ite
    | intro _
    | with_reducible first
      | assumption | apply Keeps.ite | apply fltEvent_keeps | apply report_keeps | apply settle_keeps | apply forEach_keeps
      | apply State.setGrp_keeps | apply State.at_keeps | fail_if_no_progress refine Keeps.upd ?_
    | split

theorem execUvRelease_keeps (g : Fin 8) (t : Nat) (s : State) (hk : Keeps fl s₀ s) :
    KeepsRes fl s₀ (execUvRelease g t s) := by
  unfold execUvRelease
  try dsimp only
  repeat' first
    | with_reducible first
      | apply KeepsRes.next | apply KeepsRes.ite
    | intro _
    | with_reducible first
      | assumption | apply Keeps.ite | apply settle_keeps | apply forEach_keeps | apply State.setGrp_keeps
      | apply State.modChan_keeps | apply State.at_keeps | fail_if_no_progress refine Keeps.upd ?_
    | split

theorem execOpenOn_keeps (i : Fin 152) (t : Nat) (mA : Nat) (s : State) (hk : Keeps fl s₀ s) :
    KeepsRes fl s₀ (execOpenOn i t mA s) := by
  unfold execOpenOn
  try dsimp only
  repeat' first
    | with_reducible first
      | apply KeepsRes.next | apply KeepsRes.ite
    | intro _
    | with_reducible first
      | assumption | apply Keeps.ite | apply fltEvent_keeps | apply State.at_keeps | fail_if_no_progress refine Keeps.upd ?_
    | split

theorem execStuckOff_keeps (i : Fin 152) (t : Nat) (mA : Nat) (s : State) (hk : Keeps fl s₀ s) :
    KeepsRes fl s₀ (execStuckOff i t mA s) := by
  unfold execStuckOff
  try dsimp only
  repeat' first
    | with_reducible first
      | apply KeepsRes.next | apply KeepsRes.ite
    | intro _
    | with_reducible first
      | assumption | apply Keeps.ite | apply fltEvent_keeps | apply State.at_keeps | fail_if_no_progress refine Keeps.upd ?_
    | split

theorem execStuckOn_keeps (i : Fin 152) (t : Nat) (mA : Nat) (s : State) (hk : Keeps fl s₀ s) :
    KeepsRes fl s₀ (execStuckOn i t mA s) := by
  unfold execStuckOn
  try dsimp only
  repeat' first
    | with_reducible first
      | apply KeepsRes.next | apply KeepsRes.ite
    | intro _
    | with_reducible first
      | assumption | apply Keeps.ite | apply fltEvent_keeps | apply State.at_keeps | fail_if_no_progress refine Keeps.upd ?_
    | split

theorem execBridgeStall_keeps (b : Fin 4) (t : Nat) (s : State) (hk : Keeps fl s₀ s) :
    KeepsRes fl s₀ (execBridgeStall b t s) := by
  unfold execBridgeStall
  try dsimp only
  repeat' first
    | with_reducible first
      | apply KeepsRes.next | apply KeepsRes.ite
    | intro _
    | with_reducible first
      | assumption | apply Keeps.ite | apply fltEvent_keeps | apply State.setChan_keeps | apply State.at_keeps
      | fail_if_no_progress refine Keeps.upd ?_
    | split

theorem passSignature_keeps (ch : Nat) (opening : Bool) (raw : Option Nat) (s : State) (hk : Keeps fl s₀ s) :
    Keeps fl s₀ (passSignature ch opening raw s) := by
  unfold passSignature
  try dsimp only
  repeat' first
    | intro _
    | with_reducible first
      | assumption | apply opening_keeps | fail_if_no_progress refine Keeps.upd ?_
    | split

theorem closingSignature_keeps (i : Nat) (s : State) (hk : Keeps fl s₀ s) :
    Keeps fl s₀ (closingSignature i s) := by
  unfold closingSignature
  try dsimp only
  repeat' first
    | intro _
    | with_reducible first
      | assumption | apply passSignature_keeps | apply State.setChan_keeps | fail_if_no_progress refine Keeps.upd ?_
    | refine Keeps.ofPair (by assumption) ?_ | split

theorem execDemagEnd_keeps (i : Fin 152) (t : Nat) (plateau : Option Nat) (s : State) (hk : Keeps fl s₀ s) :
    KeepsRes fl s₀ (execDemagEnd i t plateau s) := by
  unfold execDemagEnd
  try dsimp only
  repeat' first
    | with_reducible first
      | apply KeepsRes.next | apply KeepsRes.ite
    | intro _
    | with_reducible first
      | assumption | apply Keeps.ite | apply closingSignature_keeps | apply fltEvent_keeps | apply State.setChan_keeps
      | apply State.at_keeps | fail_if_no_progress refine Keeps.upd ?_
    | refine Keeps.ofPair (by assumption) ?_ | split

theorem twice_keeps (i b n : Nat) (s : State) (hk : Keeps fl s₀ s) :
    Keeps fl s₀ (twice i b n s) := by
  unfold twice
  try dsimp only
  repeat' first
    | intro _
    | with_reducible first
      | assumption | apply Keeps.ite | apply fltEvent_keeps
    | split

theorem execOffWindow_keeps (i : Fin 152) (t : Nat) (down up : Bool) (s : State) (hk : Keeps fl s₀ s) :
    KeepsRes fl s₀ (execOffWindow i t down up s) := by
  unfold execOffWindow
  try dsimp only
  repeat' first
    | with_reducible first
      | apply KeepsRes.next | apply KeepsRes.ite
    | intro _
    | with_reducible first
      | assumption | apply Keeps.ite | apply twice_keeps | apply State.setChan_keeps | apply State.at_keeps
      | fail_if_no_progress refine Keeps.upd ?_
    | refine Keeps.ofPair (by assumption) ?_ | split

theorem execRipple_keeps (b : Fin 4) (t : Nat) (s : State) (hk : Keeps fl s₀ s) :
    KeepsRes fl s₀ (execRipple b t s) := by
  unfold execRipple
  try dsimp only
  repeat' first
    | with_reducible first
      | apply KeepsRes.next | apply KeepsRes.ite
    | intro _
    | with_reducible first
      | assumption | apply Keeps.ite | apply State.setChan_keeps | apply State.at_keeps
      | fail_if_no_progress refine Keeps.upd ?_
    | refine Keeps.ofPair (by assumption) ?_ | split

theorem execPullInDip_keeps (i : Fin 136) (t : Nat) (s : State) (hk : Keeps fl s₀ s) :
    KeepsRes fl s₀ (execPullInDip i t s) := by
  unfold execPullInDip
  try dsimp only
  repeat' first
    | with_reducible first
      | apply KeepsRes.next | apply KeepsRes.ite
    | intro _
    | with_reducible first
      | assumption | apply passSignature_keeps | apply State.setChan_keeps | apply State.at_keeps
      | fail_if_no_progress refine Keeps.upd ?_
    | refine Keeps.ofPair (by assumption) ?_ | split

theorem execSignatureTimeout_keeps (i : Fin 136) (opening : Bool) (t : Nat) (s : State) (hk : Keeps fl s₀ s) :
    KeepsRes fl s₀ (execSignatureTimeout i opening t s) := by
  unfold execSignatureTimeout
  try dsimp only
  repeat' first
    | with_reducible first
      | apply KeepsRes.next | apply KeepsRes.ite
    | intro _
    | with_reducible first
      | assumption | apply Keeps.ite | apply passSignature_keeps | apply opening_keeps | apply State.setChan_keeps
      | apply State.at_keeps | fail_if_no_progress refine Keeps.upd ?_
    | refine Keeps.ofPair (by assumption) ?_ | split

theorem takeHold_keeps (i : Nat) (h : Hold) (s : State) (hk : Keeps fl s₀ s) :
    Keeps fl s₀ (takeHold i h s) := by
  unfold takeHold
  try dsimp only
  repeat' first
    | intro _
    | with_reducible first
      | assumption | apply settlePair_keeps | apply fltEvent_keeps | apply State.modChan_keeps
      | fail_if_no_progress refine Keeps.upd ?_
    | split

theorem execTlHold_keeps (i : Fin 152) (t : Nat) (energy : Nat) (s : State) (hk : Keeps fl s₀ s) :
    KeepsRes fl s₀ (execTlHold i t energy s) := by
  unfold execTlHold
  try dsimp only
  repeat' first
    | with_reducible first
      | apply KeepsRes.next | apply KeepsRes.ite
    | intro _
    | with_reducible first
      | assumption | apply Keeps.ite | apply takeHold_keeps | apply State.at_keeps | fail_if_no_progress refine Keeps.upd ?_
    | refine Keeps.ofPair (by assumption) ?_ | split

theorem execTlHoldEnd_keeps (i : Fin 152) (t : Nat) (energy : Nat) (s : State) (hk : Keeps fl s₀ s) :
    KeepsRes fl s₀ (execTlHoldEnd i t energy s) := by
  unfold execTlHoldEnd
  try dsimp only
  repeat' first
    | with_reducible first
      | apply KeepsRes.next | apply KeepsRes.ite
    | intro _
    | with_reducible first
      | assumption | apply Keeps.ite | apply settlePair_keeps | apply State.setChan_keeps | apply State.at_keeps
      | fail_if_no_progress refine Keeps.upd ?_
    | refine Keeps.ofPair (by assumption) ?_ | split

theorem execPairGapEnd_keeps (i : Fin 152) (t : Nat) (s : State) (hk : Keeps fl s₀ s) :
    KeepsRes fl s₀ (execPairGapEnd i t s) := by
  unfold execPairGapEnd
  try dsimp only
  repeat' first
    | with_reducible first
      | apply KeepsRes.next | apply KeepsRes.ite
    | intro _
    | with_reducible first
      | assumption | apply Keeps.ite | apply settle_keeps | apply State.setChan_keeps | apply State.at_keeps
      | fail_if_no_progress refine Keeps.upd ?_
    | split

theorem execLimpInputChange_keeps (k : Fin 4) (n : Fin 8) (lvl : Bool) (t : Nat) (s : State) (hk : Keeps fl s₀ s) :
    KeepsRes fl s₀ (execLimpInputChange k n lvl t s) := by
  unfold execLimpInputChange
  try dsimp only
  repeat' first
    | with_reducible first
      | apply KeepsRes.next | apply KeepsRes.ite
    | intro _
    | with_reducible first
      | assumption | apply Keeps.ite | apply settleAll_keeps | apply State.modDie_keeps | apply State.at_keeps
      | apply State.putBit_keeps | fail_if_no_progress refine Keeps.upd ?_
    | split

theorem execLimpDiff_keeps (n : Fin 8) (t : Nat) (s : State) (hk : Keeps fl s₀ s) :
    KeepsRes fl s₀ (execLimpDiff n t s) := by
  unfold execLimpDiff
  try dsimp only
  repeat' first
    | with_reducible first
      | apply KeepsRes.next | apply KeepsRes.ite
    | intro _
    | with_reducible first
      | assumption | apply Keeps.ite | apply report_keeps | apply State.at_keeps | fail_if_no_progress refine Keeps.upd ?_
    | split

theorem setGate_keeps (g : Gate) (b : Bool) (s : State) (hk : Keeps fl s₀ s) :
    Keeps fl s₀ (setGate g b s) := by
  unfold setGate
  try dsimp only
  repeat' first
    | intro _
    | with_reducible first
      | assumption | apply setApply_keeps | apply setSafeHeld_keeps | apply gatesChanged_keeps
      | fail_if_no_progress refine Keeps.upd ?_
    | refine Keeps.ofPair (by assumption) ?_ | split

theorem execGateLineFall_keeps (g : Gate) (t : Nat) (s : State) (hk : Keeps fl s₀ s) :
    KeepsRes fl s₀ (execGateLineFall g t s) := by
  unfold execGateLineFall
  try dsimp only
  repeat' first
    | with_reducible first
      | apply KeepsRes.next | apply KeepsRes.ite
    | intro _
    | with_reducible first
      | assumption | apply setGate_keeps | apply State.at_keeps
    | split

theorem execGateLineRise_keeps (g : Gate) (t : Nat) (s : State) (hk : Keeps fl s₀ s) :
    KeepsRes fl s₀ (execGateLineRise g t s) := by
  unfold execGateLineRise
  try dsimp only
  repeat' first
    | with_reducible first
      | apply KeepsRes.next | apply KeepsRes.ite
    | intro _
    | with_reducible first
      | assumption | apply setGate_keeps | apply State.at_keeps
    | split

theorem execSerialWatchdogExpiry_keeps (k : Fin 4) (t : Nat) (s : State) (hk : Keeps fl s₀ s) :
    KeepsRes fl s₀ (execSerialWatchdogExpiry k t s) := by
  unfold execSerialWatchdogExpiry
  try dsimp only
  repeat' first
    | with_reducible first
      | apply KeepsRes.next | apply KeepsRes.ite
    | intro _
    | with_reducible first
      | assumption | apply Keeps.ite | apply report_keeps | apply dieBackstop_keeps | apply State.at_keeps
      | apply State.flag_keeps | fail_if_no_progress refine Keeps.upd ?_
    | split

theorem dieBoot_keeps (k : Nat) (s : State) (hk : Keeps fl s₀ s) :
    Keeps fl s₀ (dieBoot k s) := by
  unfold dieBoot
  try dsimp only
  repeat' first
    | intro _
    | with_reducible first
      | assumption | apply settle_keeps | apply forEach_keeps | apply State.setDie_keeps | apply State.setChan_keeps
      | apply State.put_keeps | fail_if_no_progress refine Keeps.upd ?_
    | split

theorem execDieLogicReset_keeps (k : Fin 4) (t : Nat) (s : State) (hk : Keeps fl s₀ s) :
    KeepsRes fl s₀ (execDieLogicReset k t s) := by
  unfold execDieLogicReset
  try dsimp only
  repeat' first
    | with_reducible first
      | apply KeepsRes.next | apply KeepsRes.ite
    | intro _
    | with_reducible first
      | assumption | apply dieBoot_keeps | apply State.at_keeps
    | split

theorem execDieHealth_keeps (k : Fin 4) (t : Nat) (cond : DieCond) (s : State) (hk : Keeps fl s₀ s) :
    KeepsRes fl s₀ (execDieHealth k t cond s) := by
  unfold execDieHealth
  try dsimp only
  repeat' first
    | with_reducible first
      | apply KeepsRes.next | apply KeepsRes.ite
    | intro _
    | with_reducible first
      | assumption | apply Keeps.ite | apply report_keeps | apply State.at_keeps | apply State.put_keeps
      | fail_if_no_progress refine Keeps.upd ?_
    | refine Keeps.ofPair (by assumption) ?_ | split

theorem dieArm_keeps (k : Nat) (s : State) (hk : Keeps fl s₀ s) :
    Keeps fl s₀ (dieArm k s) := by
  unfold dieArm
  try dsimp only
  repeat' first
    | intro _
    | with_reducible first
      | assumption | apply Keeps.ite | apply Keeps.foldl | apply settle_keeps | apply forEach_keeps | apply State.modDie_keeps
      | apply State.setChan_keeps | apply State.put_keeps | fail_if_no_progress refine Keeps.upd ?_
    | split

theorem dieResume_keeps (k : Nat) (s : State) (hk : Keeps fl s₀ s) :
    Keeps fl s₀ (dieResume k s) := by
  unfold dieResume
  try dsimp only
  repeat' first
    | intro _
    | with_reducible first
      | assumption | apply Keeps.ite | apply settle_keeps | apply forEach_keeps | apply State.modDie_keeps
      | apply State.setChan_keeps | apply State.put_keeps | fail_if_no_progress refine Keeps.upd ?_
    | split

theorem execBstop_keeps (k : Fin 4) (s : State) (hk : Keeps fl s₀ s) :
    KeepsRes fl s₀ (execBstop k s) := by
  unfold execBstop
  try dsimp only
  repeat' first
    | with_reducible first
      | apply KeepsRes.next | apply KeepsRes.ite
    | intro _
    | with_reducible first
      | assumption | apply State.modDie_keeps | fail_if_no_progress refine Keeps.upd ?_
    | split

theorem execResume_keeps (k : Fin 4) (s : State) (hk : Keeps fl s₀ s) :
    KeepsRes fl s₀ (execResume k s) := by
  unfold execResume
  try dsimp only
  repeat' first
    | with_reducible first
      | apply KeepsRes.next | apply KeepsRes.ite
    | intro _
    | with_reducible first
      | assumption | apply Keeps.ite | apply State.modDie_keeps | fail_if_no_progress refine Keeps.upd ?_
    | split

theorem clrTherm_keeps (i : Nat) (s : State) (hk : Keeps fl s₀ s) :
    Keeps fl s₀ (clrTherm i s) := by
  unfold clrTherm
  try dsimp only
  repeat' first
    | intro _
    | with_reducible first
      | assumption | apply Keeps.ite | apply thermalFree_keeps | fail_if_no_progress refine Keeps.upd ?_
    | split

theorem clrLatch_keeps (i : Nat) (s : State) (hk : Keeps fl s₀ s) :
    Keeps fl s₀ (clrLatch i s) := by
  unfold clrLatch
  try dsimp only
  repeat' first
    | intro _
    | with_reducible first
      | assumption | apply settlePair_keeps | apply State.setChan_keeps | fail_if_no_progress refine Keeps.upd ?_
    | split

theorem clrFlt_keeps (i : Nat) (s : State) (hk : Keeps fl s₀ s) :
    Keeps fl s₀ (clrFlt i s) := by
  unfold clrFlt
  try dsimp only
  repeat' first
    | intro _
    | with_reducible first
      | assumption | apply State.modChan_keeps | fail_if_no_progress refine Keeps.upd ?_
    | split

theorem chtClr_keeps (i : Nat) (f : Nat → State → State) (s : State) (hf : ∀ y s, Keeps fl s₀ s → Keeps fl s₀ (f y s)) (hk :
    Keeps fl s₀ s) :
    Keeps fl s₀ (chtClr i f s) := by
  unfold chtClr
  try dsimp only
  repeat' first
    | intro _
    | with_reducible first
      | assumption | apply Keeps.ite | apply State.flag_keeps | apply hf
    | split

theorem execTherm_keeps (i : BitVec 9) (s : State) (hk : Keeps fl s₀ s) :
    KeepsRes fl s₀ (execTherm i s) := by
  unfold execTherm
  try dsimp only
  repeat' first
    | with_reducible first
      | apply KeepsRes.next | apply KeepsRes.ite
    | intro _
    | with_reducible first
      | assumption | apply chtClr_keeps | apply clrTherm_keeps
    | split

theorem execLatchClr_keeps (i : BitVec 9) (s : State) (hk : Keeps fl s₀ s) :
    KeepsRes fl s₀ (execLatchClr i s) := by
  unfold execLatchClr
  try dsimp only
  repeat' first
    | with_reducible first
      | apply KeepsRes.next | apply KeepsRes.ite
    | intro _
    | with_reducible first
      | assumption | apply chtClr_keeps | apply clrLatch_keeps
    | split

theorem execFltClr_keeps (i : BitVec 9) (s : State) (hk : Keeps fl s₀ s) :
    KeepsRes fl s₀ (execFltClr i s) := by
  unfold execFltClr
  try dsimp only
  repeat' first
    | with_reducible first
      | apply KeepsRes.next | apply KeepsRes.ite
    | intro _
    | with_reducible first
      | assumption | apply chtClr_keeps | apply clrFlt_keeps
    | split

theorem execChtPost_keeps (i : BitVec 9) (s : State) (hk : Keeps fl s₀ s) :
    KeepsRes fl s₀ (execChtPost i s) := by
  unfold execChtPost
  try dsimp only
  repeat' first
    | with_reducible first
      | apply KeepsRes.next | apply KeepsRes.ite
    | intro _
    | with_reducible first
      | assumption | apply Keeps.ite | apply State.flag_keeps | fail_if_no_progress refine Keeps.upd ?_
    | split

theorem rejectPost_keeps (i : Nat) (s : State) (hk : Keeps fl s₀ s) :
    Keeps fl s₀ (rejectPost i s) := by
  unfold rejectPost
  try dsimp only
  repeat' first
    | intro _
    | with_reducible first
      | assumption | apply Keeps.ite | apply fltEvent_keeps | apply report_keeps | apply State.modChan_keeps
      | apply State.flag_keeps | apply State.put_keeps | fail_if_no_progress refine Keeps.upd ?_
    | split

theorem chtRead_keeps (posts : List Nat) (i : Nat) (s : State) (hk : Keeps fl s₀ s) :
    Keeps fl s₀ (chtRead posts i s) := by
  unfold chtRead
  try dsimp only
  repeat' first
    | intro _
    | with_reducible first
      | assumption | apply Keeps.ite | apply rejectPost_keeps | apply State.modChan_keeps
      | fail_if_no_progress refine Keeps.upd ?_
    | split

theorem chtCommitPoint_keeps (s : State) (hk : Keeps fl s₀ s) :
    Keeps fl s₀ (chtCommitPoint s) := by
  unfold chtCommitPoint
  try dsimp only
  repeat' first
    | intro _
    | with_reducible first
      | assumption | apply chtRead_keeps | apply forEach_keeps | fail_if_no_progress refine Keeps.upd ?_
    | split

theorem chtAdopt_keeps (i : Nat) (s : State) (hk : Keeps fl s₀ s) :
    Keeps fl s₀ (chtAdopt i s) := by
  unfold chtAdopt
  try dsimp only
  repeat' first
    | intro _
    | with_reducible first
      | assumption | apply Keeps.ite | apply settlePair_keeps | apply State.setChan_keeps
      | fail_if_no_progress refine Keeps.upd ?_
    | refine Keeps.ofPair (by assumption) ?_ | split

theorem pulseSlot_keeps (i n : Nat) (s : State) (hk : Keeps fl s₀ s) :
    Keeps fl s₀ (pulseSlot i n s) := by
  unfold pulseSlot
  try dsimp only
  repeat' first
    | intro _
    | with_reducible first
      | assumption | apply Keeps.ite | apply State.setChan_keeps | fail_if_no_progress refine Keeps.upd ?_
    | split

theorem applyDecision_keeps (d : Decision) (s : State) (hk : Keeps fl s₀ s) :
    Keeps fl s₀ (applyDecision d s) := by
  unfold applyDecision
  try dsimp only
  repeat' first
    | intro _
    | with_reducible first
      | assumption | apply Keeps.ite | apply fltEvent_keeps | apply setOut_keeps | apply State.setChan_keeps
      | fail_if_no_progress refine Keeps.upd ?_
    | split

theorem applyBits_keeps (l : List Nat) (n : Nat) (s : State) (hk : Keeps fl s₀ s) :
    Keeps fl s₀ (applyBits l n s) := by
  unfold applyBits
  try dsimp only
  repeat' first
    | intro _
    | with_reducible first
      | assumption | apply applyDecision_keeps | apply forEach_keeps
    | split

theorem loadTl_keeps (k : Nat) (l : List Byte) (s : State) (hk : Keeps fl s₀ s) :
    Keeps fl s₀ (loadTl k l s) := by
  unfold loadTl
  try dsimp only
  repeat' first
    | intro _
    | with_reducible first
      | assumption | apply overN_keeps | fail_if_no_progress refine Keeps.upd ?_
    | split

theorem armIfLoaded_keeps (k : Nat) (s : State) (hk : Keeps fl s₀ s) :
    Keeps fl s₀ (armIfLoaded k s) := by
  unfold armIfLoaded
  try dsimp only
  repeat' first
    | intro _
    | with_reducible first
      | assumption | apply Keeps.ite | apply loadTl_keeps | apply dieArm_keeps
    | split

theorem bankSwap_keeps (k : Nat) (s : State) (hk : Keeps fl s₀ s) :
    Keeps fl s₀ (bankSwap k s) := by
  unfold bankSwap
  try dsimp only
  repeat' first
    | intro _
    | with_reducible first
      | assumption | apply Keeps.ite | apply settleAll_keeps | apply forEach_keeps | apply State.modDie_keeps
      | apply State.putBit_keeps | apply State.put_keeps | fail_if_no_progress refine Keeps.upd ?_
    | split

theorem dieGood_keeps (k live : Nat) (s : State) (hk : Keeps fl s₀ s) :
    Keeps fl s₀ (dieGood k live s) := by
  unfold dieGood
  try dsimp only
  repeat' first
    | intro _
    | with_reducible first
      | assumption | apply Keeps.ite | apply State.modDie_keeps | fail_if_no_progress refine Keeps.upd ?_
    | split

theorem dieBad_keeps (k : Nat) (s : State) (hk : Keeps fl s₀ s) :
    Keeps fl s₀ (dieBad k s) := by
  unfold dieBad
  try dsimp only
  repeat' first
    | intro _
    | with_reducible first
      | assumption | apply Keeps.ite | apply report_keeps | apply State.modDie_keeps | apply State.wrap_keeps
      | fail_if_no_progress refine Keeps.upd ?_
    | split

theorem dieLatch_keeps (k n : Nat) (bad : Bool) (s : State) (hk : Keeps fl s₀ s) :
    Keeps fl s₀ (dieLatch k n bad s) := by
  unfold dieLatch
  try dsimp only
  repeat' first
    | intro _
    | with_reducible first
      | assumption | apply Keeps.ite | apply dieBad_keeps | apply dieGood_keeps | apply bankSwap_keeps | apply armIfLoaded_keeps
      | apply applyBits_keeps | fail_if_no_progress refine Keeps.upd ?_
    | split

theorem returnCheck_keeps (k : Nat) (retBad : Bool) (s : State) (hk : Keeps fl s₀ s) :
    Keeps fl s₀ (returnCheck k retBad s) := by
  unfold returnCheck
  try dsimp only
  repeat' first
    | intro _
    | with_reducible first
      | assumption | apply Keeps.ite | apply report_keeps | apply State.modDie_keeps | apply State.wrap_keeps
      | apply State.putBit_keeps | apply State.flag_keeps | apply State.put_keeps | fail_if_no_progress refine Keeps.upd ?_
    | split

theorem headerCheck_keeps (ok : Bool) (s : State) (hk : Keeps fl s₀ s) :
    Keeps fl s₀ (headerCheck ok s) := by
  unfold headerCheck
  try dsimp only
  repeat' first
    | intro _
    | with_reducible first
      | assumption | apply Keeps.ite | apply report_keeps | apply State.wrap_keeps | fail_if_no_progress refine Keeps.upd ?_
    | split

theorem execChainLatch_keeps (t : Nat) (bad retBad : BitVec 4) (hdrOk : Bool) (s : State) (hk : Keeps fl s₀ s) :
    KeepsRes fl s₀ (execChainLatch t bad retBad hdrOk s) := by
  unfold execChainLatch
  try dsimp only
  repeat' first
    | with_reducible first
      | apply KeepsRes.next | apply KeepsRes.ite
    | intro _
    | with_reducible first
      | assumption | apply Keeps.ite | apply headerCheck_keeps | apply returnCheck_keeps | apply dieLatch_keeps
      | apply pulseSlot_keeps | apply forEach_keeps | apply overN_keeps | apply State.at_keeps | apply State.put_keeps
      | fail_if_no_progress refine Keeps.upd ?_
    | split

theorem loadBlock_keeps (k target block : Nat) (data : List Byte) (s : State) (hk : Keeps fl s₀ s) :
    Keeps fl s₀ (loadBlock k target block data s) := by
  unfold loadBlock
  try dsimp only
  repeat' first
    | intro _
    | with_reducible first
      | assumption | apply Keeps.ite | apply State.modDie_keeps | fail_if_no_progress refine Keeps.upd ?_
    | split

theorem endLoad_keeps (k crc : Nat) (ok : Bool) (s : State) (hk : Keeps fl s₀ s) :
    Keeps fl s₀ (endLoad k crc ok s) := by
  unfold endLoad
  try dsimp only
  repeat' first
    | intro _
    | with_reducible first
      | assumption | apply Keeps.ite | apply Keeps.foldl | apply report_keeps | apply State.setDie_keeps | apply State.put_keeps
      | fail_if_no_progress refine Keeps.upd ?_
    | split

theorem execConfigurationFrame_keeps (t : Nat) (k target : Fin 4) (block : Nat) (data : List (BitVec 8)) (ok : Bool) (s : State)
    (hk : Keeps fl s₀ s) :
    KeepsRes fl s₀ (execConfigurationFrame t k target block data ok s) := by
  unfold execConfigurationFrame
  try dsimp only
  repeat' first
    | with_reducible first
      | apply KeepsRes.next | apply KeepsRes.ite
    | intro _
    | with_reducible first
      | assumption | apply Keeps.ite | apply endLoad_keeps | apply loadBlock_keeps | apply bankSwap_keeps
      | apply armIfLoaded_keeps | apply overN_keeps | apply State.at_keeps | apply State.put_keeps
      | fail_if_no_progress refine Keeps.upd ?_
    | split

theorem execLiveAdvance_keeps (t : Nat) (s : State) (hk : Keeps fl s₀ s) :
    KeepsRes fl s₀ (execLiveAdvance t s) := by
  unfold execLiveAdvance
  try dsimp only
  repeat' first
    | with_reducible first
      | apply KeepsRes.next | apply KeepsRes.ite
    | intro _
    | with_reducible first
      | assumption | apply Keeps.ite | apply State.at_keeps | fail_if_no_progress refine Keeps.upd ?_
    | split

theorem execLiveStall_keeps (t : Nat) (s : State) (hk : Keeps fl s₀ s) :
    KeepsRes fl s₀ (execLiveStall t s) := by
  unfold execLiveStall
  try dsimp only
  repeat' first
    | with_reducible first
      | apply KeepsRes.next | apply KeepsRes.ite
    | intro _
    | with_reducible first
      | assumption | apply Keeps.ite | apply report_keeps | apply State.at_keeps | fail_if_no_progress refine Keeps.upd ?_
    | split

theorem chainStart_keeps (s : State) (hk : Keeps fl s₀ s) :
    Keeps fl s₀ (chainStart s) := by
  unfold chainStart
  try dsimp only
  repeat' first
    | intro _
    | with_reducible first
      | assumption | apply Keeps.ite | apply State.flag_keeps | apply State.put_keeps | fail_if_no_progress refine Keeps.upd ?_
    | split

theorem execChainEn_keeps (s : State) (hk : Keeps fl s₀ s) :
    KeepsRes fl s₀ (execChainEn s) := by
  unfold execChainEn
  try dsimp only
  repeat' first
    | with_reducible first
      | apply KeepsRes.next | apply KeepsRes.ite
    | intro _
    | with_reducible first
      | assumption | apply Keeps.ite | apply chainStart_keeps
    | split

theorem ledState_keeps (p st : Nat) (s : State) (hk : Keeps fl s₀ s) :
    Keeps fl s₀ (ledState p st s) := by
  unfold ledState
  try dsimp only
  repeat' first
    | intro _
    | with_reducible first
      | assumption | apply State.setLed_keeps | apply State.put_keeps | fail_if_no_progress refine Keeps.upd ?_
    | split

theorem loopRunning_keeps (p : Nat) (hdrOk cntOk : Bool) (s : State) (hk : Keeps fl s₀ s) :
    Keeps fl s₀ (loopRunning p hdrOk cntOk s) := by
  unfold loopRunning
  try dsimp only
  repeat' first
    | intro _
    | with_reducible first
      | assumption | apply Keeps.ite | apply ledState_keeps | apply report_keeps | apply State.setLed_keeps
      | fail_if_no_progress refine Keeps.upd ?_
    | split

theorem loopReplacing_keeps (p nret : Nat) (s : State) (hk : Keeps fl s₀ s) :
    Keeps fl s₀ (loopReplacing p nret s) := by
  unfold loopReplacing
  try dsimp only
  repeat' first
    | intro _
    | with_reducible first
      | assumption | apply Keeps.ite | apply ledState_keeps | apply mntFinish_keeps | apply State.setLed_keeps
      | apply State.flag_keeps | fail_if_no_progress refine Keeps.upd ?_
    | split

theorem loopCheck_keeps (p nret : Nat) (hdrOk : Bool) (s : State) (hk : Keeps fl s₀ s) :
    Keeps fl s₀ (loopCheck p nret hdrOk s) := by
  unfold loopCheck
  try dsimp only
  repeat' first
    | intro _
    | with_reducible first
      | assumption | apply Keeps.ite | apply loopReplacing_keeps | apply loopRunning_keeps | apply ledState_keeps
      | apply State.wrap_keeps | fail_if_no_progress refine Keeps.upd ?_
    | refine Keeps.ofPair (by assumption) ?_ | split

theorem execLedLatch_keeps (p : Fin 2) (t : Nat) (hdrOk : Bool) (nret : Fin 17) (codes : List (Fin 4)) (s : State) (hk : Keeps fl
    s₀ s) :
    KeepsRes fl s₀ (execLedLatch p t hdrOk nret codes s) := by
  unfold execLedLatch
  try dsimp only
  repeat' first
    | with_reducible first
      | apply KeepsRes.next | apply KeepsRes.ite
    | intro _
    | with_reducible first
      | assumption | apply Keeps.ite | apply Keeps.foldl | apply loopCheck_keeps | apply pulseSlot_keeps | apply report_keeps
      | apply forEach_keeps | apply State.setLed_keeps | apply State.at_keeps | apply State.put_keeps
      | fail_if_no_progress refine Keeps.upd ?_
    | split

theorem lcpEnable_keeps (p : Nat) (s : State) (hk : Keeps fl s₀ s) :
    Keeps fl s₀ (lcpEnable p s) := by
  unfold lcpEnable
  try dsimp only
  repeat' first
    | intro _
    | with_reducible first
      | assumption | apply Keeps.ite | apply ledState_keeps | apply State.flag_keeps | fail_if_no_progress refine Keeps.upd ?_
    | split

theorem execLcpEn_keeps (p : Fin 2) (s : State) (hk : Keeps fl s₀ s) :
    KeepsRes fl s₀ (execLcpEn p s) := by
  unfold execLcpEn
  try dsimp only
  repeat' first
    | with_reducible first
      | apply KeepsRes.next | apply KeepsRes.ite
    | intro _
    | with_reducible first
      | assumption | apply Keeps.ite | apply lcpEnable_keeps
    | split

theorem ledReplace_keeps (p : Nat) (s : State) (hk : Keeps fl s₀ s) :
    Keeps fl s₀ (ledReplace p s) := by
  unfold ledReplace
  try dsimp only
  repeat' first
    | intro _
    | with_reducible first
      | assumption | apply Keeps.ite | apply ledState_keeps | apply mntHold_keeps | apply State.setLed_keeps
      | fail_if_no_progress refine Keeps.upd ?_
    | split

theorem execLcpSubTimeout_keeps (p : Fin 2) (t : Nat) (s : State) (hk : Keeps fl s₀ s) :
    KeepsRes fl s₀ (execLcpSubTimeout p t s) := by
  unfold execLcpSubTimeout
  try dsimp only
  repeat' first
    | with_reducible first
      | apply KeepsRes.next | apply KeepsRes.ite
    | intro _
    | with_reducible first
      | assumption | apply Keeps.ite | apply report_keeps | apply State.at_keeps | fail_if_no_progress refine Keeps.upd ?_
    | split

theorem ledStop_keeps (p : Nat) (s : State) (hk : Keeps fl s₀ s) :
    Keeps fl s₀ (ledStop p s) := by
  unfold ledStop
  try dsimp only
  repeat' first
    | intro _
    | with_reducible first
      | assumption | apply ledState_keeps | apply State.setLed_keeps
    | split

theorem ledRestart_keeps (p : Nat) (s : State) (hk : Keeps fl s₀ s) :
    Keeps fl s₀ (ledRestart p s) := by
  unfold ledRestart
  try dsimp only
  repeat' first
    | intro _
    | with_reducible first
      | assumption | apply Keeps.ite | apply ledState_keeps
    | split

theorem fldEnter_keeps (m : Nat) (s : State) (hk : Keeps fl s₀ s) :
    Keeps fl s₀ (fldEnter m s) := by
  unfold fldEnter
  try dsimp only
  repeat' first
    | intro _
    | with_reducible first
      | assumption | apply State.put_keeps | fail_if_no_progress refine Keeps.upd ?_
    | split

theorem settleField_keeps (s : State) (hk : Keeps fl s₀ s) :
    Keeps fl s₀ (settleField s) := by
  unfold settleField
  try dsimp only
  repeat' first
    | intro _
    | with_reducible first
      | assumption | apply settleAll_keeps
    | split

theorem fldSafe_keeps (s : State) (hk : Keeps fl s₀ s) :
    Keeps fl s₀ (fldSafe s) := by
  unfold fldSafe
  try dsimp only
  repeat' first
    | intro _
    | with_reducible first
      | assumption | apply Keeps.ite | apply settleField_keeps | apply forEach_keeps | apply State.modChan_keeps
      | fail_if_no_progress refine Keeps.upd ?_
    | split

theorem fldPowerOff_keeps (s : State) (hk : Keeps fl s₀ s) :
    Keeps fl s₀ (fldPowerOff s) := by
  unfold fldPowerOff
  try dsimp only
  repeat' first
    | intro _
    | with_reducible first
      | assumption | apply settleField_keeps | apply forEach_keeps | apply State.modChan_keeps | apply State.flag_keeps
      | apply State.put_keeps | fail_if_no_progress refine Keeps.upd ?_
    | split

theorem fldPowerUp_keeps (s : State) (hk : Keeps fl s₀ s) :
    Keeps fl s₀ (fldPowerUp s) := by
  unfold fldPowerUp
  try dsimp only
  repeat' first
    | intro _
    | with_reducible first
      | assumption | apply Keeps.ite | apply fldPowerOff_keeps | apply State.flag_keeps
      | fail_if_no_progress refine Keeps.upd ?_
    | split

theorem execFldEn_keeps (s : State) (hk : Keeps fl s₀ s) :
    KeepsRes fl s₀ (execFldEn s) := by
  unfold execFldEn
  try dsimp only
  repeat' first
    | with_reducible first
      | apply KeepsRes.next | apply KeepsRes.ite
    | intro _
    | with_reducible first
      | assumption | apply Keeps.ite | apply State.flag_keeps
    | split

theorem execBarrierPowerUp_keeps (t : Nat) (s : State) (hk : Keeps fl s₀ s) :
    KeepsRes fl s₀ (execBarrierPowerUp t s) := by
  unfold execBarrierPowerUp
  try dsimp only
  repeat' first
    | with_reducible first
      | apply KeepsRes.next | apply KeepsRes.ite
    | intro _
    | with_reducible first
      | assumption | apply fldPowerUp_keeps | apply State.at_keeps
    | split

theorem downBad_keeps (s : State) (hk : Keeps fl s₀ s) :
    Keeps fl s₀ (downBad s) := by
  unfold downBad
  try dsimp only
  repeat' first
    | intro _
    | with_reducible first
      | assumption | apply Keeps.ite | apply report_keeps | apply State.wrap_keeps | fail_if_no_progress refine Keeps.upd ?_
    | split

theorem fldConfig_keeps (s : State) (hk : Keeps fl s₀ s) :
    Keeps fl s₀ (fldConfig s) := by
  unfold fldConfig
  try dsimp only
  repeat' first
    | intro _
    | with_reducible first
      | assumption | apply Keeps.ite | apply fldEnter_keeps
    | split

theorem execDownlinkFrame_keeps (t : Nat) (cfg ok : Bool) (s : State) (hk : Keeps fl s₀ s) :
    KeepsRes fl s₀ (execDownlinkFrame t cfg ok s) := by
  unfold execDownlinkFrame
  try dsimp only
  repeat' first
    | with_reducible first
      | apply KeepsRes.next | apply KeepsRes.ite
    | intro _
    | with_reducible first
      | assumption | apply Keeps.ite | apply fldConfig_keeps | apply downBad_keeps | apply State.at_keeps
      | apply State.put_keeps | fail_if_no_progress refine Keeps.upd ?_
    | split

theorem fieldMeasure_keeps (n mA : Nat) (tj : Int) (v : Nat) (s : State) (hk : Keeps fl s₀ s) :
    Keeps fl s₀ (fieldMeasure n mA tj v s) := by
  unfold fieldMeasure
  try dsimp only
  repeat' first
    | intro _
    | with_reducible first
      | assumption | apply Keeps.foldl | apply State.modChan_keeps | apply State.flag_keeps | apply State.put_keeps
      | fail_if_no_progress refine Keeps.upd ?_
    | split

theorem State.setFieldIn_keeps (s : State) (n : Nat) (x : FieldIn) (hk : Keeps fl s₀ s) :
    Keeps fl s₀ (State.setFieldIn s n x) := by
  unfold State.setFieldIn
  try dsimp only
  repeat' first
    | intro _
    | with_reducible first
      | assumption | fail_if_no_progress refine Keeps.upd ?_
    | split

theorem inputFault_keeps (n b : Nat) (s : State) (hk : Keeps fl s₀ s) :
    Keeps fl s₀ (inputFault n b s) := by
  unfold inputFault
  try dsimp only
  repeat' first
    | intro _
    | with_reducible first
      | assumption | apply State.modChan_keeps | fail_if_no_progress refine Keeps.upd ?_
    | split

theorem inputSeen_keeps (n : Nat) (s : State) (hk : Keeps fl s₀ s) :
    Keeps fl s₀ (inputSeen n s) := by
  unfold inputSeen
  try dsimp only
  repeat' first
    | intro _
    | with_reducible first
      | assumption | apply Keeps.ite | apply inputFault_keeps | apply State.setFieldIn_keeps | apply report_keeps
      | apply State.putBit_keeps | fail_if_no_progress refine Keeps.upd ?_
    | split

theorem execUplinkFrame_keeps (t : Nat) (ok hdrOk : Bool) (n : Fin 16) (mA : Nat) (tj : Int) (v : Nat) (s : State) (hk : Keeps fl
    s₀ s) :
    KeepsRes fl s₀ (execUplinkFrame t ok hdrOk n mA tj v s) := by
  unfold execUplinkFrame
  try dsimp only
  repeat' first
    | with_reducible first
      | apply KeepsRes.next | apply KeepsRes.ite
    | intro _
    | with_reducible first
      | assumption | apply Keeps.ite | apply inputSeen_keeps | apply fieldMeasure_keeps | apply report_keeps | apply overN_keeps
      | apply State.at_keeps | apply State.wrap_keeps | fail_if_no_progress refine Keeps.upd ?_
    | split

theorem fieldParams_keeps (i : Nat) (s : State) (hk : Keeps fl s₀ s) :
    Keeps fl s₀ (fieldParams i s) := by
  unfold fieldParams
  try dsimp only
  repeat' first
    | intro _
    | with_reducible first
      | assumption | apply State.modChan_keeps | fail_if_no_progress refine Keeps.upd ?_
    | split

theorem fieldSwap_keeps (s : State) (hk : Keeps fl s₀ s) :
    Keeps fl s₀ (fieldSwap s) := by
  unfold fieldSwap
  try dsimp only
  repeat' first
    | intro _
    | with_reducible first
      | assumption | apply Keeps.ite | apply settleField_keeps | apply forEach_keeps | fail_if_no_progress refine Keeps.upd ?_
    | refine Keeps.ofPair (by assumption) ?_ | split

theorem fieldTakes_keeps (t : Nat) (take : BitVec 16) (s : State) (hk : Keeps fl s₀ s) :
    Keeps fl s₀ (fieldTakes t take s) := by
  unfold fieldTakes
  try dsimp only
  repeat' first
    | intro _
    | with_reducible first
      | assumption | apply Keeps.ite | apply fieldParams_keeps | apply forEach_keeps | fail_if_no_progress refine Keeps.upd ?_
    | refine Keeps.ofPair (by assumption) ?_ | split

theorem execFieldLatch_keeps (t : Nat) (take : BitVec 16) (s : State) (hk : Keeps fl s₀ s) :
    KeepsRes fl s₀ (execFieldLatch t take s) := by
  unfold execFieldLatch
  try dsimp only
  repeat' first
    | with_reducible first
      | apply KeepsRes.next | apply KeepsRes.ite
    | intro _
    | with_reducible first
      | assumption | apply Keeps.ite | apply fieldTakes_keeps | apply fieldSwap_keeps | apply fldSafe_keeps
      | apply applyBits_keeps | apply pulseSlot_keeps | apply forEach_keeps | apply State.at_keeps
      | fail_if_no_progress refine Keeps.upd ?_
    | split

theorem fldArm_keeps (s : State) (hk : Keeps fl s₀ s) :
    Keeps fl s₀ (fldArm s) := by
  unfold fldArm
  try dsimp only
  repeat' first
    | intro _
    | with_reducible first
      | assumption | apply Keeps.ite | apply settleField_keeps | apply fldEnter_keeps | apply forEach_keeps | apply overN_keeps
      | apply State.modChan_keeps | fail_if_no_progress refine Keeps.upd ?_
    | split

theorem execFldArming_keeps (t : Nat) (ok : Bool) (s : State) (hk : Keeps fl s₀ s) :
    KeepsRes fl s₀ (execFldArming t ok s) := by
  unfold execFldArming
  try dsimp only
  repeat' first
    | with_reducible first
      | apply KeepsRes.next | apply KeepsRes.ite
    | intro _
    | with_reducible first
      | assumption | apply Keeps.ite | apply fldArm_keeps | apply report_keeps | apply State.at_keeps
      | fail_if_no_progress refine Keeps.upd ?_
    | split

theorem fldSilence_keeps (s : State) (hk : Keeps fl s₀ s) :
    Keeps fl s₀ (fldSilence s) := by
  unfold fldSilence
  try dsimp only
  repeat' first
    | intro _
    | with_reducible first
      | assumption | apply Keeps.ite | apply fldSafe_keeps | apply report_keeps | apply State.flag_keeps
    | split

theorem execFldTmo_keeps (t : Nat) (s : State) (hk : Keeps fl s₀ s) :
    KeepsRes fl s₀ (execFldTmo t s) := by
  unfold execFldTmo
  try dsimp only
  repeat' first
    | with_reducible first
      | apply KeepsRes.next | apply KeepsRes.ite
    | intro _
    | with_reducible first
      | assumption | apply fldSilence_keeps | apply State.at_keeps
    | split

theorem testEnd_keeps (s : State) (hk : Keeps fl s₀ s) :
    Keeps fl s₀ (testEnd s) := by
  unfold testEnd
  try dsimp only
  repeat' first
    | intro _
    | with_reducible first
      | assumption | apply fldSilence_keeps | apply fldEnter_keeps
    | split

theorem execModeMax_keeps (t : Nat) (s : State) (hk : Keeps fl s₀ s) :
    KeepsRes fl s₀ (execModeMax t s) := by
  unfold execModeMax
  try dsimp only
  repeat' first
    | with_reducible first
      | apply KeepsRes.next | apply KeepsRes.ite
    | intro _
    | with_reducible first
      | assumption | apply Keeps.ite | apply testEnd_keeps | apply fldSafe_keeps | apply report_keeps | apply State.at_keeps
      | fail_if_no_progress refine Keeps.upd ?_
    | refine Keeps.ofPair (by assumption) ?_ | split

theorem execFldResume_keeps (s : State) (hk : Keeps fl s₀ s) :
    KeepsRes fl s₀ (execFldResume s) := by
  unfold execFldResume
  try dsimp only
  repeat' first
    | with_reducible first
      | apply KeepsRes.next | apply KeepsRes.ite
    | intro _
    | with_reducible first
      | assumption | apply Keeps.ite | apply settleField_keeps | apply forEach_keeps | apply State.modChan_keeps
      | apply State.flag_keeps | fail_if_no_progress refine Keeps.upd ?_
    | split

theorem execTestReq_keeps (sel : BitVec 2) (t : Nat) (s : State) (hk : Keeps fl s₀ s) :
    KeepsRes fl s₀ (execTestReq sel t s) := by
  unfold execTestReq
  try dsimp only
  repeat' first
    | with_reducible first
      | apply KeepsRes.next | apply KeepsRes.ite
    | intro _
    | with_reducible first
      | assumption | apply Keeps.ite | apply fldEnter_keeps | apply State.at_keeps | apply State.put_keeps
      | fail_if_no_progress refine Keeps.upd ?_
    | split

theorem inputTest_keeps (fail : BitVec 16) (s : State) (hk : Keeps fl s₀ s) :
    Keeps fl s₀ (inputTest fail s) := by
  unfold inputTest
  try dsimp only
  repeat' first
    | intro _
    | with_reducible first
      | assumption | apply Keeps.ite | apply inputFault_keeps | apply report_keeps | apply forEach_keeps
      | fail_if_no_progress refine Keeps.upd ?_
    | split

theorem outputTest_keeps (notOff openOff shortBat : BitVec 16) (s : State) (hk : Keeps fl s₀ s) :
    Keeps fl s₀ (outputTest notOff openOff shortBat s) := by
  unfold outputTest
  try dsimp only
  repeat' first
    | intro _
    | with_reducible first
      | assumption | apply Keeps.ite | apply fltEvent_keeps | apply report_keeps | apply forEach_keeps
      | fail_if_no_progress refine Keeps.upd ?_
    | split

theorem execTestComplete_keeps (t : Nat) (inFail notOff openOff shortBat : BitVec 16) (s : State) (hk : Keeps fl s₀ s) :
    KeepsRes fl s₀ (execTestComplete t inFail notOff openOff shortBat s) := by
  unfold execTestComplete
  try dsimp only
  repeat' first
    | with_reducible first
      | apply KeepsRes.next | apply KeepsRes.ite
    | intro _
    | with_reducible first
      | assumption | apply Keeps.ite | apply outputTest_keeps | apply inputTest_keeps | apply testEnd_keeps
      | apply State.at_keeps | fail_if_no_progress refine Keeps.upd ?_
    | split

theorem execFieldInputSample_keeps (t : Nat) (raw : BitVec 16) (s : State) (hk : Keeps fl s₀ s) :
    KeepsRes fl s₀ (execFieldInputSample t raw s) := by
  unfold execFieldInputSample
  try dsimp only
  repeat' first
    | with_reducible first
      | apply KeepsRes.next | apply KeepsRes.ite
    | intro _
    | with_reducible first
      | assumption | apply Keeps.ite | apply State.setFieldIn_keeps | apply overN_keeps | apply State.at_keeps
      | fail_if_no_progress refine Keeps.upd ?_
    | split

theorem inputAdopt_keeps (n : Nat) (old new : Entry) (s : State) (hk : Keeps fl s₀ s) :
    Keeps fl s₀ (inputAdopt n old new s) := by
  unfold inputAdopt
  try dsimp only
  repeat' first
    | intro _
    | with_reducible first
      | assumption | apply Keeps.ite | apply State.setFieldIn_keeps | fail_if_no_progress refine Keeps.upd ?_
    | split

theorem inputFrame_keeps (n : Nat) (s : State) (hk : Keeps fl s₀ s) :
    Keeps fl s₀ (inputFrame n s) := by
  unfold inputFrame
  try dsimp only
  repeat' first
    | intro _
    | with_reducible first
      | assumption | apply State.setFieldIn_keeps | fail_if_no_progress refine Keeps.upd ?_
    | split

theorem execVfieldUndervoltage_keeps (t : Nat) (s : State) (hk : Keeps fl s₀ s) :
    KeepsRes fl s₀ (execVfieldUndervoltage t s) := by
  unfold execVfieldUndervoltage
  try dsimp only
  repeat' first
    | with_reducible first
      | apply KeepsRes.next | apply KeepsRes.ite
    | intro _
    | with_reducible first
      | assumption | apply Keeps.ite | apply fltEvent_keeps | apply report_keeps | apply settle_keeps | apply forEach_keeps
      | apply State.setGrp_keeps | apply State.at_keeps | apply State.flag_keeps | fail_if_no_progress refine Keeps.upd ?_
    | split

theorem execVfieldRelease_keeps (t : Nat) (s : State) (hk : Keeps fl s₀ s) :
    KeepsRes fl s₀ (execVfieldRelease t s) := by
  unfold execVfieldRelease
  try dsimp only
  repeat' first
    | with_reducible first
      | apply KeepsRes.next | apply KeepsRes.ite
    | intro _
    | with_reducible first
      | assumption | apply Keeps.ite | apply settle_keeps | apply forEach_keeps | apply State.setGrp_keeps
      | apply State.modChan_keeps | apply State.at_keeps | apply State.flag_keeps | fail_if_no_progress refine Keeps.upd ?_
    | split

theorem execVfieldOv_keeps (t : Nat) (s : State) (hk : Keeps fl s₀ s) :
    KeepsRes fl s₀ (execVfieldOv t s) := by
  unfold execVfieldOv
  try dsimp only
  repeat' first
    | with_reducible first
      | apply KeepsRes.next | apply KeepsRes.ite
    | intro _
    | with_reducible first
      | assumption | apply Keeps.ite | apply report_keeps | apply State.at_keeps | apply State.flag_keeps
      | fail_if_no_progress refine Keeps.upd ?_
    | split

theorem execBarrierSupplyFault_keeps (t : Nat) (s : State) (hk : Keeps fl s₀ s) :
    KeepsRes fl s₀ (execBarrierSupplyFault t s) := by
  unfold execBarrierSupplyFault
  try dsimp only
  repeat' first
    | with_reducible first
      | apply KeepsRes.next | apply KeepsRes.ite
    | intro _
    | with_reducible first
      | assumption | apply Keeps.ite | apply report_keeps | apply State.at_keeps | apply State.flag_keeps
      | fail_if_no_progress refine Keeps.upd ?_
    | split

theorem execFldHealth_keeps (t : Nat) (cond : FldCond) (s : State) (hk : Keeps fl s₀ s) :
    KeepsRes fl s₀ (execFldHealth t cond s) := by
  unfold execFldHealth
  try dsimp only
  repeat' first
    | with_reducible first
      | apply KeepsRes.next | apply KeepsRes.ite
    | intro _
    | with_reducible first
      | assumption | apply Keeps.ite | apply report_keeps | apply State.at_keeps | fail_if_no_progress refine Keeps.upd ?_
    | refine Keeps.ofPair (by assumption) ?_ | split

end Sys2Proof.Machine
end

