-- ==== Sys2Proof/Laws/OpsLink.lean ====
section
/-!
SUPPORT. Sys2Proof/Laws/OpsLink.lean: what each operation of the bus controllers and the other links keeps (`Keeps` says what that is), one lemma for each
operation, so that no proof unfolds one to know that it leaves the queue, the identity or the canonical forms alone.
-/
namespace Sys2Proof.Machine
-- the small lemmas of this file one after another, each without a thread of its own
set_option Elab.async false
set_option linter.all false
variable {fl : Bool} {s₀ : State}

theorem txRecord_keeps (n : Nat) (f : TxFrame) (outcome : Nat) (urg : Bool) (s : State) (hk : Keeps fl s₀ s) :
    Keeps fl s₀ (txRecord n f outcome urg s) := by
  unfold txRecord
  try dsimp only
  repeat' first
    | intro _
    | with_reducible first
      | assumption | apply Keeps.ite | apply State.setWords_keeps | apply State.put_keeps
      | fail_if_no_progress refine Keeps.upd ?_
    | split

theorem canFlush_keeps (n : Nat) (s : State) (hk : Keeps fl s₀ s) :
    Keeps fl s₀ (canFlush n s) := by
  unfold canFlush
  try dsimp only
  repeat' first
    | intro _
    | with_reducible first
      | assumption | apply txRecord_keeps | apply State.setCan_keeps | apply forEach_keeps
      | fail_if_no_progress refine Keeps.upd ?_
    | split

theorem canUrgAbort_keeps (n : Nat) (s : State) (hk : Keeps fl s₀ s) :
    Keeps fl s₀ (canUrgAbort n s) := by
  unfold canUrgAbort
  try dsimp only
  repeat' first
    | intro _
    | with_reducible first
      | assumption | apply Keeps.ite | apply txRecord_keeps | apply State.setCan_keeps | fail_if_no_progress refine Keeps.upd ?_
    | refine Keeps.ofPair (by assumption) ?_ | split

theorem canDiscard_keeps (n : Nat) (s : State) (hk : Keeps fl s₀ s) :
    Keeps fl s₀ (canDiscard n s) := by
  unfold canDiscard
  try dsimp only
  repeat' first
    | intro _
    | with_reducible first
      | assumption | apply canUrgAbort_keeps | apply canFlush_keeps | apply cutTx_keeps
    | split

theorem queueReport_keeps (n : Nat) (s : State) (hk : Keeps fl s₀ s) :
    Keeps fl s₀ (queueReport n s) := by
  unfold queueReport
  try dsimp only
  repeat' first
    | intro _
    | with_reducible first
      | assumption | apply report_keeps
    | split

theorem canPush_keeps (n : Nat) (f : TxFrame) (s : State) (hk : Keeps fl s₀ s) :
    Keeps fl s₀ (canPush n f s) := by
  unfold canPush
  try dsimp only
  repeat' first
    | intro _
    | with_reducible first
      | assumption | apply Keeps.ite | apply queueReport_keeps | apply txRecord_keeps | apply State.setCan_keeps
      | apply State.flag_keeps | fail_if_no_progress refine Keeps.upd ?_
    | split

theorem canUrgent_keeps (n : Nat) (f : TxFrame) (s : State) (hk : Keeps fl s₀ s) :
    Keeps fl s₀ (canUrgent n f s) := by
  unfold canUrgent
  try dsimp only
  repeat' first
    | intro _
    | with_reducible first
      | assumption | apply Keeps.ite | apply queueReport_keeps | apply txRecord_keeps | apply State.setCan_keeps
      | apply State.flag_keeps | fail_if_no_progress refine Keeps.upd ?_
    | refine Keeps.ofPair (by assumption) ?_ | split

theorem canTxCmd_keeps (n v : Nat) (s : State) (hk : Keeps fl s₀ s) :
    Keeps fl s₀ (canTxCmd n v s) := by
  unfold canTxCmd
  try dsimp only
  repeat' first
    | intro _
    | with_reducible first
      | assumption | apply Keeps.ite | apply canUrgent_keeps | apply canPush_keeps | apply canUrgAbort_keeps
      | apply canFlush_keeps | fail_if_no_progress refine Keeps.upd ?_
    | split

theorem State.setRxBuf_keeps (s : State) (n b : Nat) (y : RxBuf) (hk : Keeps fl s₀ s) :
    Keeps fl s₀ (State.setRxBuf s n b y) := by
  unfold State.setRxBuf
  try dsimp only
  repeat' first
    | intro _
    | with_reducible first
      | assumption | apply State.modCan_keeps | fail_if_no_progress refine Keeps.upd ?_
    | split

theorem mbWrite_keeps (n b w v : Nat) (s : State) (hk : Keeps fl s₀ s) :
    Keeps fl s₀ (mbWrite n b w v s) := by
  unfold mbWrite
  try dsimp only
  repeat' first
    | intro _
    | with_reducible first
      | assumption | apply Keeps.ite | apply State.setWordN_keeps | fail_if_no_progress refine Keeps.upd ?_
    | split

theorem rxAck_keeps (n b : Nat) (s : State) (hk : Keeps fl s₀ s) :
    Keeps fl s₀ (rxAck n b s) := by
  unfold rxAck
  try dsimp only
  repeat' first
    | intro _
    | with_reducible first
      | assumption | apply Keeps.ite | apply State.setWordN_keeps | apply State.putBit_keeps
      | fail_if_no_progress refine Keeps.upd ?_
    | split

theorem mbPost_keeps (n b : Nat) (s : State) (hk : Keeps fl s₀ s) :
    Keeps fl s₀ (mbPost n b s) := by
  unfold mbPost
  try dsimp only
  repeat' first
    | intro _
    | with_reducible first
      | assumption | apply Keeps.ite | apply State.modCan_keeps | fail_if_no_progress refine Keeps.upd ?_
    | split

theorem mbTake_keeps (n : Nat) (news : List (Nat × Entry)) (p : Nat × Entry) (s : State) (hk : Keeps fl s₀ s) :
    Keeps fl s₀ (mbTake n news p s) := by
  unfold mbTake
  try dsimp only
  repeat' first
    | intro _
    | with_reducible first
      | assumption | apply Keeps.ite | apply mbWrite_keeps | apply State.setRxBuf_keeps | apply State.flag_keeps
      | apply State.put_keeps | fail_if_no_progress refine Keeps.upd ?_
    | split

theorem mbCommitPoint_keeps (n : Nat) (s : State) (hk : Keeps fl s₀ s) :
    Keeps fl s₀ (mbCommitPoint n s) := by
  unfold mbCommitPoint
  try dsimp only
  repeat' first
    | intro _
    | with_reducible first
      | assumption | apply Keeps.ite | apply mbTake_keeps | apply State.modCan_keeps | apply forEach_keeps
      | fail_if_no_progress refine Keeps.upd ?_
    | split

theorem mbFrame_keeps (n : Nat) (s : State) (hk : Keeps fl s₀ s) :
    Keeps fl s₀ (mbFrame n s) := by
  unfold mbFrame
  try dsimp only
  repeat' first
    | intro _
    | with_reducible first
      | assumption | apply mbWrite_keeps | apply State.setRxBuf_keeps | apply forEach_keeps
      | fail_if_no_progress refine Keeps.upd ?_
    | refine Keeps.ofPair (by assumption) ?_ | split

theorem canLevel_keeps (n : Nat) (s : State) (hk : Keeps fl s₀ s) :
    Keeps fl s₀ (canLevel n s) := by
  unfold canLevel
  try dsimp only
  repeat' first
    | intro _
    | with_reducible first
      | assumption | apply Keeps.ite | apply report_keeps | apply cutTx_keeps | apply canGo_keeps | apply State.flag_keeps
      | fail_if_no_progress refine Keeps.upd ?_
    | split

theorem canJoin_keeps (n : Nat) (s : State) (hk : Keeps fl s₀ s) :
    Keeps fl s₀ (canJoin n s) := by
  unfold canJoin
  try dsimp only
  repeat' first
    | intro _
    | with_reducible first
      | assumption | apply canLevel_keeps | apply canGo_keeps
    | split

theorem State.setNm_keeps (s : State) (n : Nat) (x : Nm) (hk : Keeps fl s₀ s) :
    Keeps fl s₀ (State.setNm s n x) := by
  unfold State.setNm
  try dsimp only
  repeat' first
    | intro _
    | with_reducible first
      | assumption | fail_if_no_progress refine Keeps.upd ?_
    | split

theorem State.modNm_keeps (s : State) (n : Nat) (f : Nm → Nm) (hk : Keeps fl s₀ s) :
    Keeps fl s₀ (State.modNm s n f) := by
  unfold State.modNm
  try dsimp only
  repeat' first
    | intro _
    | with_reducible first
      | assumption | apply State.setNm_keeps
    | split

theorem sendRally_keeps (n : Nat) (first : Bool) (s : State) (hk : Keeps fl s₀ s) :
    Keeps fl s₀ (sendRally n first s) := by
  unfold sendRally
  try dsimp only
  repeat' first
    | intro _
    | with_reducible first
      | assumption | apply Keeps.ite | apply State.modNm_keeps | apply State.setCan_keeps | apply State.flag_keeps
      | fail_if_no_progress refine Keeps.upd ?_
    | split

theorem nmRelease_keeps (n : Nat) (s : State) (hk : Keeps fl s₀ s) :
    Keeps fl s₀ (nmRelease n s) := by
  unfold nmRelease
  try dsimp only
  repeat' first
    | intro _
    | with_reducible first
      | assumption | apply Keeps.ite | apply State.modNm_keeps | apply State.put_keeps | fail_if_no_progress refine Keeps.upd ?_
    | split

theorem nmNetwork_keeps (n : Nat) (first : Bool) (s : State) (hk : Keeps fl s₀ s) :
    Keeps fl s₀ (nmNetwork n first s) := by
  unfold nmNetwork
  try dsimp only
  repeat' first
    | intro _
    | with_reducible first
      | assumption | apply nmRelease_keeps | apply sendRally_keeps | apply State.modNm_keeps | apply State.put_keeps
      | fail_if_no_progress refine Keeps.upd ?_
    | split

theorem nmDepart_keeps (n cause : Nat) (s : State) (hk : Keeps fl s₀ s) :
    Keeps fl s₀ (nmDepart n cause s) := by
  unfold nmDepart
  try dsimp only
  repeat' first
    | intro _
    | with_reducible first
      | assumption | apply Keeps.ite | apply State.modNm_keeps | apply canGo_keeps | apply State.put64_keeps
      | apply State.put_keeps | fail_if_no_progress refine Keeps.upd ?_
    | split

theorem nmSleep_keeps (n : Nat) (s : State) (hk : Keeps fl s₀ s) :
    Keeps fl s₀ (nmSleep n s) := by
  unfold nmSleep
  try dsimp only
  repeat' first
    | intro _
    | with_reducible first
      | assumption | apply Keeps.ite | apply State.modNm_keeps | apply canDiscard_keeps | apply canGo_keeps
      | apply State.flag_keeps | apply State.put_keeps | fail_if_no_progress refine Keeps.upd ?_
    | split

theorem nmEnable_keeps (n : Nat) (en : Bool) (s : State) (hk : Keeps fl s₀ s) :
    Keeps fl s₀ (nmEnable n en s) := by
  unfold nmEnable
  try dsimp only
  repeat' first
    | intro _
    | with_reducible first
      | assumption | apply Keeps.ite | apply nmSleep_keeps | apply State.setNm_keeps | apply canGo_keeps
      | apply State.flag_keeps | apply State.put_keeps | fail_if_no_progress refine Keeps.upd ?_
    | split

theorem nmRequested_keeps (n : Nat) (s : State) (hk : Keeps fl s₀ s) :
    Keeps fl s₀ (nmRequested n s) := by
  unfold nmRequested
  try dsimp only
  repeat' first
    | intro _
    | with_reducible first
      | assumption | apply Keeps.ite | apply nmDepart_keeps | apply nmNetwork_keeps | apply State.modNm_keeps
      | apply State.put_keeps | fail_if_no_progress refine Keeps.upd ?_
    | split

theorem nmReq_keeps (n : Nat) (req : Bool) (s : State) (hk : Keeps fl s₀ s) :
    Keeps fl s₀ (nmReq n req s) := by
  unfold nmReq
  try dsimp only
  repeat' first
    | intro _
    | with_reducible first
      | assumption | apply Keeps.ite | apply nmRequested_keeps | apply nmRelease_keeps | apply State.flag_keeps
      | apply State.put_keeps | fail_if_no_progress refine Keeps.upd ?_
    | split

theorem execNmEn_keeps (n : Fin 13) (en : Bool) (t : Nat) (s : State) (hk : Keeps fl s₀ s) :
    KeepsRes fl s₀ (execNmEn n en t s) := by
  unfold execNmEn
  try dsimp only
  repeat' first
    | with_reducible first
      | apply KeepsRes.next | apply KeepsRes.ite
    | intro _
    | with_reducible first
      | assumption | apply Keeps.ite | apply nmRequested_keeps | apply nmEnable_keeps | apply State.at_keeps
      | fail_if_no_progress refine Keeps.upd ?_
    | split

theorem execNmReq_keeps (n : Fin 13) (req : Bool) (t : Nat) (s : State) (hk : Keeps fl s₀ s) :
    KeepsRes fl s₀ (execNmReq n req t s) := by
  unfold execNmReq
  try dsimp only
  repeat' first
    | with_reducible first
      | apply KeepsRes.next | apply KeepsRes.ite
    | intro _
    | with_reducible first
      | assumption | apply Keeps.ite | apply nmReq_keeps | apply State.at_keeps | fail_if_no_progress refine Keeps.upd ?_
    | split

theorem nmRally_keeps (n node : Nat) (s : State) (hk : Keeps fl s₀ s) :
    Keeps fl s₀ (nmRally n node s) := by
  unfold nmRally
  try dsimp only
  repeat' first
    | intro _
    | with_reducible first
      | assumption | apply Keeps.ite | apply nmNetwork_keeps | apply State.modNm_keeps | apply State.wrap_keeps
      | apply State.put_keeps | fail_if_no_progress refine Keeps.upd ?_
    | refine Keeps.ofPair (by assumption) ?_ | split

theorem execRallyTimer_keeps (n : Fin 13) (t : Nat) (s : State) (hk : Keeps fl s₀ s) :
    KeepsRes fl s₀ (execRallyTimer n t s) := by
  unfold execRallyTimer
  try dsimp only
  repeat' first
    | with_reducible first
      | apply KeepsRes.next | apply KeepsRes.ite
    | intro _
    | with_reducible first
      | assumption | apply Keeps.ite | apply nmRelease_keeps | apply sendRally_keeps | apply State.modNm_keeps
      | apply State.at_keeps | fail_if_no_progress refine Keeps.upd ?_
    | split

theorem nmPrepare_keeps (n : Nat) (s : State) (hk : Keeps fl s₀ s) :
    Keeps fl s₀ (nmPrepare n s) := by
  unfold nmPrepare
  try dsimp only
  repeat' first
    | intro _
    | with_reducible first
      | assumption | apply State.modNm_keeps | apply State.put_keeps | fail_if_no_progress refine Keeps.upd ?_
    | split

theorem execNetworkTimerExpiry_keeps (n : Fin 13) (t : Nat) (s : State) (hk : Keeps fl s₀ s) :
    KeepsRes fl s₀ (execNetworkTimerExpiry n t s) := by
  unfold execNetworkTimerExpiry
  try dsimp only
  repeat' first
    | with_reducible first
      | apply KeepsRes.next | apply KeepsRes.ite
    | intro _
    | with_reducible first
      | assumption | apply Keeps.ite | apply nmPrepare_keeps | apply State.at_keeps | fail_if_no_progress refine Keeps.upd ?_
    | split

theorem execPrepareSleepExpiry_keeps (n : Fin 13) (t : Nat) (s : State) (hk : Keeps fl s₀ s) :
    KeepsRes fl s₀ (execPrepareSleepExpiry n t s) := by
  unfold execPrepareSleepExpiry
  try dsimp only
  repeat' first
    | with_reducible first
      | apply KeepsRes.next | apply KeepsRes.ite
    | intro _
    | with_reducible first
      | assumption | apply Keeps.ite | apply State.modNm_keeps | apply State.at_keeps | fail_if_no_progress refine Keeps.upd ?_
    | split

theorem execBusLeave_keeps (n : Fin 13) (t : Nat) (s : State) (hk : Keeps fl s₀ s) :
    KeepsRes fl s₀ (execBusLeave n t s) := by
  unfold execBusLeave
  try dsimp only
  repeat' first
    | with_reducible first
      | apply KeepsRes.next | apply KeepsRes.ite
    | intro _
    | with_reducible first
      | assumption | apply Keeps.ite | apply nmSleep_keeps | apply State.at_keeps | fail_if_no_progress refine Keeps.upd ?_
    | split

theorem busWake_keeps (n : Nat) (k : WakeKind) (s : State) (hk : Keeps fl s₀ s) :
    Keeps fl s₀ (busWake n k s) := by
  unfold busWake
  try dsimp only
  repeat' first
    | intro _
    | with_reducible first
      | assumption | apply Keeps.ite | apply nmDepart_keeps | apply State.modNm_keeps | apply State.flag_keeps
      | apply State.put_keeps | fail_if_no_progress refine Keeps.upd ?_
    | refine Keeps.ofPair (by assumption) ?_ | split

theorem execBusWake_keeps (n : Fin 13) (k : WakeKind) (t : Nat) (s : State) (hk : Keeps fl s₀ s) :
    KeepsRes fl s₀ (execBusWake n k t s) := by
  unfold execBusWake
  try dsimp only
  repeat' first
    | with_reducible first
      | apply KeepsRes.next | apply KeepsRes.ite
    | intro _
    | with_reducible first
      | assumption | apply Keeps.ite | apply busWake_keeps | apply State.at_keeps | fail_if_no_progress refine Keeps.upd ?_
    | split

theorem execWakeUpFrame_keeps (n : Fin 6) (t : Nat) (ok : Bool) (f : BusFrame) (s : State) (hk : Keeps fl s₀ s) :
    KeepsRes fl s₀ (execWakeUpFrame n t ok f s) := by
  unfold execWakeUpFrame
  try dsimp only
  repeat' first
    | with_reducible first
      | apply KeepsRes.next | apply KeepsRes.ite
    | intro _
    | with_reducible first
      | assumption | apply Keeps.ite | apply busWake_keeps | apply State.at_keeps | apply State.put_keeps
      | fail_if_no_progress refine Keeps.upd ?_
    | split

theorem execFalseWake_keeps (n : Fin 13) (t : Nat) (s : State) (hk : Keeps fl s₀ s) :
    KeepsRes fl s₀ (execFalseWake n t s) := by
  unfold execFalseWake
  try dsimp only
  repeat' first
    | with_reducible first
      | apply KeepsRes.next | apply KeepsRes.ite
    | intro _
    | with_reducible first
      | assumption | apply Keeps.ite | apply nmPrepare_keeps | apply State.at_keeps | apply State.flag_keeps
      | apply State.put_keeps | fail_if_no_progress refine Keeps.upd ?_
    | split

theorem nmForeignWake_keeps (nets : List Nat) (s : State) (hk : Keeps fl s₀ s) :
    Keeps fl s₀ (nmForeignWake nets s) := by
  unfold nmForeignWake
  try dsimp only
  repeat' first
    | intro _
    | with_reducible first
      | assumption | apply Keeps.ite | apply overN_keeps | apply State.flag_keeps | apply State.put_keeps
    | split

theorem canInitClear_keeps (n : Nat) (s : State) (hk : Keeps fl s₀ s) :
    Keeps fl s₀ (canInitClear n s) := by
  unfold canInitClear
  try dsimp only
  repeat' first
    | intro _
    | with_reducible first
      | assumption | apply Keeps.ite | apply report_keeps | apply canGo_keeps | apply State.flag_keeps
    | split

theorem execInitClear_keeps (n : Fin 13) (s : State) (hk : Keeps fl s₀ s) :
    KeepsRes fl s₀ (execInitClear n s) := by
  unfold execInitClear
  try dsimp only
  repeat' first
    | with_reducible first
      | apply KeepsRes.next | apply KeepsRes.ite
    | intro _
    | with_reducible first
      | assumption | apply Keeps.ite | apply canInitClear_keeps
    | split

theorem canInitSet_keeps (n : Nat) (s : State) (hk : Keeps fl s₀ s) :
    Keeps fl s₀ (canInitSet n s) := by
  unfold canInitSet
  try dsimp only
  repeat' first
    | intro _
    | with_reducible first
      | assumption | apply Keeps.ite | apply canGo_keeps | apply State.flag_keeps | fail_if_no_progress refine Keeps.upd ?_
    | split

theorem execInitSet_keeps (n : Fin 13) (s : State) (hk : Keeps fl s₀ s) :
    KeepsRes fl s₀ (execInitSet n s) := by
  unfold execInitSet
  try dsimp only
  repeat' first
    | with_reducible first
      | apply KeepsRes.next | apply KeepsRes.ite
    | intro _
    | with_reducible first
      | assumption | apply Keeps.ite | apply canInitSet_keeps
    | split

theorem execRomSet_keeps (n : Fin 13) (s : State) (hk : Keeps fl s₀ s) :
    KeepsRes fl s₀ (execRomSet n s) := by
  unfold execRomSet
  try dsimp only
  repeat' first
    | with_reducible first
      | apply KeepsRes.next | apply KeepsRes.ite
    | intro _
    | with_reducible first
      | assumption | apply Keeps.ite | apply State.flag_keeps
    | split

theorem canRomClear_keeps (n : Nat) (s : State) (hk : Keeps fl s₀ s) :
    Keeps fl s₀ (canRomClear n s) := by
  unfold canRomClear
  try dsimp only
  repeat' first
    | intro _
    | with_reducible first
      | assumption | apply Keeps.ite | apply canGo_keeps | apply State.flag_keeps | fail_if_no_progress refine Keeps.upd ?_
    | split

theorem execRomClear_keeps (n : Fin 13) (s : State) (hk : Keeps fl s₀ s) :
    KeepsRes fl s₀ (execRomClear n s) := by
  unfold execRomClear
  try dsimp only
  repeat' first
    | with_reducible first
      | apply KeepsRes.next | apply KeepsRes.ite
    | intro _
    | with_reducible first
      | assumption | apply Keeps.ite | apply canRomClear_keeps
    | split

theorem execBusIdle_keeps (n : Fin 13) (t : Nat) (s : State) (hk : Keeps fl s₀ s) :
    KeepsRes fl s₀ (execBusIdle n t s) := by
  unfold execBusIdle
  try dsimp only
  repeat' first
    | with_reducible first
      | apply KeepsRes.next | apply KeepsRes.ite
    | intro _
    | with_reducible first
      | assumption | apply Keeps.ite | apply cutTx_keeps | apply canGo_keeps | apply State.modCan_keeps | apply State.at_keeps
      | fail_if_no_progress refine Keeps.upd ?_
    | split

theorem canRecover_keeps (n : Nat) (s : State) (hk : Keeps fl s₀ s) :
    Keeps fl s₀ (canRecover n s) := by
  unfold canRecover
  try dsimp only
  repeat' first
    | intro _
    | with_reducible first
      | assumption | apply Keeps.ite | apply canGo_keeps | apply State.put_keeps
    | split

theorem execRecover_keeps (n : Fin 13) (s : State) (hk : Keeps fl s₀ s) :
    KeepsRes fl s₀ (execRecover n s) := by
  unfold execRecover
  try dsimp only
  repeat' first
    | with_reducible first
      | apply KeepsRes.next | apply KeepsRes.ite
    | intro _
    | with_reducible first
      | assumption | apply Keeps.ite | apply canRecover_keeps
    | split

theorem execIntegrationComplete_keeps (n : Fin 13) (t : Nat) (s : State) (hk : Keeps fl s₀ s) :
    KeepsRes fl s₀ (execIntegrationComplete n t s) := by
  unfold execIntegrationComplete
  try dsimp only
  repeat' first
    | with_reducible first
      | apply KeepsRes.next | apply KeepsRes.ite
    | intro _
    | with_reducible first
      | assumption | apply Keeps.ite | apply canJoin_keeps | apply State.modCan_keeps | apply State.at_keeps
      | fail_if_no_progress refine Keeps.upd ?_
    | split

theorem execRecoveryComplete_keeps (n : Fin 13) (t : Nat) (s : State) (hk : Keeps fl s₀ s) :
    KeepsRes fl s₀ (execRecoveryComplete n t s) := by
  unfold execRecoveryComplete
  try dsimp only
  repeat' first
    | with_reducible first
      | apply KeepsRes.next | apply KeepsRes.ite
    | intro _
    | with_reducible first
      | assumption | apply Keeps.ite | apply canGo_keeps | apply State.at_keeps | apply State.put_keeps
      | fail_if_no_progress refine Keeps.upd ?_
    | split

theorem popTx_keeps (n : Nat) (s : State) (hk : Keeps fl s₀ s) :
    Keeps fl s₀ (popTx n s) := by
  unfold popTx
  try dsimp only
  repeat' first
    | intro _
    | with_reducible first
      | assumption | apply State.modCan_keeps | fail_if_no_progress refine Keeps.upd ?_
    | refine Keeps.ofPair (by assumption) ?_ | split

theorem txFail_keeps (n : Nat) (s : State) (hk : Keeps fl s₀ s) :
    Keeps fl s₀ (txFail n s) := by
  unfold txFail
  try dsimp only
  repeat' first
    | intro _
    | with_reducible first
      | assumption | apply Keeps.ite | apply popTx_keeps | apply txRecord_keeps | apply cutTx_keeps
      | fail_if_no_progress refine Keeps.upd ?_
    | refine Keeps.ofPair (by assumption) ?_ | split

theorem countError_keeps (n : Nat) (tx : Bool) (k : Nat) (s : State) (hk : Keeps fl s₀ s) :
    Keeps fl s₀ (countError n tx k s) := by
  unfold countError
  try dsimp only
  repeat' first
    | intro _
    | with_reducible first
      | assumption | apply Keeps.ite | apply State.put_keeps
    | split

theorem busError_keeps (n code : Nat) (tx dataPhase : Bool) (k : Nat) (s : State) (hk : Keeps fl s₀ s) :
    Keeps fl s₀ (busError n code tx dataPhase k s) := by
  unfold busError
  try dsimp only
  repeat' first
    | intro _
    | with_reducible first
      | assumption | apply Keeps.ite | apply countError_keeps | apply txFail_keeps | apply canLevel_keeps
      | apply State.put_keeps | fail_if_no_progress refine Keeps.upd ?_
    | split

theorem execBusError_keeps (n : Fin 13) (t : Nat) (tx : Bool) (code : Fin 7) (dataPhase : Bool) (weight : Fin 3) (s : State) (hk
    : Keeps fl s₀ s) :
    KeepsRes fl s₀ (execBusError n t tx code dataPhase weight s) := by
  unfold execBusError
  try dsimp only
  repeat' first
    | with_reducible first
      | apply KeepsRes.next | apply KeepsRes.ite
    | intro _
    | with_reducible first
      | assumption | apply Keeps.ite | apply busError_keeps | apply State.at_keeps | fail_if_no_progress refine Keeps.upd ?_
    | split

theorem execTxdDominantTimeout_keeps (n : Fin 13) (t : Nat) (s : State) (hk : Keeps fl s₀ s) :
    KeepsRes fl s₀ (execTxdDominantTimeout n t s) := by
  unfold execTxdDominantTimeout
  try dsimp only
  repeat' first
    | with_reducible first
      | apply KeepsRes.next | apply KeepsRes.ite
    | intro _
    | with_reducible first
      | assumption | apply Keeps.ite | apply report_keeps | apply State.at_keeps | fail_if_no_progress refine Keeps.upd ?_
    | split

theorem execTransceiverOverTemperature_keeps (l : Link) (t : Nat) (s : State) (hk : Keeps fl s₀ s) :
    KeepsRes fl s₀ (execTransceiverOverTemperature l t s) := by
  unfold execTransceiverOverTemperature
  try dsimp only
  repeat' first
    | with_reducible first
      | apply KeepsRes.next | apply KeepsRes.ite
    | intro _
    | with_reducible first
      | assumption | apply report_keeps | apply State.at_keeps | fail_if_no_progress refine Keeps.upd ?_
    | refine Keeps.ofPair (by assumption) ?_ | split

theorem holdEpisode_keeps (n : Nat) (s : State) (hk : Keeps fl s₀ s) :
    Keeps fl s₀ (holdEpisode n s) := by
  unfold holdEpisode
  try dsimp only
  repeat' first
    | intro _
    | with_reducible first
      | assumption | apply Keeps.ite | apply queueReport_keeps | apply State.setCan_keeps | apply State.flag_keeps
      | fail_if_no_progress refine Keeps.upd ?_
    | split

theorem startTx_keeps (n : Nat) (o : TxFrom) (s : State) (hk : Keeps fl s₀ s) :
    Keeps fl s₀ (startTx n o s) := by
  unfold startTx
  try dsimp only
  repeat' first
    | intro _
    | with_reducible first
      | assumption | apply State.setCan_keeps | fail_if_no_progress refine Keeps.upd ?_
    | refine Keeps.ofPair (by assumption) ?_ | split

theorem execTransmitStart_keeps (n : Fin 13) (t : Nat) (s : State) (hk : Keeps fl s₀ s) :
    KeepsRes fl s₀ (execTransmitStart n t s) := by
  unfold execTransmitStart
  try dsimp only
  repeat' first
    | with_reducible first
      | apply KeepsRes.next | apply KeepsRes.ite
    | intro _
    | with_reducible first
      | assumption | apply Keeps.ite | apply startTx_keeps | apply holdEpisode_keeps | apply State.at_keeps
      | fail_if_no_progress refine Keeps.upd ?_
    | refine Keeps.ofPair (by assumption) ?_ | split

theorem execFrameSent_keeps (n : Fin 13) (t : Nat) (tdcv : BitVec 7) (s : State) (hk : Keeps fl s₀ s) :
    KeepsRes fl s₀ (execFrameSent n t tdcv s) := by
  unfold execFrameSent
  try dsimp only
  repeat' first
    | with_reducible first
      | apply KeepsRes.next | apply KeepsRes.ite
    | intro _
    | with_reducible first
      | assumption | apply Keeps.ite | apply popTx_keeps | apply canLevel_keeps | apply txRecord_keeps
      | apply State.modCan_keeps | apply State.at_keeps | apply State.wrap_keeps | apply State.put_keeps
      | fail_if_no_progress refine Keeps.upd ?_
    | refine Keeps.ofPair (by assumption) ?_ | split

theorem execArbitrationLost_keeps (n : Fin 13) (t : Nat) (toRef : Bool) (s : State) (hk : Keeps fl s₀ s) :
    KeepsRes fl s₀ (execArbitrationLost n t toRef s) := by
  unfold execArbitrationLost
  try dsimp only
  repeat' first
    | with_reducible first
      | apply KeepsRes.next | apply KeepsRes.ite
    | intro _
    | with_reducible first
      | assumption | apply Keeps.ite | apply txFail_keeps | apply State.modCan_keeps | apply State.at_keeps
      | apply State.put_keeps | fail_if_no_progress refine Keeps.upd ?_
    | split

theorem execPush_keeps (n : Fin 13) (s : State) (hk : Keeps fl s₀ s) :
    KeepsRes fl s₀ (execPush n s) := by
  unfold execPush
  try dsimp only
  repeat' first
    | with_reducible first
      | apply KeepsRes.next | apply KeepsRes.ite
    | intro _
    | with_reducible first
      | assumption | apply Keeps.ite | apply canPush_keeps
    | split

theorem execUrgent_keeps (n : Fin 13) (s : State) (hk : Keeps fl s₀ s) :
    KeepsRes fl s₀ (execUrgent n s) := by
  unfold execUrgent
  try dsimp only
  repeat' first
    | with_reducible first
      | apply KeepsRes.next | apply KeepsRes.ite
    | intro _
    | with_reducible first
      | assumption | apply Keeps.ite | apply canUrgent_keeps
    | split

theorem execFifoFlush_keeps (n : Fin 13) (s : State) (hk : Keeps fl s₀ s) :
    KeepsRes fl s₀ (execFifoFlush n s) := by
  unfold execFifoFlush
  try dsimp only
  repeat' first
    | with_reducible first
      | apply KeepsRes.next | apply KeepsRes.ite
    | intro _
    | with_reducible first
      | assumption | apply Keeps.ite | apply canFlush_keeps
    | split

theorem execUrgAbort_keeps (n : Fin 13) (s : State) (hk : Keeps fl s₀ s) :
    KeepsRes fl s₀ (execUrgAbort n s) := by
  unfold execUrgAbort
  try dsimp only
  repeat' first
    | with_reducible first
      | apply KeepsRes.next | apply KeepsRes.ite
    | intro _
    | with_reducible first
      | assumption | apply Keeps.ite | apply canUrgAbort_keeps
    | split

theorem execMbPost_keeps (n : Fin 13) (b : Fin 128) (s : State) (hk : Keeps fl s₀ s) :
    KeepsRes fl s₀ (execMbPost n b s) := by
  unfold execMbPost
  try dsimp only
  repeat' first
    | with_reducible first
      | apply KeepsRes.next | apply KeepsRes.ite
    | intro _
    | with_reducible first
      | assumption | apply Keeps.ite | apply mbPost_keeps
    | split

theorem execRxAck_keeps (n : Fin 13) (b : Fin 128) (s : State) (hk : Keeps fl s₀ s) :
    KeepsRes fl s₀ (execRxAck n b s) := by
  unfold execRxAck
  try dsimp only
  repeat' first
    | with_reducible first
      | apply KeepsRes.next | apply KeepsRes.ite
    | intro _
    | with_reducible first
      | assumption | apply Keeps.ite | apply rxAck_keeps
    | split

theorem rxLost_keeps (n b : Nat) (s : State) (hk : Keeps fl s₀ s) :
    Keeps fl s₀ (rxLost n b s) := by
  unfold rxLost
  try dsimp only
  repeat' first
    | intro _
    | with_reducible first
      | assumption | apply mbWrite_keeps | apply State.setRxBuf_keeps | apply queueReport_keeps | apply State.wrap_keeps
      | apply State.flag_keeps | fail_if_no_progress refine Keeps.upd ?_
    | split

theorem rxStore_keeps (n b flt : Nat) (f : BusFrame) (s : State) (hk : Keeps fl s₀ s) :
    Keeps fl s₀ (rxStore n b flt f s) := by
  unfold rxStore
  try dsimp only
  repeat' first
    | intro _
    | with_reducible first
      | assumption | apply Keeps.ite | apply mbWrite_keeps | apply State.setRxBuf_keeps | apply State.setCan_keeps
      | apply State.setBytes_keeps | apply State.putBit_keeps | fail_if_no_progress refine Keeps.upd ?_ | apply Keeps.same
    | split

theorem rxRoute_keeps (n b flt : Nat) (f : BusFrame) (s : State) (hk : Keeps fl s₀ s) :
    Keeps fl s₀ (rxRoute n b flt f s) := by
  unfold rxRoute
  try dsimp only
  repeat' first
    | intro _
    | with_reducible first
      | assumption | apply Keeps.ite | apply rxStore_keeps | apply rxLost_keeps | apply State.setRxBuf_keeps
      | fail_if_no_progress refine Keeps.upd ?_
    | refine Keeps.ofPair (by assumption) ?_ | split

theorem rxFilter_keeps (n : Nat) (f : BusFrame) (s : State) (hk : Keeps fl s₀ s) :
    Keeps fl s₀ (rxFilter n f s) := by
  unfold rxFilter
  try dsimp only
  repeat' first
    | intro _
    | with_reducible first
      | assumption | apply Keeps.ite | apply rxRoute_keeps | apply State.wrap_keeps | fail_if_no_progress refine Keeps.upd ?_
    | refine Keeps.ofPair (by assumption) ?_ | split

theorem rxReference_keeps (n : Nat) (f : BusFrame) (s : State) (hk : Keeps fl s₀ s) :
    Keeps fl s₀ (rxReference n f s) := by
  unfold rxReference
  try dsimp only
  repeat' first
    | intro _
    | with_reducible first
      | assumption | apply Keeps.ite | apply State.modCan_keeps | apply State.setCan_keeps | apply State.put64_keeps
      | apply State.put_keeps | fail_if_no_progress refine Keeps.upd ?_
    | refine Keeps.ofPair (by assumption) ?_ | with_reducible apply Keeps.same | split

theorem rxGood_keeps (n : Nat) (s : State) (hk : Keeps fl s₀ s) :
    Keeps fl s₀ (rxGood n s) := by
  unfold rxGood
  try dsimp only
  repeat' first
    | intro _
    | with_reducible first
      | assumption | apply Keeps.ite | apply canLevel_keeps | apply State.draw_keeps | apply State.put_keeps
      | fail_if_no_progress refine Keeps.upd ?_
    | split

theorem rxFrame_keeps (n : Nat) (f : BusFrame) (s : State) (hk : Keeps fl s₀ s) :
    Keeps fl s₀ (rxFrame n f s) := by
  unfold rxFrame
  try dsimp only
  repeat' first
    | intro _
    | with_reducible first
      | assumption | apply Keeps.ite | apply rxGood_keeps | apply rxReference_keeps | apply rxFilter_keeps | apply nmRally_keeps
      | fail_if_no_progress refine Keeps.upd ?_
    | split

theorem execFrameReceive_keeps (n : Fin 13) (t : Nat) (f : BusFrame) (s : State) (hk : Keeps fl s₀ s) :
    KeepsRes fl s₀ (execFrameReceive n t f s) := by
  unfold execFrameReceive
  try dsimp only
  repeat' first
    | with_reducible first
      | apply KeepsRes.next | apply KeepsRes.ite
    | intro _
    | with_reducible first
      | assumption | apply Keeps.ite | apply rxFrame_keeps | apply busError_keeps | apply report_keeps
      | apply State.modCan_keeps | apply State.at_keeps | apply State.flag_keeps | fail_if_no_progress refine Keeps.upd ?_
    | split

theorem canRefEn_keeps (n : Nat) (en : Bool) (s : State) (hk : Keeps fl s₀ s) :
    Keeps fl s₀ (canRefEn n en s) := by
  unfold canRefEn
  try dsimp only
  repeat' first
    | intro _
    | with_reducible first
      | assumption | apply Keeps.ite | apply State.modCan_keeps | apply State.put_keeps
      | fail_if_no_progress refine Keeps.upd ?_
    | split

theorem execReferenceSlot_keeps (n : Fin 13) (t : Nat) (s : State) (hk : Keeps fl s₀ s) :
    KeepsRes fl s₀ (execReferenceSlot n t s) := by
  unfold execReferenceSlot
  try dsimp only
  repeat' first
    | with_reducible first
      | apply KeepsRes.next | apply KeepsRes.ite
    | intro _
    | with_reducible first
      | assumption | apply Keeps.ite | apply State.modCan_keeps | apply State.at_keeps | fail_if_no_progress refine Keeps.upd ?_
      | apply Keeps.same
    | split

theorem execRefMiss_keeps (n : Fin 13) (t : Nat) (s : State) (hk : Keeps fl s₀ s) :
    KeepsRes fl s₀ (execRefMiss n t s) := by
  unfold execRefMiss
  try dsimp only
  repeat' first
    | with_reducible first
      | apply KeepsRes.next | apply KeepsRes.ite
    | intro _
    | with_reducible first
      | assumption | apply Keeps.ite | apply report_keeps | apply State.setCan_keeps | apply State.at_keeps
      | apply State.flag_keeps | apply State.put_keeps | fail_if_no_progress refine Keeps.upd ?_
    | split

theorem State.setLin_keeps (s : State) (m : Nat) (x : Lin) (hk : Keeps fl s₀ s) :
    Keeps fl s₀ (State.setLin s m x) := by
  unfold State.setLin
  try dsimp only
  repeat' first
    | intro _
    | with_reducible first
      | assumption | fail_if_no_progress refine Keeps.upd ?_
    | split

theorem State.setEth_keeps (s : State) (e : Nat) (x : Eth) (hk : Keeps fl s₀ s) :
    Keeps fl s₀ (State.setEth s e x) := by
  unfold State.setEth
  try dsimp only
  repeat' first
    | intro _
    | with_reducible first
      | assumption | fail_if_no_progress refine Keeps.upd ?_
    | split

theorem State.setSent_keeps (s : State) (r : Nat) (x : Sent) (hk : Keeps fl s₀ s) :
    Keeps fl s₀ (State.setSent s r x) := by
  unfold State.setSent
  try dsimp only
  repeat' first
    | intro _
    | with_reducible first
      | assumption | fail_if_no_progress refine Keeps.upd ?_
    | split

theorem linStart_keeps (m : Nat) (s : State) (hk : Keeps fl s₀ s) :
    Keeps fl s₀ (linStart m s) := by
  unfold linStart
  try dsimp only
  repeat' first
    | intro _
    | with_reducible first
      | assumption | apply State.setLin_keeps | apply State.put_keeps | fail_if_no_progress refine Keeps.upd ?_
    | split

theorem linEnable_keeps (m : Nat) (en : Bool) (s : State) (hk : Keeps fl s₀ s) :
    Keeps fl s₀ (linEnable m en s) := by
  unfold linEnable
  try dsimp only
  repeat' first
    | intro _
    | with_reducible first
      | assumption | apply Keeps.ite | apply linStart_keeps | apply State.setLin_keeps | apply State.flag_keeps
      | apply State.put_keeps | fail_if_no_progress refine Keeps.upd ?_
    | split

theorem linError_keeps (m code : Nat) (s : State) (hk : Keeps fl s₀ s) :
    Keeps fl s₀ (linError m code s) := by
  unfold linError
  try dsimp only
  repeat' first
    | intro _
    | with_reducible first
      | assumption | apply Keeps.ite | apply State.setLin_keeps | apply report_keeps | apply State.wrap_keeps
      | apply State.put_keeps | fail_if_no_progress refine Keeps.upd ?_
    | split

theorem linRunSlot_keeps (m base k : Nat) (s : State) (hk : Keeps fl s₀ s) :
    Keeps fl s₀ (linRunSlot m base k s) := by
  unfold linRunSlot
  try dsimp only
  repeat' first
    | intro _
    | with_reducible first
      | assumption | apply Keeps.ite | apply State.setLin_keeps | fail_if_no_progress refine Keeps.upd ?_ | apply Keeps.same
    | split

theorem execLinSlot_keeps (m : Fin 6) (t : Nat) (s : State) (hk : Keeps fl s₀ s) :
    KeepsRes fl s₀ (execLinSlot m t s) := by
  unfold execLinSlot
  try dsimp only
  repeat' first
    | with_reducible first
      | apply KeepsRes.next | apply KeepsRes.ite
    | intro _
    | with_reducible first
      | assumption | apply Keeps.ite | apply linRunSlot_keeps | apply State.setLin_keeps | apply report_keeps
      | apply State.at_keeps | apply State.flag_keeps | fail_if_no_progress refine Keeps.upd ?_
    | split

theorem linWrite_keeps (m id result : Nat) (data : List Byte) (s : State) (hk : Keeps fl s₀ s) :
    Keeps fl s₀ (linWrite m id result data s) := by
  unfold linWrite
  try dsimp only
  repeat' first
    | intro _
    | with_reducible first
      | assumption | apply Keeps.ite | apply State.setBytes_keeps | apply State.setWordN_keeps
      | fail_if_no_progress refine Keeps.upd ?_ | apply Keeps.same
    | split

theorem execLinFrame_keeps (m : Fin 6) (t : Nat) (result : Fin 8) (data : List Byte) (s : State) (hk : Keeps fl s₀ s) :
    KeepsRes fl s₀ (execLinFrame m t result data s) := by
  unfold execLinFrame
  try dsimp only
  repeat' first
    | with_reducible first
      | apply KeepsRes.next | apply KeepsRes.ite
    | intro _
    | with_reducible first
      | assumption | apply Keeps.ite | apply linWrite_keeps | apply linError_keeps | apply State.setLin_keeps
      | apply State.at_keeps | apply State.put_keeps | fail_if_no_progress refine Keeps.upd ?_
    | refine Keeps.ofPair (by assumption) ?_ | with_reducible apply Keeps.same | split

theorem execLinBreak_keeps (m : Fin 6) (t : Nat) (dominant rate : Nat) (id : BitVec 6) (parity : Bool) (s : State) (hk : Keeps fl
    s₀ s) :
    KeepsRes fl s₀ (execLinBreak m t dominant rate id parity s) := by
  unfold execLinBreak
  try dsimp only
  repeat' first
    | with_reducible first
      | apply KeepsRes.next | apply KeepsRes.ite
    | intro _
    | with_reducible first
      | assumption | apply Keeps.ite | apply linError_keeps | apply State.setLin_keeps | apply State.at_keeps
      | fail_if_no_progress refine Keeps.upd ?_ | apply Keeps.same
    | split

theorem execLinInactivity_keeps (m : Fin 6) (t : Nat) (s : State) (hk : Keeps fl s₀ s) :
    KeepsRes fl s₀ (execLinInactivity m t s) := by
  unfold execLinInactivity
  try dsimp only
  repeat' first
    | with_reducible first
      | apply KeepsRes.next | apply KeepsRes.ite
    | intro _
    | with_reducible first
      | assumption | apply Keeps.ite | apply State.setLin_keeps | apply State.at_keeps | apply State.put_keeps
      | fail_if_no_progress refine Keeps.upd ?_
    | split

theorem linWake_keeps (m : Nat) (s : State) (hk : Keeps fl s₀ s) :
    Keeps fl s₀ (linWake m s) := by
  unfold linWake
  try dsimp only
  repeat' first
    | intro _
    | with_reducible first
      | assumption | apply Keeps.ite | apply linStart_keeps | apply State.setLin_keeps | fail_if_no_progress refine Keeps.upd ?_
    | split

theorem execLinWake_keeps (m : Fin 6) (t : Nat) (s : State) (hk : Keeps fl s₀ s) :
    KeepsRes fl s₀ (execLinWake m t s) := by
  unfold execLinWake
  try dsimp only
  repeat' first
    | with_reducible first
      | apply KeepsRes.next | apply KeepsRes.ite
    | intro _
    | with_reducible first
      | assumption | apply Keeps.ite | apply linWake_keeps | apply State.at_keeps | fail_if_no_progress refine Keeps.upd ?_
    | split

theorem execWakeRx_keeps (m : Fin 6) (t dur : Nat) (s : State) (hk : Keeps fl s₀ s) :
    KeepsRes fl s₀ (execWakeRx m t dur s) := by
  unfold execWakeRx
  try dsimp only
  repeat' first
    | with_reducible first
      | apply KeepsRes.next | apply KeepsRes.ite
    | intro _
    | with_reducible first
      | assumption | apply Keeps.ite | apply linStart_keeps | apply State.at_keeps | apply State.flag_keeps
      | fail_if_no_progress refine Keeps.upd ?_
    | split

theorem execLinDominantTimeout_keeps (m : Fin 6) (t : Nat) (s : State) (hk : Keeps fl s₀ s) :
    KeepsRes fl s₀ (execLinDominantTimeout m t s) := by
  unfold execLinDominantTimeout
  try dsimp only
  repeat' first
    | with_reducible first
      | apply KeepsRes.next | apply KeepsRes.ite
    | intro _
    | with_reducible first
      | assumption | apply Keeps.ite | apply report_keeps | apply State.at_keeps | fail_if_no_progress refine Keeps.upd ?_
    | split

theorem execEthTxPush_keeps (e : Fin 2) (s : State) (hk : Keeps fl s₀ s) :
    KeepsRes fl s₀ (execEthTxPush e s) := by
  unfold execEthTxPush
  try dsimp only
  repeat' first
    | with_reducible first
      | apply KeepsRes.next | apply KeepsRes.ite
    | intro _
    | with_reducible first
      | assumption | apply Keeps.ite | apply State.setEth_keeps | fail_if_no_progress refine Keeps.upd ?_
    | split

theorem execEthFrameSent_keeps (e : Fin 2) (t ts : Nat) (s : State) (hk : Keeps fl s₀ s) :
    KeepsRes fl s₀ (execEthFrameSent e t ts s) := by
  unfold execEthFrameSent
  try dsimp only
  repeat' first
    | with_reducible first
      | apply KeepsRes.next | apply KeepsRes.ite
    | intro _
    | with_reducible first
      | assumption | apply Keeps.ite | apply State.setEth_keeps | apply State.setWords_keeps | apply State.at_keeps
      | fail_if_no_progress refine Keeps.upd ?_
    | split

theorem ethDrop_keeps (e : Nat) (s : State) (hk : Keeps fl s₀ s) :
    Keeps fl s₀ (ethDrop e s) := by
  unfold ethDrop
  try dsimp only
  repeat' first
    | intro _
    | with_reducible first
      | assumption | apply Keeps.ite | apply State.setEth_keeps | apply report_keeps | apply State.wrap_keeps
      | fail_if_no_progress refine Keeps.upd ?_
    | split

theorem ethStore_keeps (e ts : Nat) (l : List Byte) (s : State) (hk : Keeps fl s₀ s) :
    Keeps fl s₀ (ethStore e ts l s) := by
  unfold ethStore
  try dsimp only
  repeat' first
    | intro _
    | with_reducible first
      | assumption | apply Keeps.ite | apply ethDrop_keeps | apply State.setEth_keeps | apply State.setBytes_keeps
      | apply State.setWords_keeps | fail_if_no_progress refine Keeps.upd ?_
    | split

theorem execEthFrameReceive_keeps (e : Fin 2) (t ts : Nat) (bytes : List Byte) (s : State) (hk : Keeps fl s₀ s) :
    KeepsRes fl s₀ (execEthFrameReceive e t ts bytes s) := by
  unfold execEthFrameReceive
  try dsimp only
  repeat' first
    | with_reducible first
      | apply KeepsRes.next | apply KeepsRes.ite
    | intro _
    | with_reducible first
      | assumption | apply Keeps.ite | apply ethStore_keeps | apply State.at_keeps | fail_if_no_progress refine Keeps.upd ?_
    | split

theorem ethDown_keeps (e : Nat) (s : State) (hk : Keeps fl s₀ s) :
    Keeps fl s₀ (ethDown e s) := by
  unfold ethDown
  try dsimp only
  repeat' first
    | intro _
    | with_reducible first
      | assumption | apply State.setEth_keeps | apply State.flag_keeps | fail_if_no_progress refine Keeps.upd ?_
    | split

theorem execEthLinkLost_keeps (e : Fin 2) (t : Nat) (s : State) (hk : Keeps fl s₀ s) :
    KeepsRes fl s₀ (execEthLinkLost e t s) := by
  unfold execEthLinkLost
  try dsimp only
  repeat' first
    | with_reducible first
      | apply KeepsRes.next | apply KeepsRes.ite
    | intro _
    | with_reducible first
      | assumption | apply Keeps.ite | apply ethDown_keeps | apply report_keeps | apply State.at_keeps
      | fail_if_no_progress refine Keeps.upd ?_
    | split

theorem execEthLinkUp_keeps (e : Fin 2) (t : Nat) (sqi : BitVec 3) (s : State) (hk : Keeps fl s₀ s) :
    KeepsRes fl s₀ (execEthLinkUp e t sqi s) := by
  unfold execEthLinkUp
  try dsimp only
  repeat' first
    | with_reducible first
      | apply KeepsRes.next | apply KeepsRes.ite
    | intro _
    | with_reducible first
      | assumption | apply Keeps.ite | apply State.at_keeps | apply State.flag_keeps | apply State.put_keeps
      | fail_if_no_progress refine Keeps.upd ?_
    | split

theorem sentError_keeps (r code : Nat) (s : State) (hk : Keeps fl s₀ s) :
    Keeps fl s₀ (sentError r code s) := by
  unfold sentError
  try dsimp only
  repeat' first
    | intro _
    | with_reducible first
      | assumption | apply State.wrap_keeps | apply State.put_keeps
    | split

theorem sentYaw_keeps (r ts nib : Nat) (s : State) (hk : Keeps fl s₀ s) :
    Keeps fl s₀ (sentYaw r ts nib s) := by
  unfold sentYaw
  try dsimp only
  repeat' first
    | intro _
    | with_reducible first
      | assumption | apply Keeps.ite | fail_if_no_progress refine Keeps.upd ?_
    | refine Keeps.ofPair (by assumption) ?_ | split

theorem sentSerial_keeps (r : Nat) (m : SentSerial) (s : State) (hk : Keeps fl s₀ s) :
    Keeps fl s₀ (sentSerial r m s) := by
  unfold sentSerial
  try dsimp only
  repeat' first
    | intro _
    | with_reducible first
      | assumption | apply Keeps.ite | apply sentError_keeps | apply State.wrap_keeps | apply State.put_keeps
      | fail_if_no_progress refine Keeps.upd ?_ | apply Keeps.same
    | split

theorem sentBad_keeps (r code : Nat) (s : State) (hk : Keeps fl s₀ s) :
    Keeps fl s₀ (sentBad r code s) := by
  unfold sentBad
  try dsimp only
  repeat' first
    | intro _
    | with_reducible first
      | assumption | apply Keeps.ite | apply sentError_keeps | apply State.setSent_keeps | apply report_keeps
      | fail_if_no_progress refine Keeps.upd ?_
    | split

theorem execSentFrame_keeps (r : Fin 10) (t edge cal : Nat) (nibs : List Nat) (crc : Bool) (ser : Option SentSerial) (s : State)
    (hk : Keeps fl s₀ s) :
    KeepsRes fl s₀ (execSentFrame r t edge cal nibs crc ser s) := by
  unfold execSentFrame
  try dsimp only
  repeat' first
    | with_reducible first
      | apply KeepsRes.next | apply KeepsRes.ite
    | intro _
    | with_reducible first
      | assumption | apply Keeps.ite | apply sentBad_keeps | apply sentSerial_keeps | apply sentYaw_keeps
      | apply State.setSent_keeps | apply State.at_keeps | apply State.wrap_keeps | apply State.put_keeps
      | fail_if_no_progress refine Keeps.upd ?_
    | refine Keeps.ofPair (by assumption) ?_ | split

theorem execSentSilence_keeps (r : Fin 10) (t : Nat) (s : State) (hk : Keeps fl s₀ s) :
    KeepsRes fl s₀ (execSentSilence r t s) := by
  unfold execSentSilence
  try dsimp only
  repeat' first
    | with_reducible first
      | apply KeepsRes.next | apply KeepsRes.ite
    | intro _
    | with_reducible first
      | assumption | apply Keeps.ite | apply State.setSent_keeps | apply report_keeps | apply State.at_keeps
      | fail_if_no_progress refine Keeps.upd ?_
    | split

theorem uartOvf_keeps (u : Nat) (f : Fld) (s : State) (hk : Keeps fl s₀ s) :
    Keeps fl s₀ (uartOvf u f s) := by
  unfold uartOvf
  try dsimp only
  repeat' first
    | intro _
    | with_reducible first
      | assumption | apply report_keeps | apply State.flag_keeps
    | split

theorem uartErrors_keeps (u : Nat) (pe fe : Bool) (s : State) (hk : Keeps fl s₀ s) :
    Keeps fl s₀ (uartErrors u pe fe s) := by
  unfold uartErrors
  try dsimp only
  repeat' first
    | intro _
    | with_reducible first
      | assumption | apply Keeps.ite | apply report_keeps | apply State.setUart_keeps | apply State.flag_keeps
      | fail_if_no_progress refine Keeps.upd ?_
    | split

theorem execUartRxByte_keeps (u : Fin 4) (t : Nat) (b : Byte) (pe fe : Bool) (s : State) (hk : Keeps fl s₀ s) :
    KeepsRes fl s₀ (execUartRxByte u t b pe fe s) := by
  unfold execUartRxByte
  try dsimp only
  repeat' first
    | with_reducible first
      | apply KeepsRes.next | apply KeepsRes.ite
    | intro _
    | with_reducible first
      | assumption | apply Keeps.ite | apply uartErrors_keeps | apply uartOvf_keeps | apply State.setUart_keeps
      | apply State.at_keeps | fail_if_no_progress refine Keeps.upd ?_
    | split

theorem uartTake_keeps (u : Nat) (s : State) (hk : Keeps fl s₀ s) :
    Keeps fl s₀ (uartTake u s) := by
  unfold uartTake
  try dsimp only
  repeat' first
    | intro _
    | with_reducible first
      | assumption | apply State.setUart_keeps | fail_if_no_progress refine Keeps.upd ?_
    | split

theorem execUartRxd_keeps (u : Fin 4) (s : State) (hk : Keeps fl s₀ s) :
    KeepsRes fl s₀ (execUartRxd u s) := by
  unfold execUartRxd
  try dsimp only
  repeat' first
    | with_reducible first
      | apply KeepsRes.next | apply KeepsRes.ite
    | intro _
    | with_reducible first
      | assumption | apply uartTake_keeps
    | split

theorem uartSend_keeps (u n : Nat) (b : Nat) (s : State) (hk : Keeps fl s₀ s) :
    Keeps fl s₀ (uartSend u n b s) := by
  unfold uartSend
  try dsimp only
  repeat' first
    | intro _
    | with_reducible first
      | assumption | apply Keeps.ite | apply uartOvf_keeps | apply State.setUart_keeps | fail_if_no_progress refine Keeps.upd ?_
    | split

theorem execUartTxd_keeps (u : Fin 4) (n : Fin 4) (b : BitVec 24) (t : Nat) (s : State) (hk : Keeps fl s₀ s) :
    KeepsRes fl s₀ (execUartTxd u n b t s) := by
  unfold execUartTxd
  try dsimp only
  repeat' first
    | with_reducible first
      | apply KeepsRes.next | apply KeepsRes.ite
    | intro _
    | with_reducible first
      | assumption | apply uartSend_keeps | apply State.at_keeps
    | split

theorem execUartIdle_keeps (u : Fin 4) (t : Nat) (s : State) (hk : Keeps fl s₀ s) :
    KeepsRes fl s₀ (execUartIdle u t s) := by
  unfold execUartIdle
  try dsimp only
  repeat' first
    | with_reducible first
      | apply KeepsRes.next | apply KeepsRes.ite
    | intro _
    | with_reducible first
      | assumption | apply Keeps.ite | apply State.setUart_keeps | apply State.at_keeps | apply State.put64_keeps
      | apply State.wrap_keeps | fail_if_no_progress refine Keeps.upd ?_
    | refine Keeps.ofPair (by assumption) ?_ | split

theorem execUartPps_keeps (u : Fin 4) (t : Nat) (s : State) (hk : Keeps fl s₀ s) :
    KeepsRes fl s₀ (execUartPps u t s) := by
  unfold execUartPps
  try dsimp only
  repeat' first
    | with_reducible first
      | apply KeepsRes.next | apply KeepsRes.ite
    | intro _
    | with_reducible first
      | assumption | apply Keeps.ite | apply State.at_keeps | apply State.put64_keeps | apply State.wrap_keeps
      | fail_if_no_progress refine Keeps.upd ?_
    | split

theorem countFailure_keeps (s : State) (hk : Keeps fl s₀ s) :
    Keeps fl s₀ (countFailure s) := by
  unfold countFailure
  try dsimp only
  repeat' first
    | intro _
    | with_reducible first
      | assumption | apply Keeps.ite | apply report_keeps | fail_if_no_progress refine Keeps.upd ?_
    | split

theorem State.setPad_keeps (s : State) (e : Nat) (p : Pad) (hk : Keeps fl s₀ s) :
    Keeps fl s₀ (State.setPad s e p) := by
  unfold State.setPad
  try dsimp only
  repeat' first
    | intro _
    | with_reducible first
      | assumption | fail_if_no_progress refine Keeps.upd ?_
    | split

theorem State.setExch_keeps (s : State) (x : Option Exchange) (hk : Keeps fl s₀ s) :
    Keeps fl s₀ (State.setExch s x) := by
  unfold State.setExch
  try dsimp only
  repeat' first
    | intro _
    | with_reducible first
      | assumption | fail_if_no_progress refine Keeps.upd ?_
    | split

theorem startExchange_keeps (zone : Nat) (touch : Option Nat) (s : State) (hk : Keeps fl s₀ s) :
    Keeps fl s₀ (startExchange zone touch s) := by
  unfold startExchange
  try dsimp only
  repeat' first
    | intro _
    | with_reducible first
      | assumption | apply State.setExch_keeps | apply State.draw_keeps | fail_if_no_progress refine Keeps.upd ?_
    | split

theorem pendRequest_keeps (zone : Nat) (s : State) (hk : Keeps fl s₀ s) :
    Keeps fl s₀ (pendRequest zone s) := by
  unfold pendRequest
  try dsimp only
  repeat' first
    | intro _
    | with_reducible first
      | assumption | fail_if_no_progress refine Keeps.upd ?_
    | split

theorem lockedRequest_keeps (zone : Nat) (s : State) (hk : Keeps fl s₀ s) :
    Keeps fl s₀ (lockedRequest zone s) := by
  unfold lockedRequest
  try dsimp only
  repeat' first
    | intro _
    | with_reducible first
      | assumption | apply State.put_keeps | fail_if_no_progress refine Keeps.upd ?_
    | split

theorem serveRequest_keeps (zone : Nat) (s : State) (hk : Keeps fl s₀ s) :
    Keeps fl s₀ (serveRequest zone s) := by
  unfold serveRequest
  try dsimp only
  repeat' first
    | intro _
    | with_reducible first
      | assumption | apply Keeps.ite | apply lockedRequest_keeps | apply pendRequest_keeps | apply startExchange_keeps
    | split

theorem startPending_keeps (s : State) (hk : Keeps fl s₀ s) :
    Keeps fl s₀ (startPending s) := by
  unfold startPending
  try dsimp only
  repeat' first
    | intro _
    | with_reducible first
      | assumption | apply Keeps.ite | apply serveRequest_keeps | fail_if_no_progress refine Keeps.upd ?_
    | refine Keeps.ofPair (by assumption) ?_ | split

theorem touchTrigger_keeps (e : Nat) (s : State) (hk : Keeps fl s₀ s) :
    Keeps fl s₀ (touchTrigger e s) := by
  unfold touchTrigger
  try dsimp only
  repeat' first
    | intro _
    | with_reducible first
      | assumption | apply Keeps.ite | apply pendRequest_keeps | apply startExchange_keeps
      | fail_if_no_progress refine Keeps.upd ?_
    | refine Keeps.ofPair (by assumption) ?_ | split

theorem execTouch_keeps (e : Fin 4) (t : Nat) (over' : List Nat) (s : State) (hk : Keeps fl s₀ s) :
    KeepsRes fl s₀ (execTouch e t over' s) := by
  unfold execTouch
  try dsimp only
  repeat' first
    | with_reducible first
      | apply KeepsRes.next | apply KeepsRes.ite
    | intro _
    | with_reducible first
      | assumption | apply Keeps.ite | apply touchTrigger_keeps | apply State.at_keeps | apply State.putBit_keeps
      | fail_if_no_progress refine Keeps.upd ?_
    | split

theorem execGo_keeps (zone : Fin 4) (t : Nat) (s : State) (hk : Keeps fl s₀ s) :
    KeepsRes fl s₀ (execGo zone t s) := by
  unfold execGo
  try dsimp only
  repeat' first
    | with_reducible first
      | apply KeepsRes.next | apply KeepsRes.ite
    | intro _
    | with_reducible first
      | assumption | apply Keeps.ite | apply serveRequest_keeps | apply State.at_keeps | fail_if_no_progress refine Keeps.upd ?_
    | split

theorem putResult_keeps (result index zones zone strength : Nat) (s : State) (hk : Keeps fl s₀ s) :
    Keeps fl s₀ (putResult result index zones zone strength s) := by
  unfold putResult
  try dsimp only
  repeat' first
    | intro _
    | with_reducible first
      | assumption | apply State.wrap_keeps | apply State.put_keeps | fail_if_no_progress refine Keeps.upd ?_
    | split

theorem accLog_keeps (x : Exchange) (result index : Nat) (s : State) (hk : Keeps fl s₀ s) :
    Keeps fl s₀ (accLog x result index s) := by
  unfold accLog
  try dsimp only
  repeat' first
    | intro _
    | with_reducible first
      | assumption | apply Keeps.ite | apply State.put_keeps | fail_if_no_progress refine Keeps.upd ?_
    | split

theorem accSlot_keeps (x : Exchange) (k : Nat) (s : State) (hk : Keeps fl s₀ s) :
    Keeps fl s₀ (accSlot x k s) := by
  unfold accSlot
  try dsimp only
  repeat' first
    | intro _
    | with_reducible first
      | assumption | apply Keeps.ite | apply State.flag_keeps | apply State.put_keeps | fail_if_no_progress refine Keeps.upd ?_
    | split

theorem authenticate_keeps (zone : Nat) (s : State) (hk : Keeps fl s₀ s) :
    Keeps fl s₀ (authenticate zone s) := by
  unfold authenticate
  try dsimp only
  repeat' first
    | intro _
    | with_reducible first
      | assumption | apply Keeps.ite | apply gatesChanged_keeps | apply State.put_keeps
      | fail_if_no_progress refine Keeps.upd ?_
    | split

theorem touchSilent_keeps (e : Nat) (silent : Bool) (s : State) (hk : Keeps fl s₀ s) :
    Keeps fl s₀ (touchSilent e silent s) := by
  unfold touchSilent
  try dsimp only
  repeat' first
    | intro _
    | with_reducible first
      | assumption | apply Keeps.ite | apply State.setPad_keeps | apply report_keeps | apply State.putBit_keeps
      | fail_if_no_progress refine Keeps.upd ?_
    | split

theorem finishExchange_keeps (x : Exchange) (timeout : Bool) (s : State) (hk : Keeps fl s₀ s) :
    Keeps fl s₀ (finishExchange x timeout s) := by
  unfold finishExchange
  try dsimp only
  repeat' first
    | intro _
    | with_reducible first
      | assumption | apply Keeps.ite | apply Keeps.foldl | apply touchSilent_keeps | apply authenticate_keeps
      | apply accSlot_keeps | apply accLog_keeps | apply putResult_keeps | apply startPending_keeps | apply State.setExch_keeps
      | apply countFailure_keeps | apply report_keeps | apply overN_keeps | fail_if_no_progress refine Keeps.upd ?_
    | refine Keeps.ofPair (by assumption) ?_ | split

theorem startRechal_keeps (x : Exchange) (k b : Nat) (s : State) (hk : Keeps fl s₀ s) :
    Keeps fl s₀ (startRechal x k b s) := by
  unfold startRechal
  try dsimp only
  repeat' first
    | intro _
    | with_reducible first
      | assumption | apply State.setExch_keeps | apply State.draw_keeps | fail_if_no_progress refine Keeps.upd ?_
    | split

theorem nextRound_keeps (x : Exchange) (s : State) (hk : Keeps fl s₀ s) :
    Keeps fl s₀ (nextRound x s) := by
  unfold nextRound
  try dsimp only
  repeat' first
    | intro _
    | with_reducible first
      | assumption | apply Keeps.ite | apply startRechal_keeps | apply finishExchange_keeps | apply State.setExch_keeps
      | apply report_keeps | fail_if_no_progress refine Keeps.upd ?_
    | refine Keeps.ofPair (by assumption) ?_ | split

theorem endRechal_keeps (x : Exchange) (k b : Nat) (s : State) (hk : Keeps fl s₀ s) :
    Keeps fl s₀ (endRechal x k b s) := by
  unfold endRechal
  try dsimp only
  repeat' first
    | intro _
    | with_reducible first
      | assumption | apply Keeps.ite | apply nextRound_keeps | apply startRechal_keeps | fail_if_no_progress refine Keeps.upd ?_
    | split

theorem execReplySlotEnd_keeps (t : Nat) (c : SlotClass) (s : State) (hk : Keeps fl s₀ s) :
    KeepsRes fl s₀ (execReplySlotEnd t c s) := by
  unfold execReplySlotEnd
  try dsimp only
  repeat' first
    | with_reducible first
      | apply KeepsRes.next | apply KeepsRes.ite
    | intro _
    | with_reducible first
      | assumption | apply Keeps.ite | apply endRechal_keeps | apply nextRound_keeps | apply State.setExch_keeps
      | apply State.at_keeps | fail_if_no_progress refine Keeps.upd ?_
    | refine Keeps.ofPair (by assumption) ?_ | split

theorem execKeeperVerdict_keeps (t : Nat) (s : State) (hk : Keeps fl s₀ s) :
    KeepsRes fl s₀ (execKeeperVerdict t s) := by
  unfold execKeeperVerdict
  try dsimp only
  repeat' first
    | with_reducible first
      | apply KeepsRes.next | apply KeepsRes.ite
    | intro _
    | with_reducible first
      | assumption | apply Keeps.ite | apply finishExchange_keeps | apply State.setExch_keeps | apply report_keeps
      | apply State.at_keeps | fail_if_no_progress refine Keeps.upd ?_
    | refine Keeps.ofPair (by assumption) ?_ | split

theorem execKeeperTmo_keeps (t : Nat) (s : State) (hk : Keeps fl s₀ s) :
    KeepsRes fl s₀ (execKeeperTmo t s) := by
  unfold execKeeperTmo
  try dsimp only
  repeat' first
    | with_reducible first
      | apply KeepsRes.next | apply KeepsRes.ite
    | intro _
    | with_reducible first
      | assumption | apply Keeps.ite | apply finishExchange_keeps | apply State.at_keeps
      | fail_if_no_progress refine Keeps.upd ?_
    | refine Keeps.ofPair (by assumption) ?_ | split

theorem execLockoutEnd_keeps (t : Nat) (s : State) (hk : Keeps fl s₀ s) :
    KeepsRes fl s₀ (execLockoutEnd t s) := by
  unfold execLockoutEnd
  try dsimp only
  repeat' first
    | with_reducible first
      | apply KeepsRes.next | apply KeepsRes.ite
    | intro _
    | with_reducible first
      | assumption | apply Keeps.ite | apply State.at_keeps | fail_if_no_progress refine Keeps.upd ?_
    | split

theorem execLockoutSave_keeps (t : Nat) (s : State) (hk : Keeps fl s₀ s) :
    KeepsRes fl s₀ (execLockoutSave t s) := by
  unfold execLockoutSave
  try dsimp only
  repeat' first
    | with_reducible first
      | apply KeepsRes.next | apply KeepsRes.ite
    | intro _
    | with_reducible first
      | assumption | apply Keeps.ite | apply State.at_keeps | fail_if_no_progress refine Keeps.upd ?_
    | split

theorem execAuthHoldExpiry_keeps (t : Nat) (s : State) (hk : Keeps fl s₀ s) :
    KeepsRes fl s₀ (execAuthHoldExpiry t s) := by
  unfold execAuthHoldExpiry
  try dsimp only
  repeat' first
    | with_reducible first
      | apply KeepsRes.next | apply KeepsRes.ite
    | intro _
    | with_reducible first
      | assumption | apply Keeps.ite | apply State.at_keeps | fail_if_no_progress refine Keeps.upd ?_
    | split

theorem execImmoHoldExpiry_keeps (t : Nat) (s : State) (hk : Keeps fl s₀ s) :
    KeepsRes fl s₀ (execImmoHoldExpiry t s) := by
  unfold execImmoHoldExpiry
  try dsimp only
  repeat' first
    | with_reducible first
      | apply KeepsRes.next | apply KeepsRes.ite
    | intro _
    | with_reducible first
      | assumption | apply Keeps.ite | apply immoReport_keeps | apply immoFall_keeps | apply State.at_keeps
      | fail_if_no_progress refine Keeps.upd ?_
    | split

theorem execRevoke_keeps (s : State) (hk : Keeps fl s₀ s) :
    KeepsRes fl s₀ (execRevoke s) := by
  unfold execRevoke
  try dsimp only
  repeat' first
    | with_reducible first
      | apply KeepsRes.next | apply KeepsRes.ite
    | intro _
    | with_reducible first
      | assumption | apply immoReport_keeps | apply immoFall_keeps
    | split

theorem execTouchSuspendEnd_keeps (e : Fin 4) (t : Nat) (s : State) (hk : Keeps fl s₀ s) :
    KeepsRes fl s₀ (execTouchSuspendEnd e t s) := by
  unfold execTouchSuspendEnd
  try dsimp only
  repeat' first
    | with_reducible first
      | apply KeepsRes.next | apply KeepsRes.ite
    | intro _
    | with_reducible first
      | assumption | apply Keeps.ite | apply State.setPad_keeps | apply State.at_keeps | apply State.putBit_keeps
      | fail_if_no_progress refine Keeps.upd ?_
    | split

theorem execAccEn_keeps (s : State) (hk : Keeps fl s₀ s) :
    KeepsRes fl s₀ (execAccEn s) := by
  unfold execAccEn
  try dsimp only
  repeat' first
    | with_reducible first
      | apply KeepsRes.next | apply KeepsRes.ite
    | intro _
    | with_reducible first
      | assumption | apply Keeps.ite | apply State.flag_keeps
    | split

theorem execAccHealth_keeps (c : Int) (t : Nat) (s : State) (hk : Keeps fl s₀ s) :
    KeepsRes fl s₀ (execAccHealth c t s) := by
  unfold execAccHealth
  try dsimp only
  repeat' first
    | with_reducible first
      | apply KeepsRes.next | apply KeepsRes.ite
    | intro _
    | with_reducible first
      | assumption | apply Keeps.ite | apply report_keeps | apply State.at_keeps | fail_if_no_progress refine Keeps.upd ?_
    | split

theorem execAccLink_keeps (t : Nat) (s : State) (hk : Keeps fl s₀ s) :
    KeepsRes fl s₀ (execAccLink t s) := by
  unfold execAccLink
  try dsimp only
  repeat' first
    | with_reducible first
      | apply KeepsRes.next | apply KeepsRes.ite
    | intro _
    | with_reducible first
      | assumption | apply report_keeps | apply State.at_keeps
    | split

theorem execLfDrv_keeps (i : Fin 6) (bad : Bool) (mA : Nat) (t : Nat) (s : State) (hk : Keeps fl s₀ s) :
    KeepsRes fl s₀ (execLfDrv i bad mA t s) := by
  unfold execLfDrv
  try dsimp only
  repeat' first
    | with_reducible first
      | apply KeepsRes.next | apply KeepsRes.ite
    | intro _
    | with_reducible first
      | assumption | apply Keeps.ite | apply report_keeps | apply State.at_keeps | fail_if_no_progress refine Keeps.upd ?_
    | split

theorem execUhfSynthesiserUnlock_keeps (t : Nat) (s : State) (hk : Keeps fl s₀ s) :
    KeepsRes fl s₀ (execUhfSynthesiserUnlock t s) := by
  unfold execUhfSynthesiserUnlock
  try dsimp only
  repeat' first
    | with_reducible first
      | apply KeepsRes.next | apply KeepsRes.ite
    | intro _
    | with_reducible first
      | assumption | apply Keeps.ite | apply report_keeps | apply State.at_keeps | fail_if_no_progress refine Keeps.upd ?_
    | split

theorem execElectrodeShort_keeps (e : Fin 5) (t : Nat) (s : State) (hk : Keeps fl s₀ s) :
    KeepsRes fl s₀ (execElectrodeShort e t s) := by
  unfold execElectrodeShort
  try dsimp only
  repeat' first
    | with_reducible first
      | apply KeepsRes.next | apply KeepsRes.ite
    | intro _
    | with_reducible first
      | assumption | apply Keeps.ite | apply report_keeps | apply State.at_keeps | apply State.putBit_keeps
      | apply State.put_keeps | fail_if_no_progress refine Keeps.upd ?_
    | split

theorem execLfDriveSupply_keeps (ok : Bool) (t : Nat) (s : State) (hk : Keeps fl s₀ s) :
    KeepsRes fl s₀ (execLfDriveSupply ok t s) := by
  unfold execLfDriveSupply
  try dsimp only
  repeat' first
    | with_reducible first
      | apply KeepsRes.next | apply KeepsRes.ite
    | intro _
    | with_reducible first
      | assumption | apply Keeps.ite | apply startPending_keeps | apply State.at_keeps | fail_if_no_progress refine Keeps.upd ?_
    | split

end Sys2Proof.Machine
end

