-- ==== Sys2Proof/Laws/OpsKeep.lean ====
section
/-!
SUPPORT. Sys2Proof/Laws/OpsKeep.lean: what each operation of the vault, the Keeper, the journal and maintenance keeps (`Keeps` says what that is), one lemma for each
operation, so that no proof unfolds one to know that it leaves the queue, the identity or the canonical forms alone.
-/
namespace Sys2Proof.Machine
-- the small lemmas of this file one after another, each without a thread of its own
set_option Elab.async false
set_option linter.all false
variable {fl : Bool} {s₀ : State}

theorem haltCore_keeps (c : Nat) (s : State) (hk : Keeps fl s₀ s) :
    Keeps fl s₀ (haltCore c s) := by
  unfold haltCore
  try dsimp only
  repeat' first
    | intro _
    | with_reducible first
      | assumption | apply State.setCore_keeps | apply State.putBit_keeps | fail_if_no_progress refine Keeps.upd ?_
    | split

theorem haltCores_keeps (l : List Nat) (s : State) (hk : Keeps fl s₀ s) :
    Keeps fl s₀ (haltCores l s) := by
  unfold haltCores
  try dsimp only
  repeat' first
    | intro _
    | with_reducible first
      | assumption | apply Keeps.ite | apply haltCore_keeps | apply forEach_keeps | apply State.put_keeps
    | (fail_if_no_progress ((with_reducible apply Keeps.upd) <;> first | exact id | exact fun _ => rfl | skip))
    | refine Keeps.ofPair (by assumption) ?_ | split

theorem debugResume_keeps (s : State) (hk : Keeps fl s₀ s) :
    Keeps fl s₀ (debugResume s) := by
  unfold debugResume
  try dsimp only
  repeat' first
    | intro _
    | with_reducible first
      | assumption | apply Keeps.ite | apply overN_keeps | apply State.setCore_keeps | apply State.put_keeps
    | (fail_if_no_progress ((with_reducible apply Keeps.upd) <;> first | exact id | exact fun _ => rfl | skip))
    | refine Keeps.ofPair (by assumption) ?_ | split

theorem endToken_keeps (s : State) (hk : Keeps fl s₀ s) :
    Keeps fl s₀ (endToken s) := by
  unfold endToken
  try dsimp only
  repeat' first
    | intro _
    | with_reducible first
      | assumption | apply debugResume_keeps | apply overN_keeps | apply State.flag_keeps | apply State.put_keeps
      | fail_if_no_progress refine Keeps.upd ?_
    | split

theorem eraseRange_keeps (a n : Nat) (s : State) (hk : Keeps fl s₀ s) : Keeps fl s₀ (eraseRange a n s) :=
  hk.memory (Tab.keep_wf _)

theorem emptyStaging_keeps (s : State) (hk : Keeps fl s₀ s) :
    Keeps fl s₀ (emptyStaging s) := by
  unfold emptyStaging
  try dsimp only
  repeat' first
    | intro _
    | with_reducible first
      | assumption | apply eraseRange_keeps
    | split

theorem emptyAll_keeps (s : State) (hk : Keeps fl s₀ s) :
    Keeps fl s₀ (emptyAll s) := by
  unfold emptyAll
  try dsimp only
  repeat' first
    | intro _
    | with_reducible first
      | assumption | apply emptyStaging_keeps | apply eraseRange_keeps
    | split

theorem dlByte_keeps (p : Nat) (b : Byte) (s : State) (hk : Keeps fl s₀ s) :
    Keeps fl s₀ (dlByte p b s) := by
  unfold dlByte
  try dsimp only
  repeat' first
    | intro _
    | with_reducible first
      | assumption | apply Keeps.ite | apply eraseRange_keeps | apply State.setByte_keeps
      | fail_if_no_progress refine Keeps.upd ?_
    | refine Keeps.ofPair (by assumption) ?_ | split

theorem dlBytes_keeps (p : Nat) (nn : List Byte) (s : State) (hk : Keeps fl s₀ s) :
    Keeps fl s₀ (dlBytes p nn s) := by
  induction nn generalizing p s with
  | nil => exact hk
  | cons x l ih =>
    unfold dlBytes
    try dsimp only
    repeat' first
      | with_reducible first
        | assumption | apply dlByte_keeps
      | split
      | with_reducible first
        | apply ih

theorem moveMem_keeps (f : Nat → Nat) (s : State) (hk : Keeps fl s₀ s) : Keeps fl s₀ (moveMem f s) :=
  hk.memory (fun _ => Tab.foldl_set_wf _ _ _ _ (Tab.nil_wf _))

theorem swapSector_keeps (i : Nat) (s : State) (hk : Keeps fl s₀ s) :
    Keeps fl s₀ (swapSector i s) := by
  unfold swapSector
  try dsimp only
  repeat' first
    | intro _
    | with_reducible first
      | assumption | apply Keeps.ite | apply moveMem_keeps | fail_if_no_progress refine Keeps.upd ?_
    | split

theorem copyPatch_keeps (s : State) (hk : Keeps fl s₀ s) : Keeps fl s₀ (copyPatch s) :=
  (eraseRange_keeps _ _ s hk).memory (fun h => Tab.foldl_set_wf _ _ _ _ h)

theorem flipBanks_keeps (s : State) (hk : Keeps fl s₀ s) :
    Keeps fl s₀ (flipBanks s) := by
  unfold flipBanks
  try dsimp only
  repeat' first
    | intro _
    | with_reducible first
      | assumption | fail_if_no_progress refine Keeps.upd ?_
    | split

theorem finishActivation_keeps (s : State) (hk : Keeps fl s₀ s) :
    Keeps fl s₀ (finishActivation s) := by
  unfold finishActivation
  try dsimp only
  repeat' first
    | intro _
    | with_reducible first
      | assumption | apply Keeps.ite | apply flipBanks_keeps | apply copyPatch_keeps | apply emptyStaging_keeps
      | apply report_keeps
    | (fail_if_no_progress ((with_reducible apply Keeps.upd) <;> first | exact id | exact fun _ => rfl | skip)) | split

theorem activateAtStart_keeps (cut : Option Nat) (s : State) (hk : Keeps fl s₀ s) :
    Keeps fl s₀ (activateAtStart cut s).2 := by
  unfold activateAtStart
  try dsimp only
  repeat' first
    | intro _
    | with_reducible first
      | assumption | apply Keeps.ite | apply finishActivation_keeps | apply swapSector_keeps | apply report_keeps
      | apply forEach_keeps | fail_if_no_progress refine Keeps.upd ?_
    | split | refine Keeps.ofPair (by assumption) ?_ | split

theorem probationStart_keeps (s : State) (hk : Keeps fl s₀ s) :
    Keeps fl s₀ (probationStart s) := by
  unfold probationStart
  try dsimp only
  repeat' first
    | intro _
    | with_reducible first
      | assumption | apply Keeps.ite | apply report_keeps | fail_if_no_progress refine Keeps.upd ?_
    | split

theorem makeIdentity_keeps (s : State) (hk : Keeps fl s₀ s) : Keeps fl s₀ (makeIdentity s) := by
  unfold makeIdentity
  split
  · exact hk
  · rename_i h
    exact (State.draw_keeps s hk).upd id id (fun p => absurd (show s.vault.pub.isSome = true from p) (by simp_all)) id

theorem keeperStart_keeps (cut : Option Nat) (s : State) (hk : Keeps fl s₀ s) :
    Keeps fl s₀ (keeperStart cut s).2 := by
  unfold keeperStart
  try dsimp only
  repeat' first
    | intro _
    | with_reducible first
      | assumption | apply Keeps.ite | apply makeIdentity_keeps | apply probationStart_keeps | apply activateAtStart_keeps
      | apply emptyStaging_keeps
    | split | with_reducible fail_if_no_progress refine Keeps.upd ?_ | split

theorem confirmImage_keeps (s : State) (hk : Keeps fl s₀ s) :
    Keeps fl s₀ (confirmImage s) := by
  unfold confirmImage
  try dsimp only
  repeat' first
    | intro _
    | with_reducible first
      | assumption | apply Keeps.ite | apply emptyAll_keeps | fail_if_no_progress refine Keeps.upd ?_
    | split

theorem showKeeper_keeps (s : State) (hk : Keeps fl s₀ s) :
    Keeps fl s₀ (showKeeper s) := by
  unfold showKeeper
  try dsimp only
  repeat' first
    | intro _
    | with_reducible first
      | assumption | apply Keeps.ite | apply State.flag_keeps | apply State.put_keeps | fail_if_no_progress refine Keeps.upd ?_
    | split

theorem State.setKeeper_keeps (s : State) (k : Keeper) (hk : Keeps fl s₀ s) :
    Keeps fl s₀ (State.setKeeper s k) := by
  unfold State.setKeeper
  try dsimp only
  repeat' first
    | intro _
    | with_reducible first
      | assumption | fail_if_no_progress refine Keeps.upd ?_
    | split

theorem State.setVault_keeps (s : State) (v : Vault) (hp : s.vault.pub.isSome = true → v.pub = s.vault.pub)
    (hd : s.vault.damaged = true → v.damaged = true) (hk : Keeps fl s₀ s) : Keeps fl s₀ (s.setVault v) :=
  hk.upd id id hp hd

theorem setOwner_keeps (key epoch : Nat) (s : State) (hk : Keeps fl s₀ s) :
    Keeps fl s₀ (setOwner key epoch s) := by
  unfold setOwner
  try dsimp only
  repeat' first
    | intro _ | with_reducible apply State.setVault_keeps | rfl | exact fun _ => rfl | exact id
    | with_reducible first
      | assumption | apply State.setVault_keeps | apply report_keeps | fail_if_no_progress refine Keeps.upd ?_
    | split

theorem abandonUpdate_keeps (s : State) (hk : Keeps fl s₀ s) :
    Keeps fl s₀ (abandonUpdate s) := by
  unfold abandonUpdate
  try dsimp only
  repeat' first
    | intro _ | with_reducible apply State.setVault_keeps | rfl | exact fun _ => rfl | exact id
    | with_reducible first
      | assumption | apply Keeps.ite | apply State.setVault_keeps | apply emptyStaging_keeps
      | fail_if_no_progress refine Keeps.upd ?_
    | split

theorem mbxRespond_keeps (n : Nat) (l : List Word) (s : State) (hk : Keeps fl s₀ s) :
    Keeps fl s₀ (mbxRespond n l s) := by
  unfold mbxRespond
  try dsimp only
  repeat' first
    | intro _
    | with_reducible first
      | assumption | apply overN_keeps | apply State.put_keeps
    | split

theorem mbxEnd_keeps (result : Nat) (s : State) (hk : Keeps fl s₀ s) :
    Keeps fl s₀ (mbxEnd result s) := by
  unfold mbxEnd
  try dsimp only
  repeat' first
    | intro _
    | with_reducible first
      | assumption | apply Keeps.ite | apply State.setKeeper_keeps | apply report_keeps | apply raiseAll_keeps
      | apply State.wrap_keeps | apply State.flag_keeps | apply State.put_keeps | fail_if_no_progress refine Keeps.upd ?_
    | split

theorem mbxIssue_keeps (r : KmbReq) (op len : Nat) (s : State) (hk : Keeps fl s₀ s) :
    Keeps fl s₀ (mbxIssue r op len s) := by
  unfold mbxIssue
  try dsimp only
  repeat' first
    | intro _
    | with_reducible first
      | assumption | apply Keeps.ite | apply State.setKeeper_keeps | apply State.flag_keeps | apply State.put_keeps
      | fail_if_no_progress refine Keeps.upd ?_
    | split

theorem randomWords_keeps  (nn : Nat) (s : State) (hk : Keeps fl s₀ s) :
    Keeps fl s₀ (randomWords nn s).2 := by
  induction nn generalizing s with
  | zero => exact hk
  | succ nn ih =>
    unfold randomWords
    try dsimp only
    repeat' first
      | with_reducible first
        | assumption | apply State.draw_keeps | fail_if_no_progress refine Keeps.upd ?_
      | split
      | with_reducible first
        | apply ih

theorem enrolToken_keeps (idx zone token epoch count : Nat) (sig valid : Bool) (codes : Nat) (s : State) (hk : Keeps fl s₀ s) :
    Keeps fl s₀ (enrolToken idx zone token epoch count sig valid codes s) := by
  unfold enrolToken
  try dsimp only
  repeat' first
    | intro _
    | with_reducible first
      | assumption | apply Keeps.ite | apply mbxEnd_keeps | apply report_keeps | fail_if_no_progress refine Keeps.upd ?_
      | apply Keeps.same
    | split

theorem revokeToken_keeps (idx token epoch : Nat) (sig : Bool) (s : State) (hk : Keeps fl s₀ s) :
    Keeps fl s₀ (revokeToken idx token epoch sig s) := by
  unfold revokeToken
  try dsimp only
  repeat' first
    | intro _
    | with_reducible first
      | assumption | apply Keeps.ite | apply mbxEnd_keeps | fail_if_no_progress refine Keeps.upd ?_ | apply Keeps.same
    | split

theorem mbxDo_keeps (r : KmbReq) (valid : Bool) (codes : Nat) (s : State) (hk : Keeps fl s₀ s) :
    Keeps fl s₀ (mbxDo r valid codes s) := by
  unfold mbxDo
  try dsimp only
  repeat' first
    | intro _
    | with_reducible first
      | assumption | apply Keeps.ite | apply revokeToken_keeps | apply enrolToken_keeps | apply randomWords_keeps
      | apply mbxEnd_keeps | apply mbxRespond_keeps | apply abandonUpdate_keeps | apply confirmImage_keeps
      | fail_if_no_progress refine Keeps.upd ?_
    | refine Keeps.ofPair (by assumption) ?_ | split

theorem execGetIdentity_keeps (t : Nat) (s : State) (hk : Keeps fl s₀ s) :
    KeepsRes fl s₀ (execGetIdentity t s) := by
  unfold execGetIdentity
  try dsimp only
  repeat' first
    | with_reducible first
      | apply KeepsRes.next | apply KeepsRes.ite
    | intro _
    | with_reducible first
      | assumption | apply mbxIssue_keeps | apply State.at_keeps
    | split

theorem execGetRandom_keeps (t : Nat) (count : BitVec 32) (s : State) (hk : Keeps fl s₀ s) :
    KeepsRes fl s₀ (execGetRandom t count s) := by
  unfold execGetRandom
  try dsimp only
  repeat' first
    | with_reducible first
      | apply KeepsRes.next | apply KeepsRes.ite
    | intro _
    | with_reducible first
      | assumption | apply Keeps.ite | apply mbxIssue_keeps | apply State.at_keeps | apply State.put_keeps
      | fail_if_no_progress refine Keeps.upd ?_
    | split

theorem execTokenEnrol_keeps (t : Nat) (idx zone : BitVec 8) (token epoch count : BitVec 32) (sig : Bool) (s : State) (hk : Keeps
    fl s₀ s) :
    KeepsRes fl s₀ (execTokenEnrol t idx zone token epoch count sig s) := by
  unfold execTokenEnrol
  try dsimp only
  repeat' first
    | with_reducible first
      | apply KeepsRes.next | apply KeepsRes.ite
    | intro _
    | with_reducible first
      | assumption | apply mbxIssue_keeps | apply State.at_keeps | fail_if_no_progress refine Keeps.upd ?_
    | split

theorem execTokenRevoke_keeps (t : Nat) (idx : BitVec 8) (token epoch : BitVec 32) (sig : Bool) (s : State) (hk : Keeps fl s₀ s) :
    KeepsRes fl s₀ (execTokenRevoke t idx token epoch sig s) := by
  unfold execTokenRevoke
  try dsimp only
  repeat' first
    | with_reducible first
      | apply KeepsRes.next | apply KeepsRes.ite
    | intro _
    | with_reducible first
      | assumption | apply mbxIssue_keeps | apply State.at_keeps | fail_if_no_progress refine Keeps.upd ?_
    | split

theorem execConfirm_keeps (t : Nat) (s : State) (hk : Keeps fl s₀ s) :
    KeepsRes fl s₀ (execConfirm t s) := by
  unfold execConfirm
  try dsimp only
  repeat' first
    | with_reducible first
      | apply KeepsRes.next | apply KeepsRes.ite
    | intro _
    | with_reducible first
      | assumption | apply mbxIssue_keeps | apply State.at_keeps
    | split

theorem execAbandon_keeps (t : Nat) (s : State) (hk : Keeps fl s₀ s) :
    KeepsRes fl s₀ (execAbandon t s) := by
  unfold execAbandon
  try dsimp only
  repeat' first
    | with_reducible first
      | apply KeepsRes.next | apply KeepsRes.ite
    | intro _
    | with_reducible first
      | assumption | apply mbxIssue_keeps | apply State.at_keeps
    | split

theorem execMailboxComplete_keeps (t : Nat) (valid : Bool) (codes : BitVec 48) (s : State) (hk : Keeps fl s₀ s) :
    KeepsRes fl s₀ (execMailboxComplete t valid codes s) := by
  unfold execMailboxComplete
  try dsimp only
  repeat' first
    | with_reducible first
      | apply KeepsRes.next | apply KeepsRes.ite
    | intro _
    | with_reducible first
      | assumption | apply Keeps.ite | apply mbxDo_keeps | apply State.at_keeps | fail_if_no_progress refine Keeps.upd ?_
    | refine Keeps.ofPair (by assumption) ?_ | split

theorem execEntropy_keeps (t : Nat) (s : State) (hk : Keeps fl s₀ s) :
    KeepsRes fl s₀ (execEntropy t s) := by
  unfold execEntropy
  try dsimp only
  repeat' first
    | with_reducible first
      | apply KeepsRes.next | apply KeepsRes.ite
    | intro _
    | with_reducible first
      | assumption | apply Keeps.ite | apply mbxEnd_keeps | apply State.setKeeper_keeps | apply State.at_keeps
      | fail_if_no_progress refine Keeps.upd ?_
    | refine Keeps.ofPair (by assumption) ?_ | split

theorem reply_keeps (op tool seq status : Nat) (p : List Byte) (s : State) (hk : Keeps fl s₀ s) :
    Keeps fl s₀ (reply op tool seq status p s) := by
  unfold reply
  try dsimp only
  repeat' first
    | intro _
    | with_reducible first
      | assumption | apply State.modCan_keeps | fail_if_no_progress refine Keeps.upd ?_
    | split

theorem serve_keeps (op tool seq t : Nat) (f : State → State) (s : State) (hf : ∀ s, Keeps fl s₀ s → Keeps fl s₀ (f s)) (hk :
    Keeps fl s₀ s) :
    KeepsRes fl s₀ (serve op tool seq t f s) := by
  unfold serve
  try dsimp only
  repeat' first
    | with_reducible first
      | apply KeepsRes.next | apply KeepsRes.ite
    | intro _
    | with_reducible first
      | assumption | apply Keeps.ite | apply reply_keeps | apply State.setKeeper_keeps | apply State.at_keeps | apply hf
      | fail_if_no_progress refine Keeps.upd ?_
    | refine Keeps.ofPair (by assumption) ?_ | split

theorem answerRandom_keeps (op tool seq : Nat) (s : State) (hk : Keeps fl s₀ s) :
    Keeps fl s₀ (answerRandom op tool seq s) := by
  unfold answerRandom
  try dsimp only
  repeat' first
    | intro _
    | with_reducible first
      | assumption | apply Keeps.ite | apply reply_keeps | apply State.setKeeper_keeps | apply State.draw_keeps
      | fail_if_no_progress refine Keeps.upd ?_
    | split

theorem needRandom_keeps (op tool seq : Nat) (s : State) (hk : Keeps fl s₀ s) :
    Keeps fl s₀ (needRandom op tool seq s) := by
  unfold needRandom
  try dsimp only
  repeat' first
    | intro _
    | with_reducible first
      | assumption | apply Keeps.ite | apply answerRandom_keeps | apply State.setKeeper_keeps
      | fail_if_no_progress refine Keeps.upd ?_
    | split

theorem execHello_keeps (tool : Fin 128) (seq : BitVec 8) (t : Nat) (s : State) (hk : Keeps fl s₀ s) :
    KeepsRes fl s₀ (execHello tool seq t s) := by
  unfold execHello
  try dsimp only
  repeat' first
    | with_reducible first
      | apply KeepsRes.next | apply KeepsRes.ite
    | intro _
    | with_reducible first
      | assumption | apply Keeps.ite | apply needRandom_keeps | apply reply_keeps | apply State.at_keeps
      | fail_if_no_progress refine Keeps.upd ?_
    | split

theorem execServiceGetIdentity_keeps (tool : Fin 128) (seq : BitVec 8) (t : Nat) (s : State) (hk : Keeps fl s₀ s) :
    KeepsRes fl s₀ (execServiceGetIdentity tool seq t s) := by
  unfold execServiceGetIdentity
  try dsimp only
  repeat' first
    | with_reducible first
      | apply KeepsRes.next | apply KeepsRes.ite
    | intro _
    | with_reducible first
      | assumption | apply serve_keeps | apply reply_keeps
    | split

theorem execAttest_keeps (tool : Fin 128) (seq : BitVec 8) (t : Nat) (nonce : BitVec 128) (s : State) (hk : Keeps fl s₀ s) :
    KeepsRes fl s₀ (execAttest tool seq t nonce s) := by
  unfold execAttest
  try dsimp only
  repeat' first
    | with_reducible first
      | apply KeepsRes.next | apply KeepsRes.ite
    | intro _
    | with_reducible first
      | assumption | apply serve_keeps | apply reply_keeps | apply State.draw_keeps | fail_if_no_progress refine Keeps.upd ?_
    | split

theorem execEnrolOwner_keeps (tool : Fin 128) (seq : BitVec 8) (t : Nat) (key : BitVec 512) (sig : Bool) (s : State) (hk : Keeps
    fl s₀ s) :
    KeepsRes fl s₀ (execEnrolOwner tool seq t key sig s) := by
  unfold execEnrolOwner
  try dsimp only
  repeat' first
    | with_reducible first
      | apply KeepsRes.next | apply KeepsRes.ite
    | intro _
    | with_reducible first
      | assumption | apply Keeps.ite | apply serve_keeps | apply reply_keeps | apply setOwner_keeps | apply report_keeps
    | split

theorem execTransfer_keeps (tool : Fin 128) (seq : BitVec 8) (t : Nat) (key : BitVec 512) (epoch : BitVec 32) (sigOld sigNew :
    Bool) (s : State) (hk : Keeps fl s₀ s) :
    KeepsRes fl s₀ (execTransfer tool seq t key epoch sigOld sigNew s) := by
  unfold execTransfer
  try dsimp only
  repeat' first
    | with_reducible first
      | apply KeepsRes.next | apply KeepsRes.ite
    | intro _
    | with_reducible first
      | assumption | apply Keeps.ite | apply serve_keeps | apply reply_keeps | apply setOwner_keeps | apply endToken_keeps
      | apply report_keeps
    | split

theorem execDlStart_keeps (tool : Fin 128) (seq : BitVec 8) (t : Nat) (len : BitVec 32) (s : State) (hk : Keeps fl s₀ s) :
    KeepsRes fl s₀ (execDlStart tool seq t len s) := by
  unfold execDlStart
  try dsimp only
  repeat' first
    | with_reducible first
      | apply KeepsRes.next | apply KeepsRes.ite
    | intro _
    | with_reducible first
      | assumption | apply Keeps.ite | apply serve_keeps | apply reply_keeps | fail_if_no_progress refine Keeps.upd ?_
    | split

theorem dlReply_keeps (tool seq : Nat) (s : State) (hk : Keeps fl s₀ s) :
    Keeps fl s₀ (dlReply tool seq s) := by
  unfold dlReply
  try dsimp only
  repeat' first
    | intro _
    | with_reducible first
      | assumption | apply Keeps.ite | apply reply_keeps | apply State.setKeeper_keeps | fail_if_no_progress refine Keeps.upd ?_
    | split

theorem dlTake_keeps (data : List Byte) (s : State) (hk : Keeps fl s₀ s) :
    Keeps fl s₀ (dlTake data s) := by
  unfold dlTake
  try dsimp only
  repeat' first
    | intro _ | with_reducible apply State.setVault_keeps | rfl | exact fun _ => rfl | exact id
    | with_reducible first
      | assumption | apply State.setVault_keeps | apply dlBytes_keeps | fail_if_no_progress refine Keeps.upd ?_
    | split

theorem execDlData_keeps (tool : Fin 128) (seq : BitVec 8) (t : Nat) (off : BitVec 32) (data : List Byte) (s : State) (hk : Keeps
    fl s₀ s) :
    KeepsRes fl s₀ (execDlData tool seq t off data s) := by
  unfold execDlData
  try dsimp only
  repeat' first
    | with_reducible first
      | apply KeepsRes.next | apply KeepsRes.ite
    | intro _
    | with_reducible first
      | assumption | apply Keeps.ite | apply dlTake_keeps | apply dlReply_keeps | apply serve_keeps | apply reply_keeps
      | apply State.setKeeper_keeps | apply report_keeps | fail_if_no_progress refine Keeps.upd ?_
    | split

theorem execVerify_keeps (tool : Fin 128) (seq : BitVec 8) (t : Nat) (s : State) (hk : Keeps fl s₀ s) :
    KeepsRes fl s₀ (execVerify tool seq t s) := by
  unfold execVerify
  try dsimp only
  repeat' first
    | with_reducible first
      | apply KeepsRes.next | apply KeepsRes.ite
    | intro _
    | with_reducible first
      | assumption | apply Keeps.ite | apply serve_keeps | apply reply_keeps | fail_if_no_progress refine Keeps.upd ?_
    | split

theorem verifyReply_keeps (status : Nat) (s : State) (hk : Keeps fl s₀ s) :
    Keeps fl s₀ (verifyReply status s) := by
  unfold verifyReply
  try dsimp only
  repeat' first
    | intro _
    | with_reducible first
      | assumption | apply reply_keeps | apply State.setKeeper_keeps | fail_if_no_progress refine Keeps.upd ?_
    | refine Keeps.ofPair (by assumption) ?_ | split

theorem execVerifyComplete_keeps (t : Nat) (sig digests tlSet : Bool) (s : State) (hk : Keeps fl s₀ s) :
    KeepsRes fl s₀ (execVerifyComplete t sig digests tlSet s) := by
  unfold execVerifyComplete
  try dsimp only
  repeat' first
    | with_reducible first
      | apply KeepsRes.next | apply KeepsRes.ite
    | intro _ | with_reducible apply State.setVault_keeps | rfl | exact fun _ => rfl | exact id
    | with_reducible first
      | assumption | apply Keeps.ite | apply verifyReply_keeps | apply State.setVault_keeps | apply emptyStaging_keeps
      | apply report_keeps | apply State.draw_keeps | apply State.at_keeps | fail_if_no_progress refine Keeps.upd ?_
    | split

theorem acceptActivation_keeps (op tool seq : Nat) (rev : Bool) (s : State) (hk : Keeps fl s₀ s) :
    Keeps fl s₀ (acceptActivation op tool seq rev s) := by
  unfold acceptActivation
  try dsimp only
  repeat' first
    | intro _
    | with_reducible first
      | assumption | apply Keeps.ite | apply reply_keeps | fail_if_no_progress refine Keeps.upd ?_
    | split

theorem execActivate_keeps (tool : Fin 128) (seq : BitVec 8) (t : Nat) (s : State) (hk : Keeps fl s₀ s) :
    KeepsRes fl s₀ (execActivate tool seq t s) := by
  unfold execActivate
  try dsimp only
  repeat' first
    | with_reducible first
      | apply KeepsRes.next | apply KeepsRes.ite
    | intro _
    | with_reducible first
      | assumption | apply Keeps.ite | apply acceptActivation_keeps | apply serve_keeps | apply reply_keeps
    | split

theorem execRollback_keeps (tool : Fin 128) (seq : BitVec 8) (t : Nat) (s : State) (hk : Keeps fl s₀ s) :
    KeepsRes fl s₀ (execRollback tool seq t s) := by
  unfold execRollback
  try dsimp only
  repeat' first
    | with_reducible first
      | apply KeepsRes.next | apply KeepsRes.ite
    | intro _
    | with_reducible first
      | assumption | apply Keeps.ite | apply acceptActivation_keeps | apply serve_keeps | apply reply_keeps
    | split

theorem execServiceConfirm_keeps (tool : Fin 128) (seq : BitVec 8) (t : Nat) (s : State) (hk : Keeps fl s₀ s) :
    KeepsRes fl s₀ (execServiceConfirm tool seq t s) := by
  unfold execServiceConfirm
  try dsimp only
  repeat' first
    | with_reducible first
      | apply KeepsRes.next | apply KeepsRes.ite
    | intro _
    | with_reducible first
      | assumption | apply Keeps.ite | apply serve_keeps | apply reply_keeps | apply confirmImage_keeps
    | split

theorem presentToken_keeps (k : DebugToken) (s : State) (hk : Keeps fl s₀ s) :
    Keeps fl s₀ (presentToken k s).2 := by
  unfold presentToken
  try dsimp only
  repeat' first
    | intro _
    | with_reducible first
      | assumption | apply Keeps.ite | apply State.setKeeper_keeps | apply report_keeps | apply State.draw_keeps
      | apply State.flag_keeps
    | split | with_reducible fail_if_no_progress refine Keeps.upd ?_ | split

theorem execDbgNonce_keeps (tool : Fin 128) (seq : BitVec 8) (t : Nat) (s : State) (hk : Keeps fl s₀ s) :
    KeepsRes fl s₀ (execDbgNonce tool seq t s) := by
  unfold execDbgNonce
  try dsimp only
  repeat' first
    | with_reducible first
      | apply KeepsRes.next | apply KeepsRes.ite
    | intro _
    | with_reducible first
      | assumption | apply needRandom_keeps | apply serve_keeps
    | split

theorem execDbgToken_keeps (tool : Fin 128) (seq : BitVec 8) (t : Nat) (tok : DebugToken) (s : State) (hk : Keeps fl s₀ s) :
    KeepsRes fl s₀ (execDbgToken tool seq t tok s) := by
  unfold execDbgToken
  try dsimp only
  repeat' first
    | with_reducible first
      | apply KeepsRes.next | apply KeepsRes.ite
    | intro _
    | with_reducible first
      | assumption | apply Keeps.ite | apply presentToken_keeps | apply serve_keeps | apply reply_keeps
      | fail_if_no_progress refine Keeps.upd ?_
    | split

theorem execPortToken_keeps (t : Nat) (tok : DebugToken) (s : State) (hk : Keeps fl s₀ s) :
    KeepsRes fl s₀ (execPortToken t tok s) := by
  unfold execPortToken
  try dsimp only
  repeat' first
    | with_reducible first
      | apply KeepsRes.next | apply KeepsRes.ite
    | intro _
    | with_reducible first
      | assumption | apply Keeps.ite | apply presentToken_keeps | apply State.at_keeps | fail_if_no_progress refine Keeps.upd ?_
    | split

theorem execTokenEnd_keeps (t : Nat) (s : State) (hk : Keeps fl s₀ s) :
    KeepsRes fl s₀ (execTokenEnd t s) := by
  unfold execTokenEnd
  try dsimp only
  repeat' first
    | with_reducible first
      | apply KeepsRes.next | apply KeepsRes.ite
    | intro _
    | with_reducible first
      | assumption | apply Keeps.ite | apply endToken_keeps | apply State.at_keeps | fail_if_no_progress refine Keeps.upd ?_
    | split

theorem execSessionTimeout_keeps (t : Nat) (s : State) (hk : Keeps fl s₀ s) :
    KeepsRes fl s₀ (execSessionTimeout t s) := by
  unfold execSessionTimeout
  try dsimp only
  repeat' first
    | with_reducible first
      | apply KeepsRes.next | apply KeepsRes.ite
    | intro _
    | with_reducible first
      | assumption | apply Keeps.ite | apply State.setKeeper_keeps | apply State.at_keeps
      | fail_if_no_progress refine Keeps.upd ?_
    | split

theorem execTrngFailure_keeps (t : Nat) (s : State) (hk : Keeps fl s₀ s) :
    KeepsRes fl s₀ (execTrngFailure t s) := by
  unfold execTrngFailure
  try dsimp only
  repeat' first
    | with_reducible first
      | apply KeepsRes.next | apply KeepsRes.ite
    | intro _
    | with_reducible first
      | assumption | apply Keeps.ite | apply State.setKeeper_keeps | apply report_keeps | apply State.at_keeps
      | fail_if_no_progress refine Keeps.upd ?_
    | split

theorem execTrngResume_keeps (t : Nat) (s : State) (hk : Keeps fl s₀ s) :
    KeepsRes fl s₀ (execTrngResume t s) := by
  unfold execTrngResume
  try dsimp only
  repeat' first
    | with_reducible first
      | apply KeepsRes.next | apply KeepsRes.ite
    | intro _
    | with_reducible first
      | assumption | apply Keeps.ite | apply answerRandom_keeps | apply State.setKeeper_keeps | apply forEach_keeps
      | apply State.at_keeps | fail_if_no_progress refine Keeps.upd ?_
    | split

theorem mramItem_keeps (e : Nat × Item) (s : State) (hk : Keeps fl s₀ s) :
    Keeps fl s₀ (mramItem e s) := by
  unfold mramItem
  try dsimp only
  repeat' first
    | intro _
    | with_reducible first
      | assumption | apply State.setWords_keeps | fail_if_no_progress refine Keeps.upd ?_
    | split

theorem mramRec_keeps (e : Nat × SrcRec) (s : State) (hk : Keeps fl s₀ s) :
    Keeps fl s₀ (mramRec e s) := by
  unfold mramRec
  try dsimp only
  repeat' first
    | intro _
    | with_reducible first
      | assumption | apply State.setWords_keeps | fail_if_no_progress refine Keeps.upd ?_
    | split

theorem jEvent_keeps (e : List Nat) (s : State) (hk : Keeps fl s₀ s) :
    Keeps fl s₀ (jEvent e s) := by
  unfold jEvent
  try dsimp only
  repeat' first
    | intro _
    | with_reducible first
      | assumption | apply Keeps.ite | apply State.setWords_keeps | apply State.put_keeps
      | fail_if_no_progress refine Keeps.upd ?_
    | split

theorem jOutcomes_keeps (q : Nat) (nn : Nat) (s : State) (hk : Keeps fl s₀ s) :
    Keeps fl s₀ (jOutcomes q nn s) := by
  induction nn generalizing q s with
  | zero => exact hk
  | succ nn ih =>
    unfold jOutcomes
    try dsimp only
    repeat' first
      | with_reducible first
        | assumption | apply Keeps.ite | apply jEvent_keeps | fail_if_no_progress refine Keeps.upd ?_
      | refine Keeps.ofPair (by assumption) ?_ | split
      | with_reducible first
        | apply ih

theorem jReplay_keeps (q : Nat) (nn : Nat) (yy : Nat) (s : State) (hk : Keeps fl s₀ s) :
    Keeps fl s₀ (jReplay q nn yy s) := by
  induction nn generalizing q yy s with
  | zero => exact hk
  | succ nn ih =>
    unfold jReplay
    try dsimp only
    repeat' first
      | with_reducible first
        | assumption | apply Keeps.ite | apply jEvent_keeps | fail_if_no_progress refine Keeps.upd ?_
      | refine Keeps.ofPair (by assumption) ?_ | split
      | with_reducible first
        | apply ih

theorem jReject_keeps (reason q i seq : Nat) (s : State) (hk : Keeps fl s₀ s) :
    Keeps fl s₀ (jReject reason q i seq s) := by
  unfold jReject
  try dsimp only
  repeat' first
    | intro _
    | with_reducible first
      | assumption | apply Keeps.ite | apply jEvent_keeps | apply report_keeps | fail_if_no_progress refine Keeps.upd ?_
    | split

theorem jTake_keeps (q i seq : Nat) (f : State → State) (s : State) (hf : ∀ s, Keeps fl s₀ s → Keeps fl s₀ (f s)) (hk : Keeps fl
    s₀ s) :
    Keeps fl s₀ (jTake q i seq f s) := by
  unfold jTake
  try dsimp only
  repeat' first
    | intro _
    | with_reducible first
      | assumption | apply Keeps.ite | apply jReject_keeps | apply hf
    | split

theorem jPush_keeps (w : JWork) (s : State) (hk : Keeps fl s₀ s) :
    Keeps fl s₀ (jPush w s) := by
  unfold jPush
  try dsimp only
  repeat' first
    | intro _
    | with_reducible first
      | assumption | apply Keeps.foldl | fail_if_no_progress refine Keeps.upd ?_
    | split

theorem jBad_keeps (s : State) (hk : Keeps fl s₀ s) :
    Keeps fl s₀ (jBad s) := by
  unfold jBad
  try dsimp only
  repeat' first
    | intro _
    | with_reducible first
      | assumption | apply report_keeps | apply State.flag_keeps
    | split

theorem jAccept_keeps (q kind seq : Nat) (s : State) (hk : Keeps fl s₀ s) :
    Keeps fl s₀ (jAccept q kind seq s) := by
  unfold jAccept
  try dsimp only
  repeat' first
    | intro _
    | with_reducible first
      | assumption | apply jPush_keeps | apply State.draw_keeps | fail_if_no_progress refine Keeps.upd ?_
    | split

theorem jDuplicate_keeps (q seq : Nat) (s : State) (hk : Keeps fl s₀ s) :
    Keeps fl s₀ (jDuplicate q seq s) := by
  unfold jDuplicate
  try dsimp only
  repeat' first
    | intro _
    | with_reducible first
      | assumption | apply Keeps.ite | apply jEvent_keeps | fail_if_no_progress refine Keeps.upd ?_
    | refine Keeps.ofPair (by assumption) ?_ | split

theorem jSubmit_keeps (s : State) (hk : Keeps fl s₀ s) :
    Keeps fl s₀ (jSubmit s) := by
  unfold jSubmit
  try dsimp only
  repeat' first
    | intro _
    | with_reducible first
      | assumption | apply Keeps.ite | apply jDuplicate_keeps | apply jAccept_keeps | apply jTake_keeps | apply jReject_keeps
      | fail_if_no_progress refine Keeps.upd ?_
    | split

theorem jItemOp_keeps (i : Nat) (f : Item → Option Item) (s : State) (hk : Keeps fl s₀ s) :
    Keeps fl s₀ (jItemOp i f s) := by
  unfold jItemOp
  try dsimp only
  repeat' first
    | intro _
    | with_reducible first
      | assumption | apply Keeps.ite | apply jBad_keeps | apply jPush_keeps | apply jTake_keeps
      | fail_if_no_progress refine Keeps.upd ?_
    | refine Keeps.ofPair (by assumption) ?_ | split

theorem jClaim_keeps (i task : Nat) (s : State) (hk : Keeps fl s₀ s) :
    Keeps fl s₀ (jClaim i task s) := by
  unfold jClaim
  try dsimp only
  repeat' first
    | intro _
    | with_reducible first
      | assumption | apply Keeps.ite | apply jItemOp_keeps | fail_if_no_progress refine Keeps.upd ?_
    | split

theorem jDone_keeps (i outcome task : Nat) (s : State) (hk : Keeps fl s₀ s) :
    Keeps fl s₀ (jDone i outcome task s) := by
  unfold jDone
  try dsimp only
  repeat' first
    | intro _
    | with_reducible first
      | assumption | apply Keeps.ite | apply jItemOp_keeps | fail_if_no_progress refine Keeps.upd ?_
    | split

theorem jCancel_keeps (i : Nat) (s : State) (hk : Keeps fl s₀ s) :
    Keeps fl s₀ (jCancel i s) := by
  unfold jCancel
  try dsimp only
  repeat' first
    | intro _
    | with_reducible first
      | assumption | apply Keeps.ite | apply jItemOp_keeps | fail_if_no_progress refine Keeps.upd ?_
    | split

theorem jAck_keeps (q : Nat) (s : State) (hk : Keeps fl s₀ s) :
    Keeps fl s₀ (jAck q s) := by
  unfold jAck
  try dsimp only
  repeat' first
    | intro _
    | with_reducible first
      | assumption | apply Keeps.ite | apply jBad_keeps | apply jPush_keeps | apply jTake_keeps
      | fail_if_no_progress refine Keeps.upd ?_
    | refine Keeps.ofPair (by assumption) ?_ | split

theorem jReplayOp_keeps (q : Nat) (s : State) (hk : Keeps fl s₀ s) :
    Keeps fl s₀ (jReplayOp q s) := by
  unfold jReplayOp
  try dsimp only
  repeat' first
    | intro _
    | with_reducible first
      | assumption | apply jPush_keeps | apply jTake_keeps | fail_if_no_progress refine Keeps.upd ?_
    | split

theorem jOp_keeps (op outcome i task : Nat) (s : State) (hk : Keeps fl s₀ s) :
    Keeps fl s₀ (jOp op outcome i task s) := by
  unfold jOp
  try dsimp only
  repeat' first
    | intro _
    | with_reducible first
      | assumption | apply Keeps.ite | apply jReplayOp_keeps | apply jAck_keeps | apply jCancel_keeps | apply jDone_keeps
      | apply jClaim_keeps | apply jSubmit_keeps
    | split

theorem jRevert_keeps (i : Nat) (s : State) (hk : Keeps fl s₀ s) :
    Keeps fl s₀ (jRevert i s) := by
  unfold jRevert
  try dsimp only
  repeat' first
    | intro _
    | with_reducible first
      | assumption | apply Keeps.ite | apply jPush_keeps | apply report_keeps | fail_if_no_progress refine Keeps.upd ?_
    | split

theorem jRevertTask_keeps (task : Nat) (s : State) (hk : Keeps fl s₀ s) :
    Keeps fl s₀ (jRevertTask task s) := by
  unfold jRevertTask
  try dsimp only
  repeat' first
    | intro _
    | with_reducible first
      | assumption | apply Keeps.ite | apply jRevert_keeps | apply forEach_keeps
    | split

theorem jDurable_keeps (w : JWork) (s : State) (hk : Keeps fl s₀ s) :
    Keeps fl s₀ (jDurable w s) := by
  unfold jDurable
  try dsimp only
  repeat' first
    | intro _
    | with_reducible first
      | assumption | apply Keeps.ite | apply jReplay_keeps | apply jOutcomes_keeps | apply jEvent_keeps | apply mramRec_keeps
      | apply mramItem_keeps | apply forEach_keeps | fail_if_no_progress refine Keeps.upd ?_
    | refine Keeps.ofPair (by assumption) ?_ | split

theorem execJournalDurable_keeps (t : Nat) (s : State) (hk : Keeps fl s₀ s) :
    KeepsRes fl s₀ (execJournalDurable t s) := by
  unfold execJournalDurable
  try dsimp only
  repeat' first
    | with_reducible first
      | apply KeepsRes.next | apply KeepsRes.ite
    | intro _
    | with_reducible first
      | assumption | apply Keeps.ite | apply jDurable_keeps | apply State.at_keeps | fail_if_no_progress refine Keeps.upd ?_
    | refine Keeps.ofPair (by assumption) ?_ | split

theorem execSubmit_keeps (t : Nat) (s : State) (hk : Keeps fl s₀ s) :
    KeepsRes fl s₀ (execSubmit t s) := by
  unfold execSubmit
  try dsimp only
  repeat' first
    | with_reducible first
      | apply KeepsRes.next | apply KeepsRes.ite
    | intro _
    | with_reducible first
      | assumption | apply jSubmit_keeps | apply State.at_keeps
    | split

theorem execClaim_keeps (i : BitVec 16) (task : BitVec 8) (t : Nat) (s : State) (hk : Keeps fl s₀ s) :
    KeepsRes fl s₀ (execClaim i task t s) := by
  unfold execClaim
  try dsimp only
  repeat' first
    | with_reducible first
      | apply KeepsRes.next | apply KeepsRes.ite
    | intro _
    | with_reducible first
      | assumption | apply jClaim_keeps | apply State.at_keeps
    | split

theorem execDone_keeps (i : BitVec 16) (outcome : BitVec 4) (task : BitVec 8) (t : Nat) (s : State) (hk : Keeps fl s₀ s) :
    KeepsRes fl s₀ (execDone i outcome task t s) := by
  unfold execDone
  try dsimp only
  repeat' first
    | with_reducible first
      | apply KeepsRes.next | apply KeepsRes.ite
    | intro _
    | with_reducible first
      | assumption | apply jDone_keeps | apply State.at_keeps
    | split

theorem execJournalCancel_keeps (i : BitVec 16) (t : Nat) (s : State) (hk : Keeps fl s₀ s) :
    KeepsRes fl s₀ (execJournalCancel i t s) := by
  unfold execJournalCancel
  try dsimp only
  repeat' first
    | with_reducible first
      | apply KeepsRes.next | apply KeepsRes.ite
    | intro _
    | with_reducible first
      | assumption | apply jCancel_keeps | apply State.at_keeps
    | split

theorem execRptAck_keeps (q : Fin 64) (t : Nat) (s : State) (hk : Keeps fl s₀ s) :
    KeepsRes fl s₀ (execRptAck q t s) := by
  unfold execRptAck
  try dsimp only
  repeat' first
    | with_reducible first
      | apply KeepsRes.next | apply KeepsRes.ite
    | intro _
    | with_reducible first
      | assumption | apply jAck_keeps | apply State.at_keeps
    | split

theorem execReplay_keeps (q : Fin 64) (t : Nat) (s : State) (hk : Keeps fl s₀ s) :
    KeepsRes fl s₀ (execReplay q t s) := by
  unfold execReplay
  try dsimp only
  repeat' first
    | with_reducible first
      | apply KeepsRes.next | apply KeepsRes.ite
    | intro _
    | with_reducible first
      | assumption | apply jReplayOp_keeps | apply State.at_keeps
    | split

theorem execClaimHoldExpiry_keeps (task : Fin 64) (t : Nat) (s : State) (hk : Keeps fl s₀ s) :
    KeepsRes fl s₀ (execClaimHoldExpiry task t s) := by
  unfold execClaimHoldExpiry
  try dsimp only
  repeat' first
    | with_reducible first
      | apply KeepsRes.next | apply KeepsRes.ite
    | intro _
    | with_reducible first
      | assumption | apply Keeps.ite | apply jRevertTask_keeps | apply State.at_keeps | fail_if_no_progress refine Keeps.upd ?_
    | split

theorem execTtlExpiry_keeps (i : BitVec 16) (t : Nat) (s : State) (hk : Keeps fl s₀ s) :
    KeepsRes fl s₀ (execTtlExpiry i t s) := by
  unfold execTtlExpiry
  try dsimp only
  repeat' first
    | with_reducible first
      | apply KeepsRes.next | apply KeepsRes.ite
    | intro _
    | with_reducible first
      | assumption | apply Keeps.ite | apply jPush_keeps | apply report_keeps | apply State.at_keeps
      | fail_if_no_progress refine Keeps.upd ?_
    | split

theorem jRecoverItem_keeps (bad : List Nat) (e : Nat × Item) (s : State) (hk : Keeps fl s₀ s) :
    Keeps fl s₀ (jRecoverItem bad e s) := by
  unfold jRecoverItem
  try dsimp only
  repeat' first
    | intro _
    | with_reducible first
      | assumption | apply Keeps.ite | apply jEvent_keeps | apply mramItem_keeps | apply report_keeps
      | fail_if_no_progress refine Keeps.upd ?_
    | split

theorem execJournalRecoveryComplete_keeps (t : Nat) (bad : List Nat) (s : State) (hk : Keeps fl s₀ s) :
    KeepsRes fl s₀ (execJournalRecoveryComplete t bad s) := by
  unfold execJournalRecoveryComplete
  try dsimp only
  repeat' first
    | with_reducible first
      | apply KeepsRes.next | apply KeepsRes.ite
    | intro _
    | with_reducible first
      | assumption | apply Keeps.ite | apply Keeps.foldl | apply jRecoverItem_keeps | apply jOutcomes_keeps
      | apply forEach_keeps | apply overN_keeps | apply State.at_keeps | apply State.flag_keeps
      | fail_if_no_progress refine Keeps.upd ?_
    | split

theorem showPlacement_keeps (s : State) (hk : Keeps fl s₀ s) :
    Keeps fl s₀ (showPlacement s) := by
  unfold showPlacement
  try dsimp only
  repeat' first
    | intro _
    | with_reducible first
      | assumption | apply Keeps.ite | apply Keeps.foldl | apply overN_keeps | apply State.put_keeps
      | fail_if_no_progress refine Keeps.upd ?_
    | split

theorem placeReports_keeps (level : Nat) (l : List (Nat × Nat)) (s : State) (hk : Keeps fl s₀ s) :
    Keeps fl s₀ (placeReports level l s) := by
  unfold placeReports
  try dsimp only
  repeat' first
    | intro _
    | with_reducible first
      | assumption | apply Keeps.ite | apply report_keeps | fail_if_no_progress refine Keeps.upd ?_
    | split

theorem placeAtT0_keeps (s : State) (hk : Keeps fl s₀ s) :
    Keeps fl s₀ (placeAtT0 s) := by
  unfold placeAtT0
  try dsimp only
  repeat' first
    | intro _
    | with_reducible first
      | assumption | apply Keeps.ite | apply placeReports_keeps | apply showPlacement_keeps
      | fail_if_no_progress refine Keeps.upd ?_
    | split

theorem subShow_keeps (op st : Nat) (s : State) (hk : Keeps fl s₀ s) :
    Keeps fl s₀ (subShow op st s) := by
  unfold subShow
  try dsimp only
  repeat' first
    | intro _
    | with_reducible first
      | assumption | apply State.put_keeps
    | split

theorem subDone_keeps (frame : Nat) (s : State) (hk : Keeps fl s₀ s) :
    Keeps fl s₀ (subDone frame s) := by
  unfold subDone
  try dsimp only
  repeat' first
    | intro _
    | with_reducible first
      | assumption | apply subShow_keeps | apply State.put_keeps | fail_if_no_progress refine Keeps.upd ?_
    | split

theorem subFailed_keeps (s : State) (hk : Keeps fl s₀ s) :
    Keeps fl s₀ (subFailed s) := by
  unfold subFailed
  try dsimp only
  repeat' first
    | intro _
    | with_reducible first
      | assumption | apply subShow_keeps | fail_if_no_progress refine Keeps.upd ?_
    | split

theorem subAbandon_keeps (s : State) (hk : Keeps fl s₀ s) :
    Keeps fl s₀ (subAbandon s) := by
  unfold subAbandon
  try dsimp only
  repeat' first
    | intro _
    | with_reducible first
      | assumption | apply subFailed_keeps | apply report_keeps
    | split

theorem subAccept_keeps (op unit : Nat) (s : State) (hk : Keeps fl s₀ s) :
    Keeps fl s₀ (subAccept op unit s) := by
  unfold subAccept
  try dsimp only
  repeat' first
    | intro _
    | with_reducible first
      | assumption | apply subShow_keeps | fail_if_no_progress refine Keeps.upd ?_
    | split

theorem subRefuse_keeps (op : Nat) (s : State) (hk : Keeps fl s₀ s) :
    Keeps fl s₀ (subRefuse op s) := by
  unfold subRefuse
  try dsimp only
  repeat' first
    | intro _
    | with_reducible first
      | assumption | apply subShow_keeps
    | split

theorem dieSubstitute_keeps (k : Nat) (s : State) (hk : Keeps fl s₀ s) :
    Keeps fl s₀ (dieSubstitute k s) := by
  unfold dieSubstitute
  try dsimp only
  repeat' first
    | intro _
    | with_reducible first
      | assumption | apply Keeps.ite | apply State.modDie_keeps | apply State.put_keeps
      | fail_if_no_progress refine Keeps.upd ?_
    | split

theorem segCopy_keeps (w : Nat) (s : State) (hk : Keeps fl s₀ s) :
    Keeps fl s₀ (segCopy w s) := by
  unfold segCopy
  try dsimp only
  repeat' first
    | intro _
    | with_reducible first
      | assumption | apply Keeps.ite | apply subAbandon_keeps | apply subFailed_keeps | apply subShow_keeps
      | apply mntFinish_keeps | apply State.setBytes_keeps | fail_if_no_progress refine Keeps.upd ?_
    | split

theorem calLoad_keeps (s : State) (hk : Keeps fl s₀ s) :
    Keeps fl s₀ (calLoad s) := by
  unfold calLoad
  try dsimp only
  repeat' first
    | intro _
    | with_reducible first
      | assumption | apply Keeps.ite | apply subAbandon_keeps | apply subShow_keeps | apply mntFinish_keeps
      | fail_if_no_progress refine Keeps.upd ?_
    | split

theorem subLoad_keeps (s : State) (hk : Keeps fl s₀ s) :
    Keeps fl s₀ (subLoad s) := by
  unfold subLoad
  try dsimp only
  repeat' first
    | intro _
    | with_reducible first
      | assumption | apply calLoad_keeps | apply segCopy_keeps | apply dieSubstitute_keeps | apply overN_keeps
      | fail_if_no_progress refine Keeps.upd ?_
    | refine Keeps.ofPair (by assumption) ?_ | split

theorem subTryStart_keeps (s : State) (hk : Keeps fl s₀ s) :
    Keeps fl s₀ (subTryStart s) := by
  unfold subTryStart
  try dsimp only
  repeat' first
    | intro _
    | with_reducible first
      | assumption | apply Keeps.ite | apply subLoad_keeps | apply mntStartOf_keeps | fail_if_no_progress refine Keeps.upd ?_
    | split

theorem subActivity_keeps (op unit : Nat) (s : State) (hk : Keeps fl s₀ s) :
    Keeps fl s₀ (subActivity op unit s) := by
  unfold subActivity
  try dsimp only
  repeat' first
    | intro _
    | with_reducible first
      | assumption | apply subTryStart_keeps | apply subAccept_keeps | apply mntRequest_keeps
      | fail_if_no_progress refine Keeps.upd ?_
    | split

theorem subCommand_keeps (op unit : Nat) (s : State) (hk : Keeps fl s₀ s) :
    Keeps fl s₀ (subCommand op unit s) := by
  unfold subCommand
  try dsimp only
  repeat' first
    | intro _
    | with_reducible first
      | assumption | apply Keeps.ite | apply subActivity_keeps | apply subRefuse_keeps | apply subAccept_keeps
      | apply subShow_keeps | apply report_keeps | apply needCoreTest_keeps | apply State.putBit_keeps
      | fail_if_no_progress refine Keeps.upd ?_
    | refine Keeps.ofPair (by assumption) ?_ | split

theorem execSubSeq_keeps (k : Fin 4) (t : Nat) (s : State) (hk : Keeps fl s₀ s) :
    KeepsRes fl s₀ (execSubSeq k t s) := by
  unfold execSubSeq
  try dsimp only
  repeat' first
    | with_reducible first
      | apply KeepsRes.next | apply KeepsRes.ite
    | intro _
    | with_reducible first
      | assumption | apply subCommand_keeps | apply State.at_keeps
    | split

theorem execSubTl_keeps (t : Nat) (s : State) (hk : Keeps fl s₀ s) :
    KeepsRes fl s₀ (execSubTl t s) := by
  unfold execSubTl
  try dsimp only
  repeat' first
    | with_reducible first
      | apply KeepsRes.next | apply KeepsRes.ite
    | intro _
    | with_reducible first
      | assumption | apply subCommand_keeps | apply State.at_keeps
    | split

theorem execSubCal_keeps (t : Nat) (s : State) (hk : Keeps fl s₀ s) :
    KeepsRes fl s₀ (execSubCal t s) := by
  unfold execSubCal
  try dsimp only
  repeat' first
    | with_reducible first
      | apply KeepsRes.next | apply KeepsRes.ite
    | intro _
    | with_reducible first
      | assumption | apply subCommand_keeps | apply State.at_keeps
    | split

theorem execSegMap_keeps (w : Fin 16) (t : Nat) (s : State) (hk : Keeps fl s₀ s) :
    KeepsRes fl s₀ (execSegMap w t s) := by
  unfold execSegMap
  try dsimp only
  repeat' first
    | with_reducible first
      | apply KeepsRes.next | apply KeepsRes.ite
    | intro _
    | with_reducible first
      | assumption | apply subCommand_keeps | apply State.at_keeps
    | split

theorem execSegUnmap_keeps (w : Fin 16) (t : Nat) (s : State) (hk : Keeps fl s₀ s) :
    KeepsRes fl s₀ (execSegUnmap w t s) := by
  unfold execSegUnmap
  try dsimp only
  repeat' first
    | with_reducible first
      | apply KeepsRes.next | apply KeepsRes.ite
    | intro _
    | with_reducible first
      | assumption | apply subCommand_keeps | apply State.at_keeps
    | split

theorem execCoreOutCmd_keeps (c : Fin 4) (t : Nat) (s : State) (hk : Keeps fl s₀ s) :
    KeepsRes fl s₀ (execCoreOutCmd c t s) := by
  unfold execCoreOutCmd
  try dsimp only
  repeat' first
    | with_reducible first
      | apply KeepsRes.next | apply KeepsRes.ite
    | intro _
    | with_reducible first
      | assumption | apply subCommand_keeps | apply State.at_keeps
    | split

theorem execCoreIn_keeps (c : Fin 4) (t : Nat) (s : State) (hk : Keeps fl s₀ s) :
    KeepsRes fl s₀ (execCoreIn c t s) := by
  unfold execCoreIn
  try dsimp only
  repeat' first
    | with_reducible first
      | apply KeepsRes.next | apply KeepsRes.ite
    | intro _
    | with_reducible first
      | assumption | apply subCommand_keeps | apply State.at_keeps
    | split

theorem subDieFrame_keeps (s : State) (hk : Keeps fl s₀ s) :
    Keeps fl s₀ (subDieFrame s) := by
  unfold subDieFrame
  try dsimp only
  repeat' first
    | intro _
    | with_reducible first
      | assumption | apply Keeps.ite | apply subAbandon_keeps | apply subDone_keeps | apply subShow_keeps
      | apply mntFinish_keeps | apply forEach_keeps | apply overN_keeps | apply State.modDie_keeps | apply State.put_keeps
      | fail_if_no_progress refine Keeps.upd ?_
    | split

theorem setMap_keeps (w : Nat) (m : Option (Nat × Nat)) (s : State) (hk : Keeps fl s₀ s) :
    Keeps fl s₀ (setMap w m s) := by
  unfold setMap
  try dsimp only
  repeat' first
    | intro _
    | with_reducible first
      | assumption | apply State.flag_keeps | fail_if_no_progress refine Keeps.upd ?_
    | split

theorem mapsFrame_keeps (s : State) (hk : Keeps fl s₀ s) :
    Keeps fl s₀ (mapsFrame s) := by
  unfold mapsFrame
  try dsimp only
  repeat' first
    | intro _
    | with_reducible first
      | assumption | apply Keeps.ite | apply setMap_keeps | apply report_keeps | apply forEach_keeps
      | fail_if_no_progress refine Keeps.upd ?_
    | split

theorem subFrame_keeps (s : State) (hk : Keeps fl s₀ s) :
    Keeps fl s₀ (subFrame s) := by
  unfold subFrame
  try dsimp only
  repeat' first
    | intro _
    | with_reducible first
      | assumption | apply Keeps.ite | apply mapsFrame_keeps | apply subDieFrame_keeps | apply subTryStart_keeps
      | apply subDone_keeps | apply mntFinish_keeps | fail_if_no_progress refine Keeps.upd ?_
    | refine Keeps.ofPair (by assumption) ?_ | split

theorem subPowerDown_keeps (s : State) (hk : Keeps fl s₀ s) :
    Keeps fl s₀ (subPowerDown s) := by
  unfold subPowerDown
  try dsimp only
  repeat' first
    | intro _
    | with_reducible first
      | assumption | apply Keeps.ite | apply subFailed_keeps | fail_if_no_progress refine Keeps.upd ?_
    | split

theorem mntFirmware_keeps (kind unit : Nat) (s : State) (hk : Keeps fl s₀ s) :
    Keeps fl s₀ (mntFirmware kind unit s) := by
  unfold mntFirmware
  try dsimp only
  repeat' first
    | intro _
    | with_reducible first
      | assumption | apply Keeps.ite | apply mntClass_keeps | apply mntAsk_keeps | apply State.flag_keeps
      | apply State.put_keeps | fail_if_no_progress refine Keeps.upd ?_
    | refine Keeps.ofPair (by assumption) ?_ | split

theorem mntDrop_keeps (k : Nat) (s : State) (hk : Keeps fl s₀ s) :
    Keeps fl s₀ (mntDrop k s) := by
  unfold mntDrop
  try dsimp only
  repeat' first
    | intro _
    | with_reducible first
      | assumption | apply Keeps.ite | apply State.setSlot_keeps | fail_if_no_progress refine Keeps.upd ?_
    | split

theorem execMntRequest_keeps (kind : Fin 16) (unit : BitVec 20) (t : Nat) (s : State) (hk : Keeps fl s₀ s) :
    KeepsRes fl s₀ (execMntRequest kind unit t s) := by
  unfold execMntRequest
  try dsimp only
  repeat' first
    | with_reducible first
      | apply KeepsRes.next | apply KeepsRes.ite
    | intro _
    | with_reducible first
      | assumption | apply mntFirmware_keeps | apply State.at_keeps
    | split

theorem execMntCancel_keeps (slot : Fin 64) (t : Nat) (s : State) (hk : Keeps fl s₀ s) :
    KeepsRes fl s₀ (execMntCancel slot t s) := by
  unfold execMntCancel
  try dsimp only
  repeat' first
    | with_reducible first
      | apply KeepsRes.next | apply KeepsRes.ite
    | intro _
    | with_reducible first
      | assumption | apply mntDrop_keeps | apply State.at_keeps
    | split

theorem mntReqWrite_keeps (op kind unit : Nat) (s : State) (hk : Keeps fl s₀ s) :
    Keeps fl s₀ (mntReqWrite op kind unit s) := by
  unfold mntReqWrite
  try dsimp only
  repeat' first
    | intro _
    | with_reducible first
      | assumption | apply Keeps.ite | apply mntDrop_keeps | apply mntFirmware_keeps
    | split

theorem execActivityExpired_keeps (slot : Fin 64) (t : Nat) (s : State) (hk : Keeps fl s₀ s) :
    KeepsRes fl s₀ (execActivityExpired slot t s) := by
  unfold execActivityExpired
  try dsimp only
  repeat' first
    | with_reducible first
      | apply KeepsRes.next | apply KeepsRes.ite
    | intro _
    | with_reducible first
      | assumption | apply Keeps.ite | apply report_keeps | apply State.setSlot_keeps | apply State.at_keeps
      | fail_if_no_progress refine Keeps.upd ?_
    | split

theorem actStep_keeps (kind unit : Nat) (step : ActStep) (canMove : Bool) (onStart : State → State) (onEnd : Bool → State →
    State) (s : State) (honStart : ∀ s, Keeps fl s₀ s → Keeps fl s₀ (onStart s)) (honEnd : ∀ y s, Keeps fl s₀ s → Keeps fl s₀
    (onEnd y s)) (hk : Keeps fl s₀ s) :
    KeepsRes fl s₀ (actStep kind unit step canMove onStart onEnd s) := by
  unfold actStep
  try dsimp only
  repeat' first
    | with_reducible first
      | apply KeepsRes.next | apply KeepsRes.ite
    | intro _
    | with_reducible first
      | assumption | apply Keeps.ite | apply subTryStart_keeps | apply mntEnd_keeps | apply mntStartOf_keeps | apply honStart
      | apply honEnd | fail_if_no_progress refine Keeps.upd ?_
    | refine Keeps.ofPair (by assumption) ?_ | split

theorem arbiterAsk_keeps (due : Bool) (kind unit : Nat) (step : ActStep) (s : State) (hk : Keeps fl s₀ s) :
    Keeps fl s₀ (arbiterAsk due kind unit step s) := by
  unfold arbiterAsk
  try dsimp only
  repeat' first
    | intro _
    | with_reducible first
      | assumption | apply Keeps.ite | apply mntRequest_keeps
    | split

theorem countCorrected_keeps (l : List (Nat × Nat)) (s : State) (hk : Keeps fl s₀ s) :
    Keeps fl s₀ (countCorrected l s) := by
  unfold countCorrected
  try dsimp only
  repeat' first
    | intro _
    | with_reducible first
      | assumption | apply forEach_keeps | fail_if_no_progress refine Keeps.upd ?_
    | split

theorem execScrubFlash_keeps (u : Fin 1024) (t : Nat) (step : ActStep) (corr : List (Nat × Nat)) (bad : Bool) (s : State) (hk :
    Keeps fl s₀ s) :
    KeepsRes fl s₀ (execScrubFlash u t step corr bad s) := by
  unfold execScrubFlash
  try dsimp only
  repeat' first
    | with_reducible first
      | apply KeepsRes.next | apply KeepsRes.ite
    | intro _
    | with_reducible first
      | assumption | apply Keeps.ite | apply countCorrected_keeps | apply arbiterAsk_keeps | apply actStep_keeps
      | apply report_keeps | apply State.at_keeps | fail_if_no_progress refine Keeps.upd ?_
    | split

theorem execScrubSram_keeps (u : Fin 384) (t : Nat) (step : ActStep) (bad : Bool) (s : State) (hk : Keeps fl s₀ s) :
    KeepsRes fl s₀ (execScrubSram u t step bad s) := by
  unfold execScrubSram
  try dsimp only
  repeat' first
    | with_reducible first
      | apply KeepsRes.next | apply KeepsRes.ite
    | intro _
    | with_reducible first
      | assumption | apply Keeps.ite | apply arbiterAsk_keeps | apply actStep_keeps | apply report_keeps | apply State.at_keeps
      | fail_if_no_progress refine Keeps.upd ?_
    | split

theorem blockErased_keeps (b : Nat) (s : State) (hk : Keeps fl s₀ s) :
    Keeps fl s₀ (blockErased b s) := by
  unfold blockErased
  try dsimp only
  repeat' first
    | intro _
    | with_reducible first
      | assumption | apply eraseRange_keeps | fail_if_no_progress refine Keeps.upd ?_
    | split

theorem execEraseBlock_keeps (u : Fin 7680) (t : Nat) (step : ActStep) (s : State) (hk : Keeps fl s₀ s) :
    KeepsRes fl s₀ (execEraseBlock u t step s) := by
  unfold execEraseBlock
  try dsimp only
  repeat' first
    | with_reducible first
      | apply KeepsRes.next | apply KeepsRes.ite
    | intro _
    | with_reducible first
      | assumption | apply Keeps.ite | apply blockErased_keeps | apply actStep_keeps | apply State.at_keeps
      | fail_if_no_progress refine Keeps.upd ?_ | apply Keeps.same
    | split

theorem relocTile_keeps (fid key : Nat) (c : Copy) (s : State) (hk : Keeps fl s₀ s) : Keeps fl s₀ (relocTile fid key c s) := by
  unfold relocTile
  dsimp only
  split
  · exact hk
  · rename_i b _
    have h := nextSeq_keeps _ (State.setBytes_keeps s (storeAddr b) (s.bytes (storeAddr c.block) (imageBytes (key / 65536))) hk)
    generalize nextSeq _ = s1 at h ⊢
    have h2 (l) := appendRec_keeps l s1 h
    split
    · exact report_keeps _ _ (h2 _)
    · apply freeBlocks_keeps
      split
      · exact (h2 _).upd id id (fun _ => rfl) id
      · exact h2 _

theorem relocBlock_keeps (b : Nat) (s : State) (hk : Keeps fl s₀ s) :
    Keeps fl s₀ (relocBlock b s) := by
  unfold relocBlock
  try dsimp only
  repeat' first
    | intro _
    | with_reducible first
      | assumption | apply Keeps.ite | apply relocTile_keeps | apply blockErased_keeps | apply compactDir_keeps
      | apply State.setBytes_keeps | apply State.draw_keeps | fail_if_no_progress refine Keeps.upd ?_
    | refine Keeps.ofPair (by assumption) ?_ | split

theorem execWearReloc_keeps (u : Fin 7680) (t : Nat) (step : ActStep) (s : State) (hk : Keeps fl s₀ s) :
    KeepsRes fl s₀ (execWearReloc u t step s) := by
  unfold execWearReloc
  try dsimp only
  repeat' first
    | with_reducible first
      | apply KeepsRes.next | apply KeepsRes.ite
    | intro _
    | with_reducible first
      | assumption | apply Keeps.ite | apply relocBlock_keeps | apply arbiterAsk_keeps | apply actStep_keeps
      | apply State.at_keeps | fail_if_no_progress refine Keeps.upd ?_ | apply Keeps.same
    | split

theorem execPage_keeps (layer : Fin 3) (tx ty : BitVec 8) (t : Nat) (step : ActStep) (s : State) (hk : Keeps fl s₀ s) :
    KeepsRes fl s₀ (execPage layer tx ty t step s) := by
  unfold execPage
  try dsimp only
  repeat' first
    | with_reducible first
      | apply KeepsRes.next | apply KeepsRes.ite
    | intro _
    | with_reducible first
      | assumption | apply Keeps.ite | apply actStep_keeps | apply pageIn_keeps | apply State.at_keeps
      | fail_if_no_progress refine Keeps.upd ?_ | apply Keeps.same
    | split

theorem execLogCopy_keeps (t : Nat) (step : ActStep) (s : State) (hk : Keeps fl s₀ s) :
    KeepsRes fl s₀ (execLogCopy t step s) := by
  unfold execLogCopy
  try dsimp only
  repeat' first
    | with_reducible first
      | apply KeepsRes.next | apply KeepsRes.ite
    | intro _
    | with_reducible first
      | assumption | apply Keeps.ite | apply actStep_keeps | apply mntRequest_keeps | apply State.setWords_keeps
      | apply State.draw_keeps | apply State.at_keeps | apply State.put_keeps | fail_if_no_progress refine Keeps.upd ?_
      | apply Keeps.same
    | split

theorem execTelemetry_keeps (t : Nat) (step : ActStep) (s : State) (hk : Keeps fl s₀ s) :
    KeepsRes fl s₀ (execTelemetry t step s) := by
  unfold execTelemetry
  try dsimp only
  repeat' first
    | with_reducible first
      | apply KeepsRes.next | apply KeepsRes.ite
    | intro _
    | with_reducible first
      | assumption | apply Keeps.ite | apply actStep_keeps | apply State.setBytes_keeps | apply State.draw_keeps
      | apply State.at_keeps | fail_if_no_progress refine Keeps.upd ?_ | apply Keeps.same
    | split

theorem execCalOn_keeps (i : Fin 152) (t : Nat) (step : ActStep) (off : Nat) (gain : BitVec 16) (s : State) (hk : Keeps fl s₀ s) :
    KeepsRes fl s₀ (execCalOn i t step off gain s) := by
  unfold execCalOn
  try dsimp only
  repeat' first
    | with_reducible first
      | apply KeepsRes.next | apply KeepsRes.ite
    | intro _
    | with_reducible first
      | assumption | apply Keeps.ite | apply actStep_keeps | apply fltEvent_keeps | apply State.modChan_keeps
      | apply State.at_keeps | fail_if_no_progress refine Keeps.upd ?_ | apply Keeps.same
    | split

theorem execDiagOff_keeps (i : Fin 152) (t : Nat) (step : ActStep) (down up : Bool) (s : State) (hk : Keeps fl s₀ s) :
    KeepsRes fl s₀ (execDiagOff i t step down up s) := by
  unfold execDiagOff
  try dsimp only
  repeat' first
    | with_reducible first
      | apply KeepsRes.next | apply KeepsRes.ite
    | intro _
    | with_reducible first
      | assumption | apply Keeps.ite | apply actStep_keeps | apply twice_keeps | apply State.setChan_keeps
      | apply State.at_keeps | fail_if_no_progress refine Keeps.upd ?_ | apply Keeps.same
    | split

theorem execCoreTest_keeps (c : Fin 4) (t : Nat) (step : ActStep) (s : State) (hk : Keeps fl s₀ s) :
    KeepsRes fl s₀ (execCoreTest c t step s) := by
  unfold execCoreTest
  try dsimp only
  repeat' first
    | with_reducible first
      | apply KeepsRes.next | apply KeepsRes.ite
    | intro _
    | with_reducible first
      | assumption | apply Keeps.ite | apply actStep_keeps | apply subFailed_keeps | apply subShow_keeps | apply report_keeps
      | apply State.at_keeps | apply State.putBit_keeps | fail_if_no_progress refine Keeps.upd ?_
    | split

theorem ledSubWrite_keeps (p drv tmo : Nat) (req : Bool) (s : State) (hk : Keeps fl s₀ s) :
    Keeps fl s₀ (ledSubWrite p drv tmo req s) := by
  unfold ledSubWrite
  try dsimp only
  repeat' first
    | intro _
    | with_reducible first
      | assumption | apply ledReplace_keeps | apply State.flag_keeps | apply State.put_keeps
      | fail_if_no_progress refine Keeps.upd ?_
    | split

theorem execLcpSubReq_keeps (p : Fin 2) (drv : Fin 16) (tmo : BitVec 8) (t : Nat) (s : State) (hk : Keeps fl s₀ s) :
    KeepsRes fl s₀ (execLcpSubReq p drv tmo t s) := by
  unfold execLcpSubReq
  try dsimp only
  repeat' first
    | with_reducible first
      | apply KeepsRes.next | apply KeepsRes.ite
    | intro _
    | with_reducible first
      | assumption | apply Keeps.ite | apply ledSubWrite_keeps | apply State.at_keeps | fail_if_no_progress refine Keeps.upd ?_
    | split

theorem noteSwitch_keeps (s : State) (hk : Keeps fl s₀ s) :
    Keeps fl s₀ (noteSwitch s) := by
  unfold noteSwitch
  try dsimp only
  repeat' first
    | intro _
    | with_reducible first
      | assumption | apply State.put_keeps
    | split

theorem causeBegins_keeps (n : Nat) (s : State) (hk : Keeps fl s₀ s) :
    Keeps fl s₀ (causeBegins n s) := by
  unfold causeBegins
  try dsimp only
  repeat' first
    | intro _
    | with_reducible first
      | assumption | apply report_keeps | fail_if_no_progress refine Keeps.upd ?_
    | split

theorem causeEnds_keeps (n : Nat) (s : State) (hk : Keeps fl s₀ s) :
    Keeps fl s₀ (causeEnds n s) := by
  unfold causeEnds
  try dsimp only
  repeat' first
    | intro _
    | with_reducible first
      | assumption | fail_if_no_progress refine Keeps.upd ?_
    | split

theorem hfrcIncrement_keeps (s : State) (hk : Keeps fl s₀ s) :
    Keeps fl s₀ (hfrcIncrement s) := by
  unfold hfrcIncrement
  try dsimp only
  repeat' first
    | intro _
    | with_reducible first
      | assumption | apply State.draw_keeps | apply State.put_keeps | fail_if_no_progress refine Keeps.upd ?_
    | split

theorem runOnHfrc_keeps (s : State) (hk : Keeps fl s₀ s) :
    Keeps fl s₀ (runOnHfrc s) := by
  unfold runOnHfrc
  try dsimp only
  repeat' first
    | intro _
    | with_reducible first
      | assumption | apply hfrcIncrement_keeps | apply noteSwitch_keeps | apply ethDown_keeps | apply overN_keeps
      | apply State.put_keeps
    | split

theorem waitForHfrc_keeps (s : State) (hk : Keeps fl s₀ s) :
    Keeps fl s₀ (waitForHfrc s) := by
  unfold waitForHfrc
  try dsimp only
  repeat' first
    | intro _
    | with_reducible first
      | assumption | apply ethDown_keeps | apply overN_keeps | apply State.put_keeps | fail_if_no_progress refine Keeps.upd ?_
    | split

theorem endWait_keeps (s : State) (hk : Keeps fl s₀ s) :
    Keeps fl s₀ (endWait s) := by
  unfold endWait
  try dsimp only
  repeat' first
    | intro _
    | with_reducible first
      | assumption | apply Keeps.ite | apply runOnHfrc_keeps | apply reportHeld_keeps | apply forEach_keeps
      | fail_if_no_progress refine Keeps.upd ?_
    | split

theorem clockForce_keeps (isolated : Bool) (s : State) (hk : Keeps fl s₀ s) :
    Keeps fl s₀ (clockForce isolated s) := by
  unfold clockForce
  try dsimp only
  repeat' first
    | intro _
    | with_reducible first
      | assumption | apply Keeps.ite | apply waitForHfrc_keeps | apply runOnHfrc_keeps | apply dieBackstop_keeps
      | apply overN_keeps | apply State.flag_keeps | fail_if_no_progress refine Keeps.upd ?_
    | split

theorem tripXin_keeps (s : State) (hk : Keeps fl s₀ s) :
    Keeps fl s₀ (tripXin s) := by
  unfold tripXin
  try dsimp only
  repeat' first
    | intro _
    | with_reducible first
      | assumption | apply Keeps.ite | apply clockForce_keeps | apply causeBegins_keeps | apply State.flag_keeps
      | fail_if_no_progress refine Keeps.upd ?_
    | split

theorem tripPll_keeps (s : State) (hk : Keeps fl s₀ s) :
    Keeps fl s₀ (tripPll s) := by
  unfold tripPll
  try dsimp only
  repeat' first
    | intro _
    | with_reducible first
      | assumption | apply clockForce_keeps | apply causeBegins_keeps | apply State.flag_keeps
    | split

theorem tripHfrc_keeps (s : State) (hk : Keeps fl s₀ s) :
    Keeps fl s₀ (tripHfrc s) := by
  unfold tripHfrc
  try dsimp only
  repeat' first
    | intro _
    | with_reducible first
      | assumption | apply Keeps.ite | apply clockForce_keeps | apply causeBegins_keeps | apply State.flag_keeps
      | fail_if_no_progress refine Keeps.upd ?_
    | split

theorem tripLxtal_keeps (s : State) (hk : Keeps fl s₀ s) :
    Keeps fl s₀ (tripLxtal s) := by
  unfold tripLxtal
  try dsimp only
  repeat' first
    | intro _
    | with_reducible first
      | assumption | apply Keeps.ite | apply causeBegins_keeps | apply State.flag_keeps
      | fail_if_no_progress refine Keeps.upd ?_
    | split

theorem clockTrip_keeps (m : ClockMon) (s : State) (hk : Keeps fl s₀ s) :
    Keeps fl s₀ (clockTrip m s) := by
  unfold clockTrip
  try dsimp only
  repeat' first
    | intro _
    | with_reducible first
      | assumption | apply Keeps.ite | apply tripLxtal_keeps | apply tripHfrc_keeps | apply tripPll_keeps | apply tripXin_keeps
      | apply clockForce_keeps | apply causeBegins_keeps | apply report_keeps | apply State.flag_keeps
      | fail_if_no_progress refine Keeps.upd ?_
    | refine Keeps.ofPair (by assumption) ?_ | split

theorem execClockMonitorTrip_keeps (m : ClockMon) (t : Nat) (s : State) (hk : Keeps fl s₀ s) :
    KeepsRes fl s₀ (execClockMonitorTrip m t s) := by
  unfold execClockMonitorTrip
  try dsimp only
  repeat' first
    | with_reducible first
      | apply KeepsRes.next | apply KeepsRes.ite
    | intro _
    | with_reducible first
      | assumption | apply clockTrip_keeps | apply State.at_keeps
    | split

theorem qualify_keeps (c : ClockSrc) (s : State) (hk : Keeps fl s₀ s) :
    Keeps fl s₀ (qualify c s) := by
  unfold qualify
  try dsimp only
  repeat' first
    | intro _
    | with_reducible first
      | assumption | apply Keeps.ite | apply endWait_keeps | apply causeEnds_keeps | apply State.flag_keeps
      | fail_if_no_progress refine Keeps.upd ?_
    | refine Keeps.ofPair (by assumption) ?_ | split

theorem execSourceQualified_keeps (c : ClockSrc) (t : Nat) (s : State) (hk : Keeps fl s₀ s) :
    KeepsRes fl s₀ (execSourceQualified c t s) := by
  unfold execSourceQualified
  try dsimp only
  repeat' first
    | with_reducible first
      | apply KeepsRes.next | apply KeepsRes.ite
    | intro _
    | with_reducible first
      | assumption | apply Keeps.ite | apply qualify_keeps | apply State.at_keeps | fail_if_no_progress refine Keeps.upd ?_
    | split

theorem execClockRereport_keeps (n : Fin 16) (t : Nat) (s : State) (hk : Keeps fl s₀ s) :
    KeepsRes fl s₀ (execClockRereport n t s) := by
  unfold execClockRereport
  try dsimp only
  repeat' first
    | with_reducible first
      | apply KeepsRes.next | apply KeepsRes.ite
    | intro _
    | with_reducible first
      | assumption | apply Keeps.ite | apply causeBegins_keeps | apply State.at_keeps | fail_if_no_progress refine Keeps.upd ?_
    | refine Keeps.ofPair (by assumption) ?_ | split

theorem execLfcalMeasure_keeps (t : Nat) (cal : BitVec 32) (s : State) (hk : Keeps fl s₀ s) :
    KeepsRes fl s₀ (execLfcalMeasure t cal s) := by
  unfold execLfcalMeasure
  try dsimp only
  repeat' first
    | with_reducible first
      | apply KeepsRes.next | apply KeepsRes.ite
    | intro _
    | with_reducible first
      | assumption | apply Keeps.ite | apply State.at_keeps | apply State.put_keeps | fail_if_no_progress refine Keeps.upd ?_
    | split

theorem clockReturn_keeps (s : State) (hk : Keeps fl s₀ s) :
    Keeps fl s₀ (clockReturn s) := by
  unfold clockReturn
  try dsimp only
  repeat' first
    | intro _
    | with_reducible first
      | assumption | apply Keeps.ite | fail_if_no_progress refine Keeps.upd ?_
    | split

theorem execPrismReturn_keeps (t : Nat) (s : State) (hk : Keeps fl s₀ s) :
    KeepsRes fl s₀ (execPrismReturn t s) := by
  unfold execPrismReturn
  try dsimp only
  repeat' first
    | with_reducible first
      | apply KeepsRes.next | apply KeepsRes.ite
    | intro _
    | with_reducible first
      | assumption | apply clockReturn_keeps | apply State.at_keeps
    | split

theorem doReturn_keeps (next : Nat) (s : State) (hk : Keeps fl s₀ s) : Keeps fl s₀ (doReturn next s) := by
  unfold doReturn
  dsimp only
  apply Keeps.ite ?_ hk
  have h1 : s.now ≤ (s.now + 399) / 400 * 400 := by omega
  have h2 : Keeps fl s₀ { s.put PRISM_STAT_SRC 0 with now := (s.now + 399) / 400 * 400, prism := { s.prism with ret := false } } :=
    have h := State.put_keeps s PRISM_STAT_SRC 0 hk
    ⟨h.pending, h.mem, h.regs, h.pub, h.damaged, h.drawn, h.safe, hk.now.imp id (fun p => Nat.le_trans p h1)⟩
  apply overN_keeps
  · intro y s hs
    exact Keeps.ite hs (State.modCan_keeps _ _ _ hs)
  · exact State.put_keeps _ _ _ (State.put_keeps _ _ _ (noteSwitch_keeps _ h2))

theorem gateWrite_keeps (v : Nat) (s : State) (hk : Keeps fl s₀ s) :
    Keeps fl s₀ (gateWrite v s) := by
  unfold gateWrite
  try dsimp only
  repeat' first
    | intro _
    | with_reducible first
      | assumption | apply Keeps.ite | apply ethDown_keeps | apply cutTx_keeps | apply overN_keeps | apply State.put_keeps
      | fail_if_no_progress refine Keeps.upd ?_
    | split

theorem execPrismGate_keeps (v : BitVec 15) (s : State) (hk : Keeps fl s₀ s) :
    KeepsRes fl s₀ (execPrismGate v s) := by
  unfold execPrismGate
  try dsimp only
  repeat' first
    | with_reducible first
      | apply KeepsRes.next | apply KeepsRes.ite
    | intro _
    | with_reducible first
      | assumption | apply Keeps.ite | apply gateWrite_keeps
    | split

end Sys2Proof.Machine
end

