-- ==== Sys2Proof/Laws/OpsPower.lean ====
section
/-!
SUPPORT. Sys2Proof/Laws/OpsPower.lean: what each operation of power, the bus view, the frame lock, debug control and resets keeps (`Keeps` says what that is), one lemma for each
operation, so that no proof unfolds one to know that it leaves the queue, the identity or the canonical forms alone.
-/
namespace Sys2Proof.Machine
-- the small lemmas of this file one after another, each without a thread of its own
set_option Elab.async false
set_option linter.all false
variable {fl : Bool} {s₀ : State}

theorem noteVbat_keeps (mV : Nat) (s : State) (hk : Keeps fl s₀ s) :
    Keeps fl s₀ (noteVbat mV s) := by
  unfold noteVbat
  try dsimp only
  repeat' first
    | intro _
    | with_reducible first
      | assumption | apply State.put_keeps | fail_if_no_progress refine Keeps.upd ?_
    | split

theorem execVbatUv_keeps (mV t : Nat) (s : State) (hk : Keeps fl s₀ s) :
    KeepsRes fl s₀ (execVbatUv mV t s) := by
  unfold execVbatUv
  try dsimp only
  repeat' first
    | with_reducible first
      | apply KeepsRes.next | apply KeepsRes.ite
    | intro _
    | with_reducible first
      | assumption | apply Keeps.ite | apply noteVbat_keeps | apply report_keeps | apply State.at_keeps
      | fail_if_no_progress refine Keeps.upd ?_
    | split

theorem execVbatOv_keeps (mV t : Nat) (s : State) (hk : Keeps fl s₀ s) :
    KeepsRes fl s₀ (execVbatOv mV t s) := by
  unfold execVbatOv
  try dsimp only
  repeat' first
    | with_reducible first
      | apply KeepsRes.next | apply KeepsRes.ite
    | intro _
    | with_reducible first
      | assumption | apply Keeps.ite | apply noteVbat_keeps | apply report_keeps | apply State.at_keeps
      | fail_if_no_progress refine Keeps.upd ?_
    | split

theorem execFlashSuspendUv_keeps (mV t : Nat) (s : State) (hk : Keeps fl s₀ s) :
    KeepsRes fl s₀ (execFlashSuspendUv mV t s) := by
  unfold execFlashSuspendUv
  try dsimp only
  repeat' first
    | with_reducible first
      | apply KeepsRes.next | apply KeepsRes.ite
    | intro _
    | with_reducible first
      | assumption | apply Keeps.ite | apply noteVbat_keeps | apply State.at_keeps | fail_if_no_progress refine Keeps.upd ?_
    | split

theorem execFlashResumeUv_keeps (mV t : Nat) (s : State) (hk : Keeps fl s₀ s) :
    KeepsRes fl s₀ (execFlashResumeUv mV t s) := by
  unfold execFlashResumeUv
  try dsimp only
  repeat' first
    | with_reducible first
      | apply KeepsRes.next | apply KeepsRes.ite
    | intro _
    | with_reducible first
      | assumption | apply Keeps.ite | apply noteVbat_keeps | apply State.at_keeps | fail_if_no_progress refine Keeps.upd ?_
    | split

theorem execGroupWire_keeps (_g : Fin 8) (mVg mVl mA t : Nat) (s : State) (hk : Keeps fl s₀ s) :
    KeepsRes fl s₀ (execGroupWire _g mVg mVl mA t s) := by
  unfold execGroupWire
  try dsimp only
  repeat' first
    | with_reducible first
      | apply KeepsRes.next | apply KeepsRes.ite
    | intro _
    | with_reducible first
      | assumption | apply Keeps.ite | apply report_keeps | apply State.at_keeps | fail_if_no_progress refine Keeps.upd ?_
    | split

theorem noteTemp_keeps (c16 : Int) (s : State) (hk : Keeps fl s₀ s) :
    Keeps fl s₀ (noteTemp c16 s) := by
  unfold noteTemp
  try dsimp only
  repeat' first
    | intro _
    | with_reducible first
      | assumption | apply State.put_keeps
    | split

theorem execLogicHot_keeps (c16 : Int) (t : Nat) (s : State) (hk : Keeps fl s₀ s) :
    KeepsRes fl s₀ (execLogicHot c16 t s) := by
  unfold execLogicHot
  try dsimp only
  repeat' first
    | with_reducible first
      | apply KeepsRes.next | apply KeepsRes.ite
    | intro _
    | with_reducible first
      | assumption | apply Keeps.ite | apply noteTemp_keeps | apply report_keeps | apply State.at_keeps
      | fail_if_no_progress refine Keeps.upd ?_
    | split

theorem execLogicTsd_keeps (c16 : Int) (t : Nat) (s : State) (hk : Keeps fl s₀ s) :
    KeepsRes fl s₀ (execLogicTsd c16 t s) := by
  unfold execLogicTsd
  try dsimp only
  repeat' first
    | with_reducible first
      | apply KeepsRes.next | apply KeepsRes.ite
    | intro _
    | with_reducible first
      | assumption | apply Keeps.ite | apply noteTemp_keeps | apply report_keeps | apply State.at_keeps
      | fail_if_no_progress refine Keeps.upd ?_
    | split

theorem execRegFault_keeps (t : Nat) (s : State) (hk : Keeps fl s₀ s) :
    KeepsRes fl s₀ (execRegFault t s) := by
  unfold execRegFault
  try dsimp only
  repeat' first
    | with_reducible first
      | apply KeepsRes.next | apply KeepsRes.ite
    | intro _
    | with_reducible first
      | assumption | apply report_keeps | apply State.at_keeps
    | split

theorem execPkgLoad_keeps (mA mW t : Nat) (s : State) (hk : Keeps fl s₀ s) :
    KeepsRes fl s₀ (execPkgLoad mA mW t s) := by
  unfold execPkgLoad
  try dsimp only
  repeat' first
    | with_reducible first
      | apply KeepsRes.next | apply KeepsRes.ite
    | intro _
    | with_reducible first
      | assumption | apply Keeps.ite | apply report_keeps | apply State.at_keeps | fail_if_no_progress refine Keeps.upd ?_
    | split

theorem execParityError_keeps (u : ParityUnit) (t : Nat) (s : State) (hk : Keeps fl s₀ s) :
    KeepsRes fl s₀ (execParityError u t s) := by
  unfold execParityError
  try dsimp only
  repeat' first
    | with_reducible first
      | apply KeepsRes.next | apply KeepsRes.ite
    | intro _
    | with_reducible first
      | assumption | apply reportFull_keeps | apply State.at_keeps
    | split

theorem clearWakes_keeps (s : State) (hk : Keeps fl s₀ s) :
    Keeps fl s₀ (clearWakes s) := by
  unfold clearWakes
  try dsimp only
  repeat' first
    | intro _
    | with_reducible first
      | assumption | apply State.modNm_keeps | apply overN_keeps | fail_if_no_progress refine Keeps.upd ?_
    | split

theorem wakeRecord_keeps (first unit levels : Nat) (s : State) (hk : Keeps fl s₀ s) :
    Keeps fl s₀ (wakeRecord first unit levels s) := by
  unfold wakeRecord
  try dsimp only
  repeat' first
    | intro _
    | with_reducible first
      | assumption | apply State.put64_keeps | apply State.put_keeps | fail_if_no_progress refine Keeps.upd ?_
    | split

theorem dropOld_keeps (s : State) (hk : Keeps fl s₀ s) :
    Keeps fl s₀ (dropOld s) := by
  unfold dropOld
  try dsimp only
  repeat' first
    | intro _
    | with_reducible first
      | assumption | fail_if_no_progress refine Keeps.upd ?_
    | split

theorem execWakeInput_keeps (level : Bool) (t : Nat) (s : State) (hk : Keeps fl s₀ s) :
    KeepsRes fl s₀ (execWakeInput level t s) := by
  unfold execWakeInput
  try dsimp only
  repeat' first
    | with_reducible first
      | apply KeepsRes.next | apply KeepsRes.ite
    | intro _
    | with_reducible first
      | assumption | apply dropOld_keeps | apply State.at_keeps | fail_if_no_progress refine Keeps.upd ?_
    | split

theorem wakeSrcRead_keeps (s : State) (hk : Keeps fl s₀ s) :
    Keeps fl s₀ (wakeSrcRead s) := by
  unfold wakeSrcRead
  try dsimp only
  repeat' first
    | intro _
    | with_reducible first
      | assumption | apply Keeps.ite | fail_if_no_progress refine Keeps.upd ?_
    | split

theorem execPwrWakeSrcRead_keeps (s : State) (hk : Keeps fl s₀ s) :
    KeepsRes fl s₀ (execPwrWakeSrcRead s) := by
  unfold execPwrWakeSrcRead
  try dsimp only
  repeat' first
    | with_reducible first
      | apply KeepsRes.next | apply KeepsRes.ite
    | intro _
    | with_reducible first
      | assumption | apply wakeSrcRead_keeps
    | split

theorem execIgnOkRise_keeps (t : Nat) (s : State) (hk : Keeps fl s₀ s) :
    KeepsRes fl s₀ (execIgnOkRise t s) := by
  unfold execIgnOkRise
  try dsimp only
  repeat' first
    | with_reducible first
      | apply KeepsRes.next | apply KeepsRes.ite
    | intro _
    | with_reducible first
      | assumption | apply Keeps.ite | apply gatesChanged_keeps | apply State.at_keeps | apply State.flag_keeps
      | fail_if_no_progress refine Keeps.upd ?_
    | split

theorem execIgnOkFall_keeps (t : Nat) (s : State) (hk : Keeps fl s₀ s) :
    KeepsRes fl s₀ (execIgnOkFall t s) := by
  unfold execIgnOkFall
  try dsimp only
  repeat' first
    | with_reducible first
      | apply KeepsRes.next | apply KeepsRes.ite
    | intro _
    | with_reducible first
      | assumption | apply Keeps.ite | apply dropOld_keeps | apply gatesChanged_keeps | apply State.at_keeps
      | apply State.flag_keeps | apply State.put_keeps | fail_if_no_progress refine Keeps.upd ?_
    | refine Keeps.ofPair (by assumption) ?_ | split

theorem machReq_keeps (v : Nat) (s : State) (hk : Keeps fl s₀ s) :
    Keeps fl s₀ (machReq v s) := by
  unfold machReq
  try dsimp only
  repeat' first
    | intro _
    | with_reducible first
      | assumption | apply Keeps.ite | apply State.put_keeps
    | split

theorem execMachReq_keeps (v : BitVec 2) (s : State) (hk : Keeps fl s₀ s) :
    KeepsRes fl s₀ (execMachReq v s) := by
  unfold execMachReq
  try dsimp only
  repeat' first
    | with_reducible first
      | apply KeepsRes.next | apply KeepsRes.ite
    | intro _
    | with_reducible first
      | assumption | apply Keeps.ite | apply machReq_keeps
    | split

theorem takeRequest_keeps (target : Nat) (s : State) (hk : Keeps fl s₀ s) :
    Keeps fl s₀ (takeRequest target s) := by
  unfold takeRequest
  try dsimp only
  repeat' first
    | intro _
    | with_reducible first
      | assumption | apply Keeps.ite | apply clearWakes_keeps | apply flushStart_keeps | apply immoReport_keeps
      | apply immoFall_keeps | apply mntRequest_keeps | apply State.flag_keeps | apply State.put_keeps
      | fail_if_no_progress refine Keeps.upd ?_
    | split

theorem powerRequest_keeps (target : Nat) (s : State) (hk : Keeps fl s₀ s) :
    Keeps fl s₀ (powerRequest target s) := by
  unfold powerRequest
  try dsimp only
  repeat' first
    | intro _
    | with_reducible first
      | assumption | apply Keeps.ite | apply takeRequest_keeps | apply State.put_keeps
    | split

theorem execIdleRequest_keeps (t : Nat) (s : State) (hk : Keeps fl s₀ s) :
    KeepsRes fl s₀ (execIdleRequest t s) := by
  unfold execIdleRequest
  try dsimp only
  repeat' first
    | with_reducible first
      | apply KeepsRes.next | apply KeepsRes.ite
    | intro _
    | with_reducible first
      | assumption | apply powerRequest_keeps | apply State.at_keeps
    | split

theorem execSleepRequest_keeps (t : Nat) (s : State) (hk : Keeps fl s₀ s) :
    KeepsRes fl s₀ (execSleepRequest t s) := by
  unfold execSleepRequest
  try dsimp only
  repeat' first
    | with_reducible first
      | apply KeepsRes.next | apply KeepsRes.ite
    | intro _
    | with_reducible first
      | assumption | apply powerRequest_keeps | apply State.at_keeps
    | split

theorem execDeepRequest_keeps (t : Nat) (s : State) (hk : Keeps fl s₀ s) :
    KeepsRes fl s₀ (execDeepRequest t s) := by
  unfold execDeepRequest
  try dsimp only
  repeat' first
    | with_reducible first
      | apply KeepsRes.next | apply KeepsRes.ite
    | intro _
    | with_reducible first
      | assumption | apply powerRequest_keeps | apply State.at_keeps
    | split

theorem execOffRequest_keeps (t : Nat) (s : State) (hk : Keeps fl s₀ s) :
    KeepsRes fl s₀ (execOffRequest t s) := by
  unfold execOffRequest
  try dsimp only
  repeat' first
    | with_reducible first
      | apply KeepsRes.next | apply KeepsRes.ite
    | intro _
    | with_reducible first
      | assumption | apply powerRequest_keeps | apply State.at_keeps
    | split

theorem takePending_keeps (s : State) (hk : Keeps fl s₀ s) :
    Keeps fl s₀ (takePending s) := by
  unfold takePending
  try dsimp only
  repeat' first
    | intro _
    | with_reducible first
      | assumption | apply Keeps.ite | apply powerRequest_keeps | apply State.put_keeps
      | fail_if_no_progress refine Keeps.upd ?_
    | split

theorem endEntry_keeps (s : State) (hk : Keeps fl s₀ s) :
    Keeps fl s₀ (endEntry s) := by
  unfold endEntry
  try dsimp only
  repeat' first
    | intro _
    | with_reducible first
      | assumption | apply State.put_keeps
    | split

theorem execEntryTmo_keeps (t : Nat) (s : State) (hk : Keeps fl s₀ s) :
    KeepsRes fl s₀ (execEntryTmo t s) := by
  unfold execEntryTmo
  try dsimp only
  repeat' first
    | with_reducible first
      | apply KeepsRes.next | apply KeepsRes.ite
    | intro _
    | with_reducible first
      | assumption | apply Keeps.ite | apply endEntry_keeps | apply takePending_keeps | apply clearWakes_keeps
      | apply report_keeps | apply State.at_keeps | apply State.flag_keeps | fail_if_no_progress refine Keeps.upd ?_
    | split

theorem abortWait_keeps (s : State) (hk : Keeps fl s₀ s) :
    Keeps fl s₀ (abortWait s) := by
  unfold abortWait
  try dsimp only
  repeat' first
    | intro _
    | with_reducible first
      | assumption | apply endEntry_keeps | apply takePending_keeps | apply clearWakes_keeps | apply State.flag_keeps
    | split

theorem endIdle_keeps (s : State) (hk : Keeps fl s₀ s) :
    Keeps fl s₀ (endIdle s) := by
  unfold endIdle
  try dsimp only
  repeat' first
    | intro _
    | with_reducible first
      | assumption | apply Keeps.ite | apply takePending_keeps | apply clearWakes_keeps | apply raiseAll_keeps
      | apply overN_keeps | apply State.setCore_keeps | apply State.put_keeps | fail_if_no_progress refine Keeps.upd ?_
    | split

theorem enterIdle_keeps (s : State) (hk : Keeps fl s₀ s) :
    Keeps fl s₀ (enterIdle s) := by
  unfold enterIdle
  try dsimp only
  repeat' first
    | intro _
    | with_reducible first
      | assumption | apply Keeps.ite | apply endIdle_keeps | apply endEntry_keeps | apply dropPasses_keeps | apply overN_keeps
      | apply State.setCore_keeps | apply State.put_keeps | fail_if_no_progress refine Keeps.upd ?_
    | split

theorem execIdleFrames_keeps (t : Nat) (s : State) (hk : Keeps fl s₀ s) :
    KeepsRes fl s₀ (execIdleFrames t s) := by
  unfold execIdleFrames
  try dsimp only
  repeat' first
    | with_reducible first
      | apply KeepsRes.next | apply KeepsRes.ite
    | intro _
    | with_reducible first
      | assumption | apply Keeps.ite | apply endIdle_keeps | apply State.at_keeps | fail_if_no_progress refine Keeps.upd ?_
    | split

theorem pschDescent_keeps (s : State) (hk : Keeps fl s₀ s) :
    Keeps fl s₀ (pschDescent s) := by
  unfold pschDescent
  try dsimp only
  repeat' first
    | intro _
    | with_reducible first
      | assumption | apply gatesChanged_keeps | apply State.flag_keeps | fail_if_no_progress refine Keeps.upd ?_
    | split

theorem accDescent_keeps (s : State) (hk : Keeps fl s₀ s) :
    Keeps fl s₀ (accDescent s) := by
  unfold accDescent
  try dsimp only
  repeat' first
    | intro _
    | with_reducible first
      | assumption | apply Keeps.ite | apply State.put_keeps | fail_if_no_progress refine Keeps.upd ?_
    | split

theorem linksDescent_keeps (s : State) (hk : Keeps fl s₀ s) :
    Keeps fl s₀ (linksDescent s) := by
  unfold linksDescent
  try dsimp only
  repeat' first
    | intro _
    | with_reducible first
      | assumption | apply Keeps.ite | apply ethDown_keeps | apply State.setLin_keeps | apply uartStop_keeps | apply cutTx_keeps
      | apply overN_keeps | apply State.put_keeps | fail_if_no_progress refine Keeps.upd ?_
    | split

theorem keeperDescent_keeps (s : State) (hk : Keeps fl s₀ s) :
    Keeps fl s₀ (keeperDescent s) := by
  unfold keeperDescent
  try dsimp only
  repeat' first
    | intro _
    | with_reducible first
      | assumption | apply endToken_keeps | fail_if_no_progress refine Keeps.upd ?_
    | split

theorem coresDescent_keeps (s : State) (hk : Keeps fl s₀ s) :
    Keeps fl s₀ (coresDescent s) := by
  unfold coresDescent
  try dsimp only
  repeat' first
    | intro _
    | with_reducible first
      | assumption | apply dropPasses_keeps | apply overN_keeps | apply State.setCore_keeps | apply State.put_keeps
      | fail_if_no_progress refine Keeps.upd ?_
    | split

theorem descend_keeps (s : State) (hk : Keeps fl s₀ s) :
    Keeps fl s₀ (descend s) := by
  unfold descend
  try dsimp only
  repeat' first
    | intro _
    | with_reducible first
      | assumption | apply Keeps.ite | apply coresDescent_keeps | apply keeperDescent_keeps | apply linksDescent_keeps
      | apply accDescent_keeps | apply pschDescent_keeps | apply subPowerDown_keeps | apply fldPowerOff_keeps
      | apply ledStop_keeps | apply covFreeze_keeps | apply tmrSync_keeps | apply dieBackstop_keeps | apply overN_keeps
      | apply State.put_keeps | fail_if_no_progress refine Keeps.upd ?_
    | split

theorem powerT0_keeps (s : State) (hk : Keeps fl s₀ s) :
    Keeps fl s₀ (powerT0 s) := by
  unfold powerT0
  try dsimp only
  repeat' first
    | intro _
    | with_reducible first
      | assumption | apply Keeps.ite | apply descend_keeps | apply enterIdle_keeps
    | split

theorem sleepRecord_keeps (s : State) (hk : Keeps fl s₀ s) :
    Keeps fl s₀ (sleepRecord s) := by
  unfold sleepRecord
  try dsimp only
  repeat' first
    | intro _
    | with_reducible first
      | assumption | apply State.put64_keeps | apply State.put_keeps | fail_if_no_progress refine Keeps.upd ?_
    | split

theorem relock_keeps (s : State) (hk : Keeps fl s₀ s) :
    Keeps fl s₀ (relock s) := by
  unfold relock
  try dsimp only
  repeat' first
    | intro _
    | with_reducible first
      | assumption | apply Keeps.ite | apply State.put_keeps | fail_if_no_progress refine Keeps.upd ?_
    | split

theorem canReturn_keeps (n : Nat) (s : State) (hk : Keeps fl s₀ s) :
    Keeps fl s₀ (canReturn n s) := by
  unfold canReturn
  try dsimp only
  repeat' first
    | intro _
    | with_reducible first
      | assumption | apply Keeps.ite | apply canGo_keeps | fail_if_no_progress refine Keeps.upd ?_
    | split

theorem touchReturn_keeps (s : State) (hk : Keeps fl s₀ s) :
    Keeps fl s₀ (touchReturn s) := by
  unfold touchReturn
  try dsimp only
  repeat' first
    | intro _
    | with_reducible first
      | assumption | apply touchTrigger_keeps | fail_if_no_progress refine Keeps.upd ?_
    | refine Keeps.ofPair (by assumption) ?_ | split

theorem linReturn_keeps (lin : Nat) (s : State) (hk : Keeps fl s₀ s) :
    Keeps fl s₀ (linReturn lin s) := by
  unfold linReturn
  try dsimp only
  repeat' first
    | intro _
    | with_reducible first
      | assumption | apply Keeps.ite | apply linStart_keeps | apply overN_keeps
    | split

theorem returnReports_keeps (s : State) (hk : Keeps fl s₀ s) :
    Keeps fl s₀ (returnReports s) := by
  unfold returnReports
  try dsimp only
  repeat' first
    | intro _
    | with_reducible first
      | assumption | apply Keeps.ite | apply causeBegins_keeps | apply report_keeps | fail_if_no_progress refine Keeps.upd ?_
    | split

theorem blocksReturn_keeps (s : State) (hk : Keeps fl s₀ s) :
    Keeps fl s₀ (blocksReturn s) := by
  unfold blocksReturn
  try dsimp only
  repeat' first
    | intro _
    | with_reducible first
      | assumption | apply Keeps.ite | apply canReturn_keeps | apply ledRestart_keeps | apply tmrWake_keeps
      | apply covThaw_keeps | apply overN_keeps | apply State.modDie_keeps | apply State.put_keeps
      | fail_if_no_progress refine Keeps.upd ?_
    | split

theorem returnFromSleep_keeps (first unit : Nat) (s : State) (hk : Keeps fl s₀ s) :
    Keeps fl s₀ (returnFromSleep first unit s) := by
  unfold returnFromSleep
  try dsimp only
  repeat' first
    | intro _
    | with_reducible first
      | assumption | apply blocksReturn_keeps | apply returnReports_keeps | apply linReturn_keeps | apply touchReturn_keeps
      | apply relock_keeps | apply sleepRecord_keeps | apply endEntry_keeps | apply wakeRecord_keeps | apply clearWakes_keeps
      | apply startPending_keeps | apply overN_keeps | apply State.setCore_keeps | apply State.put_keeps
      | fail_if_no_progress refine Keeps.upd ?_
    | split

theorem readEffect_keeps (a : Nat) (s : State) (hk : Keeps fl s₀ s) :
    Keeps fl s₀ (readEffect a s) := by
  unfold readEffect
  try dsimp only
  repeat' first
    | intro _
    | with_reducible first
      | assumption | apply Keeps.ite | apply wakeSrcRead_keeps | apply uartTake_keeps | apply capHiRead_keeps
      | apply capLoRead_keeps | fail_if_no_progress refine Keeps.upd ?_
    | split

theorem busRead_keeps (a : Nat) (s : State) (hk : Keeps fl s₀ s) :
    Keeps fl s₀ (busRead a s).2 := by
  unfold busRead
  try dsimp only
  repeat' first
    | intro _ | with_reducible assumption | split | with_reducible apply readEffect_keeps | split

theorem setLock_keeps (st : Nat) (s : State) (hk : Keeps fl s₀ s) :
    Keeps fl s₀ (setLock st s) := by
  unfold setLock
  try dsimp only
  repeat' first
    | intro _
    | with_reducible first
      | assumption | apply Keeps.ite | apply State.put_keeps
    | (fail_if_no_progress ((with_reducible apply Keeps.upd) <;> first | exact id | exact fun _ => rfl | skip)) | split

theorem lockFree_keeps (s : State) (hk : Keeps fl s₀ s) :
    Keeps fl s₀ (lockFree s) := by
  unfold lockFree
  try dsimp only
  repeat' first
    | intro _
    | with_reducible first
      | assumption | apply setLock_keeps | fail_if_no_progress refine Keeps.upd ?_
    | split

theorem lockAcquire_keeps (s : State) (hk : Keeps fl s₀ s) :
    Keeps fl s₀ (lockAcquire s) := by
  unfold lockAcquire
  try dsimp only
  repeat' first
    | intro _
    | with_reducible first
      | assumption | apply setLock_keeps | fail_if_no_progress refine Keeps.upd ?_
    | split

theorem lockRefuse_keeps (s : State) (hk : Keeps fl s₀ s) :
    Keeps fl s₀ (lockRefuse s) := by
  unfold lockRefuse
  try dsimp only
  repeat' first
    | intro _
    | with_reducible first
      | assumption | apply lockFree_keeps | apply report_keeps
    | split

theorem lockChecked_keeps (acquire : Bool) (s : State) (hk : Keeps fl s₀ s) :
    Keeps fl s₀ (lockChecked acquire s) := by
  unfold lockChecked
  try dsimp only
  repeat' first
    | intro _
    | with_reducible first
      | assumption | apply Keeps.ite | apply lockRefuse_keeps | apply lockAcquire_keeps | apply lockFree_keeps
    | split

theorem noteReference_keeps (ref : Nat) (e : Int) (s : State) (hk : Keeps fl s₀ s) :
    Keeps fl s₀ (noteReference ref e s) := by
  unfold noteReference
  try dsimp only
  repeat' first
    | intro _
    | with_reducible first
      | assumption | apply Keeps.ite | apply State.put_keeps | fail_if_no_progress refine Keeps.upd ?_
    | refine Keeps.ofPair (by assumption) ?_ | split

theorem lockStep_keeps (e : Int) (s : State) (hk : Keeps fl s₀ s) :
    Keeps fl s₀ (lockStep e s) := by
  unfold lockStep
  try dsimp only
  repeat' first
    | intro _
    | with_reducible first
      | assumption | apply Keeps.ite | apply lockAcquire_keeps | apply setLock_keeps | fail_if_no_progress refine Keeps.upd ?_
    | split

theorem lockRef_keeps (ref : Nat) (s : State) (hk : Keeps fl s₀ s) :
    Keeps fl s₀ (lockRef ref s) := by
  unfold lockRef
  try dsimp only
  repeat' first
    | intro _
    | with_reducible first
      | assumption | apply Keeps.ite | apply lockStep_keeps | apply noteReference_keeps | apply lockRefuse_keeps
      | fail_if_no_progress refine Keeps.upd ?_
    | split

theorem execLockReference_keeps (t : Nat) (edge : Option Nat) (s : State) (hk : Keeps fl s₀ s) :
    KeepsRes fl s₀ (execLockReference t edge s) := by
  unfold execLockReference
  try dsimp only
  repeat' first
    | with_reducible first
      | apply KeepsRes.next | apply KeepsRes.ite
    | intro _
    | with_reducible first
      | assumption | apply Keeps.ite | apply lockRef_keeps | apply State.at_keeps | fail_if_no_progress refine Keeps.upd ?_
    | refine Keeps.ofPair (by assumption) ?_ | split

theorem execReferenceMissing_keeps (t : Nat) (s : State) (hk : Keeps fl s₀ s) :
    KeepsRes fl s₀ (execReferenceMissing t s) := by
  unfold execReferenceMissing
  try dsimp only
  repeat' first
    | with_reducible first
      | apply KeepsRes.next | apply KeepsRes.ite
    | intro _
    | with_reducible first
      | assumption | apply Keeps.ite | apply setLock_keeps | apply report_keeps | apply State.at_keeps
      | fail_if_no_progress refine Keeps.upd ?_
    | split

theorem execLockFail_keeps (t : Nat) (s : State) (hk : Keeps fl s₀ s) :
    KeepsRes fl s₀ (execLockFail t s) := by
  unfold execLockFail
  try dsimp only
  repeat' first
    | with_reducible first
      | apply KeepsRes.next | apply KeepsRes.ite
    | intro _
    | with_reducible first
      | assumption | apply Keeps.ite | apply report_keeps | apply State.at_keeps | fail_if_no_progress refine Keeps.upd ?_
    | split

theorem frameTiming_keeps (len margin res : Nat) (f : Fld) (v : Nat) (s : State) (hk : Keeps fl s₀ s) :
    Keeps fl s₀ (frameTiming len margin res f v s) := by
  unfold frameTiming
  try dsimp only
  repeat' first
    | intro _
    | with_reducible first
      | assumption | apply Keeps.ite | apply report_keeps | apply State.put_keeps
    | split

theorem frameLen_keeps (v : Nat) (s : State) (hk : Keeps fl s₀ s) :
    Keeps fl s₀ (frameLen v s) := by
  unfold frameLen
  try dsimp only
  repeat' first
    | intro _
    | with_reducible first
      | assumption | apply Keeps.ite | apply frameTiming_keeps | apply lockChecked_keeps
      | fail_if_no_progress refine Keeps.upd ?_
    | split

theorem frameMargin_keeps (v : Nat) (s : State) (hk : Keeps fl s₀ s) :
    Keeps fl s₀ (frameMargin v s) := by
  unfold frameMargin
  try dsimp only
  repeat' first
    | intro _
    | with_reducible first
      | assumption | apply frameTiming_keeps
    | split

theorem frameCutres_keeps (v : Nat) (s : State) (hk : Keeps fl s₀ s) :
    Keeps fl s₀ (frameCutres v s) := by
  unfold frameCutres
  try dsimp only
  repeat' first
    | intro _
    | with_reducible first
      | assumption | apply frameTiming_keeps
    | split

theorem frameLock_keeps (v : Nat) (s : State) (hk : Keeps fl s₀ s) :
    Keeps fl s₀ (frameLock v s) := by
  unfold frameLock
  try dsimp only
  repeat' first
    | intro _
    | with_reducible first
      | assumption | apply lockChecked_keeps | apply State.put_keeps | fail_if_no_progress refine Keeps.upd ?_
    | split

theorem frameLockOfs_keeps (v : Nat) (s : State) (hk : Keeps fl s₀ s) :
    Keeps fl s₀ (frameLockOfs v s) := by
  unfold frameLockOfs
  try dsimp only
  repeat' first
    | intro _
    | with_reducible first
      | assumption | apply Keeps.ite | apply lockAcquire_keeps | apply State.put_keeps | fail_if_no_progress refine Keeps.upd ?_
    | split

theorem setRun_keeps (s : State) (hk : Keeps fl s₀ s) :
    Keeps fl s₀ (setRun s) := by
  unfold setRun
  try dsimp only
  repeat' first
    | intro _
    | with_reducible first
      | assumption | apply State.flag_keeps
    | split

theorem ttPost_keeps (i : Nat) (s : State) (hk : Keeps fl s₀ s) :
    Keeps fl s₀ (ttPost i s) := by
  unfold ttPost
  try dsimp only
  repeat' first
    | intro _
    | with_reducible first
      | assumption | apply Keeps.ite | fail_if_no_progress refine Keeps.upd ?_
    | split

theorem execFrameLenWrite_keeps (v : BitVec 7) (s : State) (hk : Keeps fl s₀ s) :
    KeepsRes fl s₀ (execFrameLenWrite v s) := by
  unfold execFrameLenWrite
  try dsimp only
  repeat' first
    | with_reducible first
      | apply KeepsRes.next | apply KeepsRes.ite
    | intro _
    | with_reducible first
      | assumption | apply Keeps.ite | apply frameLen_keeps
    | split

theorem execFrameMarginWrite_keeps (v : BitVec 12) (s : State) (hk : Keeps fl s₀ s) :
    KeepsRes fl s₀ (execFrameMarginWrite v s) := by
  unfold execFrameMarginWrite
  try dsimp only
  repeat' first
    | with_reducible first
      | apply KeepsRes.next | apply KeepsRes.ite
    | intro _
    | with_reducible first
      | assumption | apply Keeps.ite | apply frameMargin_keeps
    | split

theorem execFrameCutresWrite_keeps (v : BitVec 12) (s : State) (hk : Keeps fl s₀ s) :
    KeepsRes fl s₀ (execFrameCutresWrite v s) := by
  unfold execFrameCutresWrite
  try dsimp only
  repeat' first
    | with_reducible first
      | apply KeepsRes.next | apply KeepsRes.ite
    | intro _
    | with_reducible first
      | assumption | apply Keeps.ite | apply frameCutres_keeps
    | split

theorem execFrameLockWrite_keeps (v : Word) (s : State) (hk : Keeps fl s₀ s) :
    KeepsRes fl s₀ (execFrameLockWrite v s) := by
  unfold execFrameLockWrite
  try dsimp only
  repeat' first
    | with_reducible first
      | apply KeepsRes.next | apply KeepsRes.ite
    | intro _
    | with_reducible first
      | assumption | apply Keeps.ite | apply frameLock_keeps
    | split

theorem execFrameLockOfsWrite_keeps (v : Word) (s : State) (hk : Keeps fl s₀ s) :
    KeepsRes fl s₀ (execFrameLockOfsWrite v s) := by
  unfold execFrameLockOfsWrite
  try dsimp only
  repeat' first
    | with_reducible first
      | apply KeepsRes.next | apply KeepsRes.ite
    | intro _
    | with_reducible first
      | assumption | apply Keeps.ite | apply frameLockOfs_keeps
    | split

theorem execRun_keeps (s : State) (hk : Keeps fl s₀ s) :
    KeepsRes fl s₀ (execRun s) := by
  unfold execRun
  try dsimp only
  repeat' first
    | with_reducible first
      | apply KeepsRes.next | apply KeepsRes.ite
    | intro _
    | with_reducible first
      | assumption | apply Keeps.ite | apply setRun_keeps
    | split

theorem execTtPost_keeps (i : Fin 64) (s : State) (hk : Keeps fl s₀ s) :
    KeepsRes fl s₀ (execTtPost i s) := by
  unfold execTtPost
  try dsimp only
  repeat' first
    | with_reducible first
      | apply KeepsRes.next | apply KeepsRes.ite
    | intro _
    | with_reducible first
      | assumption | apply Keeps.ite | apply ttPost_keeps
    | split

theorem setDebugMode_keeps (m : Nat) (s : State) (hk : Keeps fl s₀ s) :
    Keeps fl s₀ (setDebugMode m s) := by
  unfold setDebugMode
  try dsimp only
  repeat' first
    | intro _
    | with_reducible first
      | assumption | apply Keeps.ite | apply State.put_keeps | fail_if_no_progress refine Keeps.upd ?_
    | split

theorem modeReq_keeps (v : Nat) (s : State) (hk : Keeps fl s₀ s) :
    Keeps fl s₀ (modeReq v s) := by
  unfold modeReq
  try dsimp only
  repeat' first
    | intro _
    | with_reducible first
      | assumption | apply Keeps.ite | apply setDebugMode_keeps | apply State.put_keeps
      | fail_if_no_progress refine Keeps.upd ?_
    | split

theorem haltReq_keeps (s : State) (hk : Keeps fl s₀ s) :
    Keeps fl s₀ (haltReq s) := by
  unfold haltReq
  try dsimp only
  repeat' first
    | intro _
    | with_reducible first
      | assumption | apply Keeps.ite | apply haltCores_keeps | apply State.flag_keeps | fail_if_no_progress refine Keeps.upd ?_
    | split

theorem execModeReq_keeps (v : BitVec 2) (s : State) (hk : Keeps fl s₀ s) :
    KeepsRes fl s₀ (execModeReq v s) := by
  unfold execModeReq
  try dsimp only
  repeat' first
    | with_reducible first
      | apply KeepsRes.next | apply KeepsRes.ite
    | intro _
    | with_reducible first
      | assumption | apply Keeps.ite | apply modeReq_keeps
    | split

theorem execHalt_keeps (t : Nat) (s : State) (hk : Keeps fl s₀ s) :
    KeepsRes fl s₀ (execHalt t s) := by
  unfold execHalt
  try dsimp only
  repeat' first
    | with_reducible first
      | apply KeepsRes.next | apply KeepsRes.ite
    | intro _
    | with_reducible first
      | assumption | apply Keeps.ite | apply haltReq_keeps | apply State.at_keeps | fail_if_no_progress refine Keeps.upd ?_
    | split

theorem execDebugResume_keeps (t : Nat) (s : State) (hk : Keeps fl s₀ s) :
    KeepsRes fl s₀ (execDebugResume t s) := by
  unfold execDebugResume
  try dsimp only
  repeat' first
    | with_reducible first
      | apply KeepsRes.next | apply KeepsRes.ite
    | intro _
    | with_reducible first
      | assumption | apply Keeps.ite | apply debugResume_keeps | apply State.at_keeps | fail_if_no_progress refine Keeps.upd ?_
    | split

theorem execBreakpoint_keeps (b core : Fin 4) (t : Nat) (s : State) (hk : Keeps fl s₀ s) :
    KeepsRes fl s₀ (execBreakpoint b core t s) := by
  unfold execBreakpoint
  try dsimp only
  repeat' first
    | with_reducible first
      | apply KeepsRes.next | apply KeepsRes.ite
    | intro _
    | with_reducible first
      | assumption | apply Keeps.ite | apply haltCores_keeps | apply State.at_keeps | fail_if_no_progress refine Keeps.upd ?_
    | split

theorem execDebugPortInstruction_keeps (ins : Fin 5) (s : State) (hk : Keeps fl s₀ s) :
    KeepsRes fl s₀ (execDebugPortInstruction ins s) := by
  unfold execDebugPortInstruction
  try dsimp only
  repeat' first
    | with_reducible first
      | apply KeepsRes.next | apply KeepsRes.ite
    | intro _
    | with_reducible first
      | assumption | apply Keeps.ite | fail_if_no_progress refine Keeps.upd ?_
    | split

theorem frameReport_keeps (n : Nat) (s : State) (hk : Keeps fl s₀ s) :
    Keeps fl s₀ (frameReport n s) := by
  unfold frameReport
  try dsimp only
  repeat' first
    | intro _
    | with_reducible first
      | assumption | apply reportFull_keeps
    | split

theorem coreReport_keeps (n c : Nat) (s : State) (hk : Keeps fl s₀ s) :
    Keeps fl s₀ (coreReport n c s) := by
  unfold coreReport
  try dsimp only
  repeat' first
    | intro _
    | with_reducible first
      | assumption | apply reportFull_keeps
    | split

theorem copyBank_keeps (c base : Nat) (x : Task) (s : State) (hk : Keeps fl s₀ s) :
    Keeps fl s₀ (copyBank c base x s) := by
  unfold copyBank
  try dsimp only
  repeat' first
    | intro _
    | with_reducible first
      | assumption | apply Keeps.ite | apply coreReport_keeps | apply State.setBytes_keeps
      | fail_if_no_progress refine Keeps.upd ?_
    | split

theorem putReplay_keeps (c : Nat) (isReg : Bool) (target : Nat) (w : Word) (s : State) (hk : Keeps fl s₀ s) :
    Keeps fl s₀ (putReplay c isReg target w s) := by
  unfold putReplay
  try dsimp only
  repeat' first
    | intro _
    | with_reducible first
      | assumption | apply Keeps.ite | apply State.setCore_keeps | apply State.setWord_keeps
      | fail_if_no_progress refine Keeps.upd ?_
    | split

theorem deliver_keeps (c : Nat) (s : State) (hk : Keeps fl s₀ s) :
    Keeps fl s₀ (deliver c s) := by
  unfold deliver
  try dsimp only
  repeat' first
    | intro _
    | with_reducible first
      | assumption | apply Keeps.ite | apply putReplay_keeps | apply forEach_keeps | fail_if_no_progress refine Keeps.upd ?_
    | refine Keeps.ofPair (by assumption) ?_ | split

theorem startPass_keeps (c i : Nat) (mirror : Bool) (s : State) (hk : Keeps fl s₀ s) :
    Keeps fl s₀ (startPass c i mirror s) := by
  unfold startPass
  try dsimp only
  repeat' first
    | intro _
    | with_reducible first
      | assumption | apply Keeps.ite | apply deliver_keeps | apply copyBank_keeps | apply State.setCore_keeps
      | fail_if_no_progress refine Keeps.upd ?_
    | split

theorem nextPrim_keeps (c : Nat) (l : List Nat) (s t : State) (e : nextPrim c l s = some t) (hk : Keeps fl s₀ s) :
    Keeps fl s₀ t := by
  induction l generalizing s with
  | nil => simp [nextPrim] at e
  | cons i l ih =>
    unfold nextPrim at e
    dsimp only at e
    split at e
    · exact ih _ e (settleTask_keeps _ _ _ hk)
    · cases e
      exact startPass_keeps _ _ _ _ (State.setCore_keeps _ _ _ hk)

theorem skipRest_keeps (c : Nat) (l : List Nat) (s : State) (hk : Keeps fl s₀ s) :
    Keeps fl s₀ (skipRest c l s) := by
  unfold skipRest
  try dsimp only
  repeat' first
    | intro _
    | with_reducible first
      | assumption | apply settleTask_keeps | apply forEach_keeps | apply State.setCore_keeps
      | fail_if_no_progress refine Keeps.upd ?_
    | split

theorem nextPass_keeps (c : Nat) (s : State) (hk : Keeps fl s₀ s) : Keeps fl s₀ (nextPass c s) := by
  unfold nextPass
  split
  · exact nextPrim_keeps _ _ _ _ ‹_› hk
  · dsimp only
    have h := skipRest_keeps c (s.core c).primQ s hk
    split
    · exact startPass_keeps _ _ _ _ (State.setCore_keeps _ _ _ h)
    · exact h

theorem mismatchOut_keeps (c i n : Nat) (o : TaskOut) (s : State) (hk : Keeps fl s₀ s) :
    Keeps fl s₀ (mismatchOut c i n o s) := by
  unfold mismatchOut
  try dsimp only
  repeat' first
    | intro _
    | with_reducible first
      | assumption | apply Keeps.ite | apply coreReport_keeps | apply frameReport_keeps | apply settleTask_keeps
      | fail_if_no_progress refine Keeps.upd ?_
    | split

theorem compareTask_keeps (i : Nat) (s : State) (hk : Keeps fl s₀ s) :
    Keeps fl s₀ (compareTask i s) := by
  unfold compareTask
  try dsimp only
  repeat' first
    | intro _
    | with_reducible first
      | assumption | apply Keeps.ite | apply mismatchOut_keeps | fail_if_no_progress refine Keeps.upd ?_
    | split

theorem compare_keeps (s : State) (hk : Keeps fl s₀ s) :
    Keeps fl s₀ (compare s) := by
  unfold compare
  try dsimp only
  repeat' first
    | intro _
    | with_reducible first
      | assumption | apply compareTask_keeps | apply forEach_keeps | apply State.wrap_keeps | apply State.put_keeps
    | (fail_if_no_progress ((with_reducible apply Keeps.upd) <;> first | exact id | exact fun _ => rfl | skip)) | split

theorem compareIfIdle_keeps (s : State) (hk : Keeps fl s₀ s) :
    Keeps fl s₀ (compareIfIdle s) := by
  unfold compareIfIdle
  try dsimp only
  repeat' first
    | intro _
    | with_reducible first
      | assumption | apply Keeps.ite | apply compare_keeps
    | split

theorem leavePass_keeps (c : Nat) (p : Pass) (s : State) (hk : Keeps fl s₀ s) :
    Keeps fl s₀ (leavePass c p s) := by
  unfold leavePass
  try dsimp only
  repeat' first
    | intro _
    | with_reducible first
      | assumption | apply Keeps.ite | apply State.setRun_keeps | apply State.setCore_keeps
      | fail_if_no_progress refine Keeps.upd ?_
    | split

theorem compareSig_keeps (c i : Nat) (s : State) (hk : Keeps fl s₀ s) :
    Keeps fl s₀ (compareSig c i s) := by
  unfold compareSig
  try dsimp only
  repeat' first
    | intro _
    | with_reducible first
      | assumption | apply Keeps.ite | apply mismatchOut_keeps | fail_if_no_progress refine Keeps.upd ?_
    | split

theorem endPass_keeps (c : Nat) (s : State) (hk : Keeps fl s₀ s) :
    Keeps fl s₀ (endPass c s) := by
  unfold endPass
  try dsimp only
  repeat' first
    | intro _
    | with_reducible first
      | assumption | apply Keeps.ite | apply compareSig_keeps | apply leavePass_keeps | apply compareIfIdle_keeps
      | apply nextPass_keeps | apply State.setRun_keeps | apply State.setCore_keeps | fail_if_no_progress refine Keeps.upd ?_
    | refine Keeps.ofPair (by assumption) ?_ | split

theorem breakPass_keeps (c : Nat) (o : TaskOut) (s : State) (hk : Keeps fl s₀ s) :
    Keeps fl s₀ (breakPass c o s) := by
  unfold breakPass
  try dsimp only
  repeat' first
    | intro _
    | with_reducible first
      | assumption | apply Keeps.ite | apply leavePass_keeps | apply compareIfIdle_keeps | apply mismatchOut_keeps
      | apply nextPass_keeps | apply coreReport_keeps | apply settleTask_keeps | fail_if_no_progress refine Keeps.upd ?_
    | refine Keeps.ofPair (by assumption) ?_ | split

theorem lastingState_keeps (s : State) (hk : Keeps fl s₀ s) : Keeps fl s₀ (lastingState s) :=
  ⟨hk.pending, fun p => Tab.keep_wf _ (hk.mem p), fun _ => rfl, hk.pub, hk.damaged, hk.drawn, fun _ => .inl ⟨rfl, fun _ => rfl⟩,
    .inl ⟨rfl, fun _ => rfl⟩⟩

theorem sensed_keeps (s : State) (r : State) (hk : Keeps fl s₀ r) :
    Keeps fl s₀ (sensed s r) := by
  unfold sensed
  try dsimp only
  repeat' first
    | intro _
    | with_reducible first
      | assumption | apply State.flag_keeps | fail_if_no_progress refine Keeps.upd ?_
    | split

theorem diesKept_keeps (s r : State) (hs : Tab.wf fieldReset s₀.fields = true → Tab.wf fieldReset s.fields = true)
    (hk : Keeps fl s₀ r) : Keeps fl s₀ (diesKept s r) :=
  ⟨hk.pending, hk.mem, fun p => Tab.keep_wf _ (hs p), hk.pub, hk.damaged, hk.drawn, hk.safe, hk.now⟩

theorem logKept_keeps (s : State) (r : State) (hk : Keeps fl s₀ r) :
    Keeps fl s₀ (logKept s r) := by
  unfold logKept
  try dsimp only
  repeat' first
    | intro _
    | with_reducible first
      | assumption | apply State.flag_keeps | apply State.put_keeps | fail_if_no_progress refine Keeps.upd ?_
    | split

theorem logicReset_keeps (cause : Nat) (s : State) (hk : Keeps fl s₀ s) : Keeps fl s₀ (logicReset cause s) := by
  have h := lastingState_keeps s hk
  unfold logicReset
  generalize lastingState s = r at h ⊢
  have h2 : Keeps fl s₀ { r with mem := s.mem, ded := s.ded } :=
    ⟨h.pending, hk.mem, h.regs, h.pub, h.damaged, h.drawn, h.safe, h.now⟩
  exact gatesChanged_keeps _ (State.put_keeps _ _ _ (logKept_keeps _ _ (sensed_keeps _ _ (diesKept_keeps _ _ hk.regs h2))))

theorem brownoutReset_keeps (s : State) (hk : Keeps fl s₀ s) : Keeps fl s₀ (brownoutReset s) :=
  gatesChanged_keeps _ (fldPowerOff_keeps _ (State.put_keeps _ _ _ (State.flag_keeps _ _ _
    (sensed_keeps _ _ (diesKept_keeps _ _ hk.regs (lastingState_keeps s hk))))))

theorem powerLost_keeps (s : State) (hk : Keeps fl s₀ s) :
    Keeps fl s₀ (powerLost s) := by
  unfold powerLost
  try dsimp only
  repeat' first
    | intro _
    | with_reducible first
      | assumption | apply lastingState_keeps | apply State.put_keeps
    | split

theorem deepLost_keeps (s : State) (hk : Keeps fl s₀ s) : Keeps fl s₀ (deepLost s) := by
  have h := diesKept_keeps { s with now := 0 } _ hk.regs (lastingState_keeps s hk)
  have ha : (diesKept { s with now := 0 } (lastingState s)).alive = false := rfl
  have hf : (diesKept { s with now := 0 } (lastingState s)).frame.started = false := rfl
  unfold deepLost
  dsimp only
  generalize diesKept { s with now := 0 } (lastingState s) = d at h ha hf ⊢
  have h2 : Keeps fl s₀ (sensed s { d with
      mem := Tab.keep (fun k => lasting k || s.retained k) s.mem, ded := s.ded.filter s.retained
      fields := Tab.keep deepField s.fields
      frozen := s.frozen, now := s.now, power := s.power, pwr := s.pwr, acc := s.acc, tmr := s.tmr, nms := s.nms,
      lins := [], immoOk := s.immoOk, field := {} }) :=
    sensed_keeps _ _ ⟨h.pending, fun p => Tab.keep_wf (fun k => lasting k || s.retained k) (hk.mem p), fun p => Tab.keep_wf
        deepField (hk.regs p), h.pub, h.damaged,
      h.drawn, fun _ => .inl ⟨hf, fun _ => ha⟩, .inl ⟨hf, fun _ => ha⟩⟩
  generalize sensed s _ = e at h2 ⊢
  exact gatesChanged_keeps _ (h2.upd id id (fun _ => rfl) id)

theorem deepStart_keeps (s : State) (hk : Keeps fl s₀ s) : Keeps fl s₀ (deepStart s) :=
  ⟨hk.pending, hk.mem, fun p => Tab.keep_wf (fun k => k / 32 / 0x10000 != 0x600D) (hk.regs p), hk.pub, hk.damaged, hk.drawn,
      hk.safe,
    hk.now⟩

theorem after_keeps (o : Res) (s : State) (ho : KeepsRes fl s₀ o) (hk : Keeps fl s₀ s) : Keeps fl s₀ (after o s) := by
  unfold after
  split
  · obtain ⟨_, e, h⟩ := ho.of
    exact Host.Outcome.next.inj e ▸ h
  · exact hk
  · exact hk

theorem writeField_keeps (a v : Nat) (r : Row) (s : State) (hk : Keeps fl s₀ s) :
    Keeps fl s₀ (writeField a v r s) := by
  unfold writeField
  try dsimp only
  repeat' first
    | intro _
    | with_reducible first
      | assumption | apply Keeps.ite | apply State.put_keeps | fail_if_no_progress refine Keeps.upd ?_
    | refine Keeps.ofPair (by assumption) ?_ | split

theorem storeBut_keeps (skip : List Nat) (a v : Nat) (s : State) (hk : Keeps fl s₀ s) :
    Keeps fl s₀ (storeBut skip a v s) := by
  unfold storeBut
  try dsimp only
  repeat' first
    | intro _
    | with_reducible first
      | assumption | apply Keeps.ite | apply Keeps.foldl | apply writeField_keeps
    | split

theorem store_keeps (a v : Nat) (s : State) (hk : Keeps fl s₀ s) :
    Keeps fl s₀ (store a v s) := by
  unfold store
  try dsimp only
  repeat' first
    | intro _
    | with_reducible first
      | assumption | apply storeBut_keeps
    | split

theorem writePrism_keeps (o a v : Nat) (s : State) (hk : Keeps fl s₀ s) :
    Keeps fl s₀ (writePrism o a v s) := by
  unfold writePrism
  try dsimp only
  repeat' first
    | intro _
    | with_reducible first
      | assumption | apply Keeps.ite | apply store_keeps | apply gateWrite_keeps | apply clockReturn_keeps
      | fail_if_no_progress refine Keeps.upd ?_
    | split

theorem writePwr_keeps (o a v : Nat) (s : State) (hk : Keeps fl s₀ s) :
    Keeps fl s₀ (writePwr o a v s) := by
  unfold writePwr
  try dsimp only
  repeat' first
    | intro _
    | with_reducible first
      | assumption | apply Keeps.ite | apply store_keeps | apply powerRequest_keeps | apply machReq_keeps
    | split

theorem writeFrame_keeps (o a v : Nat) (s : State) (hk : Keeps fl s₀ s) :
    Keeps fl s₀ (writeFrame o a v s) := by
  unfold writeFrame
  try dsimp only
  repeat' first
    | intro _
    | with_reducible first
      | assumption | apply Keeps.ite | apply store_keeps | apply ttPost_keeps | apply setRun_keeps | apply frameLockOfs_keeps
      | apply frameLock_keeps | apply frameCutres_keeps | apply frameMargin_keeps | apply frameLen_keeps
    | split

theorem writeSrcCfg_keeps (n a v : Nat) (s : State) (hk : Keeps fl s₀ s) :
    Keeps fl s₀ (writeSrcCfg n a v s) := by
  unfold writeSrcCfg
  try dsimp only
  repeat' first
    | intro _
    | with_reducible first
      | assumption | apply Keeps.ite | apply store_keeps | apply storeBut_keeps | fail_if_no_progress refine Keeps.upd ?_
    | split

theorem writeUmp_keeps (o a v : Nat) (s : State) (hk : Keeps fl s₀ s) :
    Keeps fl s₀ (writeUmp o a v s) := by
  unfold writeUmp
  try dsimp only
  repeat' first
    | intro _
    | with_reducible first
      | assumption | apply Keeps.ite | apply writeSrcCfg_keeps | apply store_keeps | apply after_keeps | apply logicReset_keeps
      | apply execSafeReq_keeps | apply reportFull_keeps | apply forEach_keeps | fail_if_no_progress refine Keeps.upd ?_
    | split

theorem writeCht_keeps (o a v : Nat) (s : State) (hk : Keeps fl s₀ s) :
    Keeps fl s₀ (writeCht o a v s) := by
  unfold writeCht
  try dsimp only
  repeat' first
    | intro _
    | with_reducible first
      | assumption | apply Keeps.ite | apply store_keeps | apply after_keeps | apply execChtPost_keeps | apply chtClr_keeps
      | apply clrFlt_keeps | apply clrLatch_keeps | apply clrTherm_keeps | apply execResume_keeps | apply execBstop_keeps
      | fail_if_no_progress refine Keeps.upd ?_
    | split

theorem writePchn_keeps (o a v : Nat) (s : State) (hk : Keeps fl s₀ s) :
    Keeps fl s₀ (writePchn o a v s) := by
  unfold writePchn
  try dsimp only
  repeat' first
    | intro _
    | with_reducible first
      | assumption | apply Keeps.ite | apply store_keeps | apply chainStart_keeps
    | split

theorem writeLcp_keeps (o a v : Nat) (s : State) (hk : Keeps fl s₀ s) :
    Keeps fl s₀ (writeLcp o a v s) := by
  unfold writeLcp
  try dsimp only
  repeat' first
    | intro _
    | with_reducible first
      | assumption | apply Keeps.ite | apply store_keeps | apply storeBut_keeps | apply ledSubWrite_keeps
      | apply lcpEnable_keeps | fail_if_no_progress refine Keeps.upd ?_
    | split

theorem corrCmd_keeps (v : Nat) (s : State) (hk : Keeps fl s₀ s) :
    Keeps fl s₀ (corrCmd v s) := by
  unfold corrCmd
  try dsimp only
  repeat' first
    | intro _
    | with_reducible first
      | assumption | apply Keeps.ite | apply after_keeps | apply execSetCorr_keeps | apply execDelta_keeps
      | fail_if_no_progress refine Keeps.upd ?_
    | split

theorem eventCmd_keeps (v : Nat) (s : State) (hk : Keeps fl s₀ s) :
    Keeps fl s₀ (eventCmd v s) := by
  unfold eventCmd
  try dsimp only
  repeat' first
    | intro _
    | with_reducible first
      | assumption | apply Keeps.ite | apply after_keeps | apply execCancelAp_keeps | apply execEventCancel_keeps
      | apply execEventPost_keeps | fail_if_no_progress refine Keeps.upd ?_
    | split

theorem writePsch_keeps (o a v : Nat) (s : State) (hk : Keeps fl s₀ s) :
    Keeps fl s₀ (writePsch o a v s) := by
  unfold writePsch
  try dsimp only
  repeat' first
    | intro _
    | with_reducible first
      | assumption | apply Keeps.ite | apply eventCmd_keeps | apply corrCmd_keeps | apply store_keeps | apply after_keeps
      | apply execApClr_keeps | apply execApPost_keeps | fail_if_no_progress refine Keeps.upd ?_
    | split

theorem writeCov_keeps (o a v : Nat) (s : State) (hk : Keeps fl s₀ s) :
    Keeps fl s₀ (writeCov o a v s) := by
  unfold writeCov
  try dsimp only
  repeat' first
    | intro _
    | with_reducible first
      | assumption | apply Keeps.ite | apply store_keeps | apply storeBut_keeps | apply after_keeps | apply execFieldErase_keeps
      | apply execFieldFlush_keeps | apply execFieldClose_keeps | apply execFieldOpen_keeps | apply execCovEn_keeps
      | apply editCmd_keeps | fail_if_no_progress refine Keeps.upd ?_
    | split

theorem writeTmr_keeps (o a v : Nat) (s : State) (hk : Keeps fl s₀ s) :
    Keeps fl s₀ (writeTmr o a v s) := by
  unfold writeTmr
  try dsimp only
  repeat' first
    | intro _
    | with_reducible first
      | assumption | apply Keeps.ite | apply store_keeps | apply tmrClrFlags_keeps | apply tmrClrCnt_keeps | apply tmrPost_keeps
      | fail_if_no_progress refine Keeps.upd ?_
    | split

theorem writeFld_keeps (o a v : Nat) (s : State) (hk : Keeps fl s₀ s) :
    Keeps fl s₀ (writeFld o a v s) := by
  unfold writeFld
  try dsimp only
  repeat' first
    | intro _
    | with_reducible first
      | assumption | apply Keeps.ite | apply store_keeps | apply after_keeps | apply execTestReq_keeps
      | apply execFldResume_keeps | fail_if_no_progress refine Keeps.upd ?_
    | split

theorem canCtl_keeps (n a v : Nat) (s : State) (hk : Keeps fl s₀ s) :
    Keeps fl s₀ (canCtl n a v s) := by
  unfold canCtl
  try dsimp only
  repeat' first
    | intro _
    | with_reducible first
      | assumption | apply Keeps.ite | apply storeBut_keeps | apply after_keeps | apply canRecover_keeps
      | apply canRomClear_keeps | apply execRomSet_keeps | apply canInitSet_keeps | apply canInitClear_keeps
      | fail_if_no_progress refine Keeps.upd ?_
    | split

theorem writeCan_keeps (n o a v : Nat) (s : State) (hk : Keeps fl s₀ s) :
    Keeps fl s₀ (writeCan n o a v s) := by
  unfold writeCan
  try dsimp only
  repeat' first
    | intro _
    | with_reducible first
      | assumption | apply Keeps.ite | apply canCtl_keeps | apply store_keeps | apply canRefEn_keeps | apply mbPost_keeps
      | apply rxAck_keeps | apply canTxCmd_keeps | fail_if_no_progress refine Keeps.upd ?_
    | split

theorem writeNm_keeps (n o a v : Nat) (s : State) (hk : Keeps fl s₀ s) :
    Keeps fl s₀ (writeNm n o a v s) := by
  unfold writeNm
  try dsimp only
  repeat' first
    | intro _
    | with_reducible first
      | assumption | apply Keeps.ite | apply store_keeps | apply storeBut_keeps | apply nmReq_keeps | apply nmEnable_keeps
      | fail_if_no_progress refine Keeps.upd ?_
    | split

theorem writeLin_keeps (m o a v : Nat) (s : State) (hk : Keeps fl s₀ s) :
    Keeps fl s₀ (writeLin m o a v s) := by
  unfold writeLin
  try dsimp only
  repeat' first
    | intro _
    | with_reducible first
      | assumption | apply Keeps.ite | apply store_keeps | apply storeBut_keeps | apply after_keeps | apply execLinWake_keeps
      | apply linEnable_keeps | fail_if_no_progress refine Keeps.upd ?_
    | split

theorem writeEth_keeps (e o a v : Nat) (s : State) (hk : Keeps fl s₀ s) :
    Keeps fl s₀ (writeEth e o a v s) := by
  unfold writeEth
  try dsimp only
  repeat' first
    | intro _
    | with_reducible first
      | assumption | apply Keeps.ite | apply store_keeps | apply after_keeps | apply ethDown_keeps | apply execEthTxPush_keeps
      | fail_if_no_progress refine Keeps.upd ?_
    | split

theorem writeSent_keeps (r o a v : Nat) (s : State) (hk : Keeps fl s₀ s) :
    Keeps fl s₀ (writeSent r o a v s) := by
  unfold writeSent
  try dsimp only
  repeat' first
    | intro _
    | with_reducible first
      | assumption | apply Keeps.ite | apply store_keeps | apply State.setSent_keeps | fail_if_no_progress refine Keeps.upd ?_
    | split

theorem writeUart_keeps (u o a v : Nat) (s : State) (hk : Keeps fl s₀ s) :
    Keeps fl s₀ (writeUart u o a v s) := by
  unfold writeUart
  try dsimp only
  repeat' first
    | intro _
    | with_reducible first
      | assumption | apply Keeps.ite | apply store_keeps | apply uartSend_keeps | apply State.setUart_keeps
    | split

theorem writeAcc_keeps (o a v : Nat) (s : State) (hk : Keeps fl s₀ s) :
    Keeps fl s₀ (writeAcc o a v s) := by
  unfold writeAcc
  try dsimp only
  repeat' first
    | intro _
    | with_reducible first
      | assumption | apply Keeps.ite | apply store_keeps | apply after_keeps | apply execRevoke_keeps | apply serveRequest_keeps
      | fail_if_no_progress refine Keeps.upd ?_
    | split

theorem writeJrnl_keeps (o a v task : Nat) (s : State) (hk : Keeps fl s₀ s) :
    Keeps fl s₀ (writeJrnl o a v task s) := by
  unfold writeJrnl
  try dsimp only
  repeat' first
    | intro _
    | with_reducible first
      | assumption | apply Keeps.ite | apply store_keeps | apply jOp_keeps | fail_if_no_progress refine Keeps.upd ?_
    | split

theorem writeDbg_keeps (o a v : Nat) (s : State) (hk : Keeps fl s₀ s) :
    Keeps fl s₀ (writeDbg o a v s) := by
  unfold writeDbg
  try dsimp only
  repeat' first
    | intro _
    | with_reducible first
      | assumption | apply Keeps.ite | apply store_keeps | apply haltReq_keeps | apply modeReq_keeps | apply debugResume_keeps
      | fail_if_no_progress refine Keeps.upd ?_
    | split

theorem writeKmb_keeps (o a v : Nat) (s : State) (hk : Keeps fl s₀ s) :
    Keeps fl s₀ (writeKmb o a v s) := by
  unfold writeKmb
  try dsimp only
  repeat' first
    | intro _
    | with_reducible first
      | assumption | apply Keeps.ite | apply store_keeps | apply mbxIssue_keeps | fail_if_no_progress refine Keeps.upd ?_
    | split

theorem writeLinks_keeps (a v : Nat) (s : State) (hk : Keeps fl s₀ s) :
    Keeps fl s₀ (writeLinks a v s) := by
  unfold writeLinks
  try dsimp only
  repeat' first
    | intro _
    | with_reducible first
      | assumption | apply Keeps.ite | apply writeUart_keeps | apply writeSent_keeps | apply writeEth_keeps
      | apply writeLin_keeps | apply writeNm_keeps | apply writeCan_keeps | apply store_keeps
      | fail_if_no_progress refine Keeps.upd ?_
    | refine Keeps.ofPair (by assumption) ?_ | split

theorem writeJobs_keeps (a v task : Nat) (s : State) (hk : Keeps fl s₀ s) :
    Keeps fl s₀ (writeJobs a v task s) := by
  unfold writeJobs
  try dsimp only
  repeat' first
    | intro _
    | with_reducible first
      | assumption | apply Keeps.ite | apply writeKmb_keeps | apply writeDbg_keeps | apply writeJrnl_keeps
      | apply writeAcc_keeps | apply store_keeps | apply mntReqWrite_keeps | apply subCommand_keeps
      | fail_if_no_progress refine Keeps.upd ?_
    | refine Keeps.ofPair (by assumption) ?_ | split

theorem writeBlocks_keeps (a v : Nat) (s : State) (hk : Keeps fl s₀ s) :
    Keeps fl s₀ (writeBlocks a v s) := by
  unfold writeBlocks
  try dsimp only
  repeat' first
    | intro _
    | with_reducible first
      | assumption | apply writeFld_keeps | apply writeTmr_keeps | apply writeCov_keeps | apply writePsch_keeps
      | apply writeLcp_keeps | apply writePchn_keeps | apply writeCht_keeps | apply writeUmp_keeps | apply writeFrame_keeps
      | apply writePwr_keeps | apply writePrism_keeps | apply store_keeps | fail_if_no_progress refine Keeps.upd ?_
    | refine Keeps.ofPair (by assumption) ?_ | split

theorem busWrite_keeps (a : Nat) (w : Word) (task : Nat) (s : State) (hk : Keeps fl s₀ s) :
    Keeps fl s₀ (busWrite a w task s) := by
  unfold busWrite
  try dsimp only
  repeat' first
    | intro _
    | with_reducible first
      | assumption | apply Keeps.ite | apply writeBlocks_keeps | apply writeJobs_keeps | apply writeLinks_keeps
      | fail_if_no_progress refine Keeps.upd ?_
    | split

theorem execRegisterWrite_keeps (a : Nat) (v : Word) (t : Nat) (s : State) (hk : Keeps fl s₀ s) :
    KeepsRes fl s₀ (execRegisterWrite a v t s) := by
  unfold execRegisterWrite
  try dsimp only
  repeat' first
    | with_reducible first
      | apply KeepsRes.next | apply KeepsRes.ite
    | intro _
    | with_reducible first
      | assumption | apply Keeps.ite | apply busWrite_keeps | apply State.at_keeps | fail_if_no_progress refine Keeps.upd ?_
    | split

theorem execLoRegisterRead_keeps (a t : Nat) (s : State) (hk : Keeps fl s₀ s) :
    KeepsRes fl s₀ (execLoRegisterRead a t s) := by
  unfold execLoRegisterRead
  try dsimp only
  repeat' first
    | with_reducible first
      | apply KeepsRes.next | apply KeepsRes.ite
    | intro _
    | with_reducible first
      | assumption | apply Keeps.ite | apply busRead_keeps | apply State.at_keeps | fail_if_no_progress refine Keeps.upd ?_
    | split

end Sys2Proof.Machine
end

