-- ==== Sys2Proof/Laws/OpsXob.lean ====
section
/-!
SUPPORT. Sys2Proof/Laws/OpsXob.lean: what each operation of the cores and their instructions keeps (`Keeps` says what that is), one lemma for each
operation, so that no proof unfolds one to know that it leaves the queue, the identity or the canonical forms alone.
-/
namespace Sys2Proof.Machine
-- the small lemmas of this file one after another, each without a thread of its own
set_option Elab.async false
set_option linter.all false
variable {fl : Bool} {s₀ : State}

theorem State.setBank_keeps (s : State) (c : Nat) (b : Bank) (hk : Keeps fl s₀ s) :
    Keeps fl s₀ (State.setBank s c b) := by
  unfold State.setBank
  try dsimp only
  repeat' first
    | intro _
    | with_reducible first
      | assumption | apply Keeps.ite | apply State.setCore_keeps | fail_if_no_progress refine Keeps.upd ?_
    | split

theorem State.setPc_keeps (s : State) (c : Nat) (a : Word) (hk : Keeps fl s₀ s) :
    Keeps fl s₀ (State.setPc s c a) := by
  unfold State.setPc
  try dsimp only
  repeat' first
    | intro _
    | with_reducible first
      | assumption | apply Keeps.ite | apply State.setCore_keeps | fail_if_no_progress refine Keeps.upd ?_
    | split

theorem State.setReg_keeps (s : State) (c r : Nat) (w : Word) (hk : Keeps fl s₀ s) :
    Keeps fl s₀ (State.setReg s c r w) := by
  unfold State.setReg
  try dsimp only
  repeat' first
    | intro _
    | with_reducible first
      | assumption | apply Keeps.ite | apply State.setBank_keeps | fail_if_no_progress refine Keeps.upd ?_
    | split

theorem State.result_keeps (s : State) (c gd : Nat) (x : Alu) (hk : Keeps fl s₀ s) :
    Keeps fl s₀ (State.result s c gd x) := by
  unfold State.result
  try dsimp only
  repeat' first
    | intro _
    | with_reducible first
      | assumption | apply State.setReg_keeps | apply State.setBank_keeps | fail_if_no_progress refine Keeps.upd ?_
    | split

theorem sExcept_keeps (c : Nat) (x : Exc) (s : State) (hk : Keeps fl s₀ s) :
    Keeps fl s₀ (sExcept c x s) := by
  unfold sExcept
  try dsimp only
  repeat' first
    | intro _
    | with_reducible first
      | assumption | apply Keeps.ite | apply report_keeps | apply State.setCore_keeps | apply State.draw_keeps
      | fail_if_no_progress refine Keeps.upd ?_
    | split

theorem tExcept_keeps (c : Nat) (x : Exc) (s : State) (hk : Keeps fl s₀ s) :
    Keeps fl s₀ (tExcept c x s) := by
  unfold tExcept
  try dsimp only
  repeat' first
    | intro _
    | with_reducible first
      | assumption | apply Keeps.ite | apply breakPass_keeps | apply coreReport_keeps | apply State.setCore_keeps
      | apply State.draw_keeps | fail_if_no_progress refine Keeps.upd ?_
    | split

theorem takeExc_keeps (c : Nat) (x : Exc) (s : State) (hk : Keeps fl s₀ s) :
    Keeps fl s₀ (takeExc c x s) := by
  unfold takeExc
  try dsimp only
  repeat' first
    | intro _
    | with_reducible first
      | assumption | apply Keeps.ite | apply tExcept_keeps | apply sExcept_keeps | apply reportFull_keeps
      | fail_if_no_progress refine Keeps.upd ?_
    | refine Keeps.ofPair (by assumption) ?_ | split

theorem spend_keeps (c n : Nat) (s : State) (hk : Keeps fl s₀ s) :
    Keeps fl s₀ (spend c n s) := by
  unfold spend
  try dsimp only
  repeat' first
    | intro _
    | with_reducible first
      | assumption | apply State.setCore_keeps | apply State.draw_keeps | fail_if_no_progress refine Keeps.upd ?_
    | split

theorem retired_keeps (c : Nat) (s : State) (hk : Keeps fl s₀ s) :
    Keeps fl s₀ (retired c s) := by
  unfold retired
  try dsimp only
  repeat' first
    | intro _
    | with_reducible first
      | assumption | apply deliver_keeps | apply State.setCore_keeps | fail_if_no_progress refine Keeps.upd ?_
    | split

theorem advance_keeps (c n : Nat) (s : State) (hk : Keeps fl s₀ s) :
    Keeps fl s₀ (advance c n s) := by
  unfold advance
  try dsimp only
  repeat' first
    | intro _
    | with_reducible first
      | assumption | apply retired_keeps | apply spend_keeps | apply State.setPc_keeps | apply State.setBank_keeps
      | fail_if_no_progress refine Keeps.upd ?_
    | split

theorem branchTo_keeps (c n : Nat) (a : Word) (s : State) (hk : Keeps fl s₀ s) :
    Keeps fl s₀ (branchTo c n a s) := by
  unfold branchTo
  try dsimp only
  repeat' first
    | intro _
    | with_reducible first
      | assumption | apply Keeps.ite | apply retired_keeps | apply spend_keeps | apply State.setPc_keeps
      | apply State.setBank_keeps | apply endPass_keeps | fail_if_no_progress refine Keeps.upd ?_
    | split

theorem xob_keeps (c : Nat) (chk : State → Option Exc) (eff : State → State) (s : State) (heff : ∀ s, Keeps fl s₀ s → Keeps fl s₀
    (eff s)) (hk : Keeps fl s₀ s) :
    KeepsRes fl s₀ (xob c chk eff s) := by
  unfold xob
  try dsimp only
  repeat' first
    | with_reducible first
      | apply KeepsRes.next | apply KeepsRes.ite
    | intro _
    | with_reducible first
      | assumption | apply Keeps.ite | apply takeExc_keeps | apply State.setCore_keeps | apply heff
      | fail_if_no_progress refine Keeps.upd ?_
    | refine Keeps.ofPair (by assumption) ?_ | split

theorem dataOp_keeps (c gd n : Nat) (f : State → Alu) (s : State) (hk : Keeps fl s₀ s) :
    KeepsRes fl s₀ (dataOp c gd n f s) := by
  unfold dataOp
  try dsimp only
  repeat' first
    | with_reducible first
      | apply KeepsRes.next | apply KeepsRes.ite
    | intro _
    | with_reducible first
      | assumption | apply xob_keeps | apply advance_keeps | apply State.result_keeps
    | split

theorem binOp_keeps (op : Bin) (c gd ga gb : Nat) (s : State) (hk : Keeps fl s₀ s) :
    KeepsRes fl s₀ (binOp op c gd ga gb s) := by
  unfold binOp
  try dsimp only
  repeat' first
    | with_reducible first
      | apply KeepsRes.next | apply KeepsRes.ite
    | intro _
    | with_reducible first
      | assumption | apply dataOp_keeps
    | split

theorem immOp_keeps (op : Bin) (c gd ga : Nat) (imm : Word) (s : State) (hk : Keeps fl s₀ s) :
    KeepsRes fl s₀ (immOp op c gd ga imm s) := by
  unfold immOp
  try dsimp only
  repeat' first
    | with_reducible first
      | apply KeepsRes.next | apply KeepsRes.ite
    | intro _
    | with_reducible first
      | assumption | apply dataOp_keeps
    | split

theorem shiftOp_keeps (op : Shift) (c gd ga gb : Nat) (s : State) (hk : Keeps fl s₀ s) :
    KeepsRes fl s₀ (shiftOp op c gd ga gb s) := by
  unfold shiftOp
  try dsimp only
  repeat' first
    | with_reducible first
      | apply KeepsRes.next | apply KeepsRes.ite
    | intro _
    | with_reducible first
      | assumption | apply dataOp_keeps
    | split

theorem shiftImm_keeps (op : Shift) (c gd ga sh : Nat) (s : State) (hk : Keeps fl s₀ s) :
    KeepsRes fl s₀ (shiftImm op c gd ga sh s) := by
  unfold shiftImm
  try dsimp only
  repeat' first
    | with_reducible first
      | apply KeepsRes.next | apply KeepsRes.ite
    | intro _
    | with_reducible first
      | assumption | apply dataOp_keeps
    | split

theorem mulOp_keeps (op : Mul) (c gd ga gb : Nat) (s : State) (hk : Keeps fl s₀ s) :
    KeepsRes fl s₀ (mulOp op c gd ga gb s) := by
  unfold mulOp
  try dsimp only
  repeat' first
    | with_reducible first
      | apply KeepsRes.next | apply KeepsRes.ite
    | intro _
    | with_reducible first
      | assumption | apply dataOp_keeps
    | split

theorem divOp_keeps (op : Div) (c gd ga gb : Nat) (chk : Bool) (s : State) (hk : Keeps fl s₀ s) :
    KeepsRes fl s₀ (divOp op c gd ga gb chk s) := by
  unfold divOp
  try dsimp only
  repeat' first
    | with_reducible first
      | apply KeepsRes.next | apply KeepsRes.ite
    | intro _
    | with_reducible first
      | assumption | apply xob_keeps | apply advance_keeps | apply State.result_keeps | fail_if_no_progress refine Keeps.upd ?_
    | split

theorem fieldOp_keeps (c gd pos w1 : Nat) (f : State → Nat → Alu) (s : State) (hk : Keeps fl s₀ s) :
    KeepsRes fl s₀ (fieldOp c gd pos w1 f s) := by
  unfold fieldOp
  try dsimp only
  repeat' first
    | with_reducible first
      | apply KeepsRes.next | apply KeepsRes.ite
    | intro _
    | with_reducible first
      | assumption | apply xob_keeps | apply advance_keeps | apply State.result_keeps
    | split

theorem execAdd_keeps (core : Fin 4) (gd ga gb : Fin 32) (s : State) (hk : Keeps fl s₀ s) :
    KeepsRes fl s₀ (execAdd core gd ga gb s) := by
  unfold execAdd
  try dsimp only
  repeat' first
    | with_reducible first
      | apply KeepsRes.next | apply KeepsRes.ite
    | intro _
    | with_reducible first
      | assumption | apply binOp_keeps
    | split

theorem execSub_keeps (core : Fin 4) (gd ga gb : Fin 32) (s : State) (hk : Keeps fl s₀ s) :
    KeepsRes fl s₀ (execSub core gd ga gb s) := by
  unfold execSub
  try dsimp only
  repeat' first
    | with_reducible first
      | apply KeepsRes.next | apply KeepsRes.ite
    | intro _
    | with_reducible first
      | assumption | apply binOp_keeps
    | split

theorem execAdc_keeps (core : Fin 4) (gd ga gb : Fin 32) (s : State) (hk : Keeps fl s₀ s) :
    KeepsRes fl s₀ (execAdc core gd ga gb s) := by
  unfold execAdc
  try dsimp only
  repeat' first
    | with_reducible first
      | apply KeepsRes.next | apply KeepsRes.ite
    | intro _
    | with_reducible first
      | assumption | apply binOp_keeps
    | split

theorem execSbc_keeps (core : Fin 4) (gd ga gb : Fin 32) (s : State) (hk : Keeps fl s₀ s) :
    KeepsRes fl s₀ (execSbc core gd ga gb s) := by
  unfold execSbc
  try dsimp only
  repeat' first
    | with_reducible first
      | apply KeepsRes.next | apply KeepsRes.ite
    | intro _
    | with_reducible first
      | assumption | apply binOp_keeps
    | split

theorem execAndR_keeps (core : Fin 4) (gd ga gb : Fin 32) (s : State) (hk : Keeps fl s₀ s) :
    KeepsRes fl s₀ (execAndR core gd ga gb s) := by
  unfold execAndR
  try dsimp only
  repeat' first
    | with_reducible first
      | apply KeepsRes.next | apply KeepsRes.ite
    | intro _
    | with_reducible first
      | assumption | apply binOp_keeps
    | split

theorem execOrR_keeps (core : Fin 4) (gd ga gb : Fin 32) (s : State) (hk : Keeps fl s₀ s) :
    KeepsRes fl s₀ (execOrR core gd ga gb s) := by
  unfold execOrR
  try dsimp only
  repeat' first
    | with_reducible first
      | apply KeepsRes.next | apply KeepsRes.ite
    | intro _
    | with_reducible first
      | assumption | apply binOp_keeps
    | split

theorem execXorR_keeps (core : Fin 4) (gd ga gb : Fin 32) (s : State) (hk : Keeps fl s₀ s) :
    KeepsRes fl s₀ (execXorR core gd ga gb s) := by
  unfold execXorR
  try dsimp only
  repeat' first
    | with_reducible first
      | apply KeepsRes.next | apply KeepsRes.ite
    | intro _
    | with_reducible first
      | assumption | apply binOp_keeps
    | split

theorem execAndn_keeps (core : Fin 4) (gd ga gb : Fin 32) (s : State) (hk : Keeps fl s₀ s) :
    KeepsRes fl s₀ (execAndn core gd ga gb s) := by
  unfold execAndn
  try dsimp only
  repeat' first
    | with_reducible first
      | apply KeepsRes.next | apply KeepsRes.ite
    | intro _
    | with_reducible first
      | assumption | apply binOp_keeps
    | split

theorem execOrn_keeps (core : Fin 4) (gd ga gb : Fin 32) (s : State) (hk : Keeps fl s₀ s) :
    KeepsRes fl s₀ (execOrn core gd ga gb s) := by
  unfold execOrn
  try dsimp only
  repeat' first
    | with_reducible first
      | apply KeepsRes.next | apply KeepsRes.ite
    | intro _
    | with_reducible first
      | assumption | apply binOp_keeps
    | split

theorem execXnor_keeps (core : Fin 4) (gd ga gb : Fin 32) (s : State) (hk : Keeps fl s₀ s) :
    KeepsRes fl s₀ (execXnor core gd ga gb s) := by
  unfold execXnor
  try dsimp only
  repeat' first
    | with_reducible first
      | apply KeepsRes.next | apply KeepsRes.ite
    | intro _
    | with_reducible first
      | assumption | apply binOp_keeps
    | split

theorem execCmp_keeps (core : Fin 4) (ga gb : Fin 32) (s : State) (hk : Keeps fl s₀ s) :
    KeepsRes fl s₀ (execCmp core ga gb s) := by
  unfold execCmp
  try dsimp only
  repeat' first
    | with_reducible first
      | apply KeepsRes.next | apply KeepsRes.ite
    | intro _
    | with_reducible first
      | assumption | apply binOp_keeps
    | split

theorem execTst_keeps (core : Fin 4) (ga gb : Fin 32) (s : State) (hk : Keeps fl s₀ s) :
    KeepsRes fl s₀ (execTst core ga gb s) := by
  unfold execTst
  try dsimp only
  repeat' first
    | with_reducible first
      | apply KeepsRes.next | apply KeepsRes.ite
    | intro _
    | with_reducible first
      | assumption | apply binOp_keeps
    | split

theorem execLsl_keeps (core : Fin 4) (gd ga gb : Fin 32) (s : State) (hk : Keeps fl s₀ s) :
    KeepsRes fl s₀ (execLsl core gd ga gb s) := by
  unfold execLsl
  try dsimp only
  repeat' first
    | with_reducible first
      | apply KeepsRes.next | apply KeepsRes.ite
    | intro _
    | with_reducible first
      | assumption | apply shiftOp_keeps
    | split

theorem execLsr_keeps (core : Fin 4) (gd ga gb : Fin 32) (s : State) (hk : Keeps fl s₀ s) :
    KeepsRes fl s₀ (execLsr core gd ga gb s) := by
  unfold execLsr
  try dsimp only
  repeat' first
    | with_reducible first
      | apply KeepsRes.next | apply KeepsRes.ite
    | intro _
    | with_reducible first
      | assumption | apply shiftOp_keeps
    | split

theorem execAsr_keeps (core : Fin 4) (gd ga gb : Fin 32) (s : State) (hk : Keeps fl s₀ s) :
    KeepsRes fl s₀ (execAsr core gd ga gb s) := by
  unfold execAsr
  try dsimp only
  repeat' first
    | with_reducible first
      | apply KeepsRes.next | apply KeepsRes.ite
    | intro _
    | with_reducible first
      | assumption | apply shiftOp_keeps
    | split

theorem execRor_keeps (core : Fin 4) (gd ga gb : Fin 32) (s : State) (hk : Keeps fl s₀ s) :
    KeepsRes fl s₀ (execRor core gd ga gb s) := by
  unfold execRor
  try dsimp only
  repeat' first
    | with_reducible first
      | apply KeepsRes.next | apply KeepsRes.ite
    | intro _
    | with_reducible first
      | assumption | apply shiftOp_keeps
    | split

theorem execLsli_keeps (core : Fin 4) (gd ga : Fin 32) (sh : Fin 32) (s : State) (hk : Keeps fl s₀ s) :
    KeepsRes fl s₀ (execLsli core gd ga sh s) := by
  unfold execLsli
  try dsimp only
  repeat' first
    | with_reducible first
      | apply KeepsRes.next | apply KeepsRes.ite
    | intro _
    | with_reducible first
      | assumption | apply shiftImm_keeps
    | split

theorem execLsri_keeps (core : Fin 4) (gd ga : Fin 32) (sh : Fin 32) (s : State) (hk : Keeps fl s₀ s) :
    KeepsRes fl s₀ (execLsri core gd ga sh s) := by
  unfold execLsri
  try dsimp only
  repeat' first
    | with_reducible first
      | apply KeepsRes.next | apply KeepsRes.ite
    | intro _
    | with_reducible first
      | assumption | apply shiftImm_keeps
    | split

theorem execAsri_keeps (core : Fin 4) (gd ga : Fin 32) (sh : Fin 32) (s : State) (hk : Keeps fl s₀ s) :
    KeepsRes fl s₀ (execAsri core gd ga sh s) := by
  unfold execAsri
  try dsimp only
  repeat' first
    | with_reducible first
      | apply KeepsRes.next | apply KeepsRes.ite
    | intro _
    | with_reducible first
      | assumption | apply shiftImm_keeps
    | split

theorem execRori_keeps (core : Fin 4) (gd ga : Fin 32) (sh : Fin 32) (s : State) (hk : Keeps fl s₀ s) :
    KeepsRes fl s₀ (execRori core gd ga sh s) := by
  unfold execRori
  try dsimp only
  repeat' first
    | with_reducible first
      | apply KeepsRes.next | apply KeepsRes.ite
    | intro _
    | with_reducible first
      | assumption | apply shiftImm_keeps
    | split

theorem execMul_keeps (core : Fin 4) (gd ga gb : Fin 32) (s : State) (hk : Keeps fl s₀ s) :
    KeepsRes fl s₀ (execMul core gd ga gb s) := by
  unfold execMul
  try dsimp only
  repeat' first
    | with_reducible first
      | apply KeepsRes.next | apply KeepsRes.ite
    | intro _
    | with_reducible first
      | assumption | apply mulOp_keeps
    | split

theorem execMulhs_keeps (core : Fin 4) (gd ga gb : Fin 32) (s : State) (hk : Keeps fl s₀ s) :
    KeepsRes fl s₀ (execMulhs core gd ga gb s) := by
  unfold execMulhs
  try dsimp only
  repeat' first
    | with_reducible first
      | apply KeepsRes.next | apply KeepsRes.ite
    | intro _
    | with_reducible first
      | assumption | apply mulOp_keeps
    | split

theorem execMulhu_keeps (core : Fin 4) (gd ga gb : Fin 32) (s : State) (hk : Keeps fl s₀ s) :
    KeepsRes fl s₀ (execMulhu core gd ga gb s) := by
  unfold execMulhu
  try dsimp only
  repeat' first
    | with_reducible first
      | apply KeepsRes.next | apply KeepsRes.ite
    | intro _
    | with_reducible first
      | assumption | apply mulOp_keeps
    | split

theorem execDivs_keeps (core : Fin 4) (gd ga gb : Fin 32) (chk : Bool) (s : State) (hk : Keeps fl s₀ s) :
    KeepsRes fl s₀ (execDivs core gd ga gb chk s) := by
  unfold execDivs
  try dsimp only
  repeat' first
    | with_reducible first
      | apply KeepsRes.next | apply KeepsRes.ite
    | intro _
    | with_reducible first
      | assumption | apply divOp_keeps
    | split

theorem execDivu_keeps (core : Fin 4) (gd ga gb : Fin 32) (chk : Bool) (s : State) (hk : Keeps fl s₀ s) :
    KeepsRes fl s₀ (execDivu core gd ga gb chk s) := by
  unfold execDivu
  try dsimp only
  repeat' first
    | with_reducible first
      | apply KeepsRes.next | apply KeepsRes.ite
    | intro _
    | with_reducible first
      | assumption | apply divOp_keeps
    | split

theorem execRems_keeps (core : Fin 4) (gd ga gb : Fin 32) (chk : Bool) (s : State) (hk : Keeps fl s₀ s) :
    KeepsRes fl s₀ (execRems core gd ga gb chk s) := by
  unfold execRems
  try dsimp only
  repeat' first
    | with_reducible first
      | apply KeepsRes.next | apply KeepsRes.ite
    | intro _
    | with_reducible first
      | assumption | apply divOp_keeps
    | split

theorem execRemu_keeps (core : Fin 4) (gd ga gb : Fin 32) (chk : Bool) (s : State) (hk : Keeps fl s₀ s) :
    KeepsRes fl s₀ (execRemu core gd ga gb chk s) := by
  unfold execRemu
  try dsimp only
  repeat' first
    | with_reducible first
      | apply KeepsRes.next | apply KeepsRes.ite
    | intro _
    | with_reducible first
      | assumption | apply divOp_keeps
    | split

theorem execAddi_keeps (core : Fin 4) (gd ga : Fin 32) (imm : BitVec 16) (s : State) (hk : Keeps fl s₀ s) :
    KeepsRes fl s₀ (execAddi core gd ga imm s) := by
  unfold execAddi
  try dsimp only
  repeat' first
    | with_reducible first
      | apply KeepsRes.next | apply KeepsRes.ite
    | intro _
    | with_reducible first
      | assumption | apply immOp_keeps
    | split

theorem execXori_keeps (core : Fin 4) (gd ga : Fin 32) (imm : BitVec 16) (s : State) (hk : Keeps fl s₀ s) :
    KeepsRes fl s₀ (execXori core gd ga imm s) := by
  unfold execXori
  try dsimp only
  repeat' first
    | with_reducible first
      | apply KeepsRes.next | apply KeepsRes.ite
    | intro _
    | with_reducible first
      | assumption | apply immOp_keeps
    | split

theorem execAndi_keeps (core : Fin 4) (gd ga : Fin 32) (imm : BitVec 16) (s : State) (hk : Keeps fl s₀ s) :
    KeepsRes fl s₀ (execAndi core gd ga imm s) := by
  unfold execAndi
  try dsimp only
  repeat' first
    | with_reducible first
      | apply KeepsRes.next | apply KeepsRes.ite
    | intro _
    | with_reducible first
      | assumption | apply immOp_keeps
    | split

theorem execOri_keeps (core : Fin 4) (gd ga : Fin 32) (imm : BitVec 16) (s : State) (hk : Keeps fl s₀ s) :
    KeepsRes fl s₀ (execOri core gd ga imm s) := by
  unfold execOri
  try dsimp only
  repeat' first
    | with_reducible first
      | apply KeepsRes.next | apply KeepsRes.ite
    | intro _
    | with_reducible first
      | assumption | apply immOp_keeps
    | split

theorem execCmpi_keeps (core : Fin 4) (ga : Fin 32) (imm : BitVec 16) (s : State) (hk : Keeps fl s₀ s) :
    KeepsRes fl s₀ (execCmpi core ga imm s) := by
  unfold execCmpi
  try dsimp only
  repeat' first
    | with_reducible first
      | apply KeepsRes.next | apply KeepsRes.ite
    | intro _
    | with_reducible first
      | assumption | apply immOp_keeps
    | split

theorem execTsti_keeps (core : Fin 4) (ga : Fin 32) (imm : BitVec 16) (s : State) (hk : Keeps fl s₀ s) :
    KeepsRes fl s₀ (execTsti core ga imm s) := by
  unfold execTsti
  try dsimp only
  repeat' first
    | with_reducible first
      | apply KeepsRes.next | apply KeepsRes.ite
    | intro _
    | with_reducible first
      | assumption | apply immOp_keeps
    | split

theorem execMovhi_keeps (core : Fin 4) (gd : Fin 32) (imm : BitVec 16) (s : State) (hk : Keeps fl s₀ s) :
    KeepsRes fl s₀ (execMovhi core gd imm s) := by
  unfold execMovhi
  try dsimp only
  repeat' first
    | with_reducible first
      | apply KeepsRes.next | apply KeepsRes.ite
    | intro _
    | with_reducible first
      | assumption | apply dataOp_keeps
    | split

theorem execClz_keeps (core : Fin 4) (gd ga : Fin 32) (s : State) (hk : Keeps fl s₀ s) :
    KeepsRes fl s₀ (execClz core gd ga s) := by
  unfold execClz
  try dsimp only
  repeat' first
    | with_reducible first
      | apply KeepsRes.next | apply KeepsRes.ite
    | intro _
    | with_reducible first
      | assumption | apply dataOp_keeps
    | split

theorem execBfx_keeps (core : Fin 4) (gd ga : Fin 32) (pos : Fin 32) (w1 : Fin 32) (s : State) (hk : Keeps fl s₀ s) :
    KeepsRes fl s₀ (execBfx core gd ga pos w1 s) := by
  unfold execBfx
  try dsimp only
  repeat' first
    | with_reducible first
      | apply KeepsRes.next | apply KeepsRes.ite
    | intro _
    | with_reducible first
      | assumption | apply fieldOp_keeps
    | split

theorem execBfxs_keeps (core : Fin 4) (gd ga : Fin 32) (pos : Fin 32) (w1 : Fin 32) (s : State) (hk : Keeps fl s₀ s) :
    KeepsRes fl s₀ (execBfxs core gd ga pos w1 s) := by
  unfold execBfxs
  try dsimp only
  repeat' first
    | with_reducible first
      | apply KeepsRes.next | apply KeepsRes.ite
    | intro _
    | with_reducible first
      | assumption | apply fieldOp_keeps
    | split

theorem execBfi_keeps (core : Fin 4) (gd ga : Fin 32) (pos : Fin 32) (w1 : Fin 32) (s : State) (hk : Keeps fl s₀ s) :
    KeepsRes fl s₀ (execBfi core gd ga pos w1 s) := by
  unfold execBfi
  try dsimp only
  repeat' first
    | with_reducible first
      | apply KeepsRes.next | apply KeepsRes.ite
    | intro _
    | with_reducible first
      | assumption | apply fieldOp_keeps
    | split

theorem execPerm_keeps (core : Fin 4) (gd ga : Fin 32) (sl : BitVec 16) (s : State) (hk : Keeps fl s₀ s) :
    KeepsRes fl s₀ (execPerm core gd ga sl s) := by
  unfold execPerm
  try dsimp only
  repeat' first
    | with_reducible first
      | apply KeepsRes.next | apply KeepsRes.ite
    | intro _
    | with_reducible first
      | assumption | apply xob_keeps | apply advance_keeps | apply State.result_keeps
    | split

theorem execSel_keeps (core : Fin 4) (gd ga gb : Fin 32) (cond : Fin 16) (s : State) (hk : Keeps fl s₀ s) :
    KeepsRes fl s₀ (execSel core gd ga gb cond s) := by
  unfold execSel
  try dsimp only
  repeat' first
    | with_reducible first
      | apply KeepsRes.next | apply KeepsRes.ite
    | intro _
    | with_reducible first
      | assumption | apply Keeps.ite | apply xob_keeps | apply advance_keeps | apply State.setReg_keeps
    | split

theorem State.load_keeps (s : State) (c : Nat) (a : Word) (size : Nat) (sgn : Bool) (hk : Keeps fl s₀ s) :
    Keeps fl s₀ (State.load s c a size sgn).2 := by
  unfold State.load
  try dsimp only
  repeat' first
    | intro _
    | with_reducible first
      | assumption | apply Keeps.ite | apply busRead_keeps | fail_if_no_progress refine Keeps.upd ?_
    | split | refine Keeps.ofPair (by assumption) ?_ | split

theorem loadOp_keeps (c gd ga : Nat) (imm : BitVec 16) (size : Nat) (sgn : Bool) (s : State) (hk : Keeps fl s₀ s) :
    KeepsRes fl s₀ (loadOp c gd ga imm size sgn s) := by
  unfold loadOp
  try dsimp only
  repeat' first
    | with_reducible first
      | apply KeepsRes.next | apply KeepsRes.ite
    | intro _
    | with_reducible first
      | assumption | apply State.load_keeps | apply xob_keeps | apply advance_keeps | apply State.setReg_keeps
      | fail_if_no_progress refine Keeps.upd ?_
    | split

theorem signStore_keeps (i : Nat) (m : Bool) (a size : Nat) (w : Word) (s : State) (hk : Keeps fl s₀ s) :
    Keeps fl s₀ (signStore i m a size w s) := by
  unfold signStore
  try dsimp only
  repeat' first
    | intro _
    | with_reducible first
      | assumption | apply Keeps.ite | apply State.setRun_keeps | fail_if_no_progress refine Keeps.upd ?_
    | split

theorem State.storeRaw_keeps (s : State) (key size : Nat) (w : Word) (hk : Keeps fl s₀ s) :
    Keeps fl s₀ (State.storeRaw s key size w) := by
  unfold State.storeRaw
  try dsimp only
  repeat' first
    | intro _
    | with_reducible first
      | assumption | apply State.setBytes_keeps
    | split

theorem captureStore_keeps (i : Nat) (m : Bool) (a : Nat) (w : Word) (s : State) (hk : Keeps fl s₀ s) :
    Keeps fl s₀ (captureStore i m a w s) := by
  unfold captureStore
  try dsimp only
  repeat' first
    | intro _
    | with_reducible first
      | assumption | apply Keeps.ite | apply State.setRun_keeps | fail_if_no_progress refine Keeps.upd ?_
    | split

theorem passStore_keeps (c : Nat) (p : Pass) (a : Nat) (size : Nat) (w : Word) (s : State) (hk : Keeps fl s₀ s) :
    Keeps fl s₀ (passStore c p a size w s) := by
  unfold passStore
  try dsimp only
  repeat' first
    | intro _
    | with_reducible first
      | assumption | apply Keeps.ite | apply captureStore_keeps | apply State.storeRaw_keeps | apply signStore_keeps
      | apply advance_keeps | apply breakPass_keeps | fail_if_no_progress refine Keeps.upd ?_
    | refine Keeps.ofPair (by assumption) ?_ | split

theorem storeWord_keeps (c : Nat) (a : Word) (size : Nat) (w : Word) (s : State) (hk : Keeps fl s₀ s) :
    Keeps fl s₀ (storeWord c a size w s) := by
  unfold storeWord
  try dsimp only
  repeat' first
    | intro _
    | with_reducible first
      | assumption | apply passStore_keeps | apply State.storeRaw_keeps | apply advance_keeps | apply busWrite_keeps
      | fail_if_no_progress refine Keeps.upd ?_
    | refine Keeps.ofPair (by assumption) ?_ | split

theorem storeOp_keeps (c gd ga : Nat) (imm : BitVec 16) (size : Nat) (s : State) (hk : Keeps fl s₀ s) :
    KeepsRes fl s₀ (storeOp c gd ga imm size s) := by
  unfold storeOp
  try dsimp only
  repeat' first
    | with_reducible first
      | apply KeepsRes.next | apply KeepsRes.ite
    | intro _
    | with_reducible first
      | assumption | apply storeWord_keeps | apply xob_keeps
    | split

theorem agreePrim_keeps (c gd i : Nat) (a : Word) (s : State) (hk : Keeps fl s₀ s) :
    Keeps fl s₀ (agreePrim c gd i a s) := by
  unfold agreePrim
  try dsimp only
  repeat' first
    | intro _
    | with_reducible first
      | assumption | apply advance_keeps | apply State.setReg_keeps | apply busRead_keeps | apply State.setRun_keeps
      | fail_if_no_progress refine Keeps.upd ?_
    | refine Keeps.ofPair (by assumption) ?_ | split

theorem agreeMirr_keeps (c gd i : Nat) (a : Word) (s : State) (hk : Keeps fl s₀ s) :
    Keeps fl s₀ (agreeMirr c gd i a s) := by
  unfold agreeMirr
  try dsimp only
  repeat' first
    | intro _
    | with_reducible first
      | assumption | apply advance_keeps | apply State.setReg_keeps | apply State.setRun_keeps | apply State.draw_keeps
      | fail_if_no_progress refine Keeps.upd ?_
    | refine Keeps.ofPair (by assumption) ?_ | split

theorem agreeOp_keeps (c gd ga : Nat) (imm : BitVec 16) (s : State) (hk : Keeps fl s₀ s) :
    KeepsRes fl s₀ (agreeOp c gd ga imm s) := by
  unfold agreeOp
  try dsimp only
  repeat' first
    | with_reducible first
      | apply KeepsRes.next | apply KeepsRes.ite
    | intro _
    | with_reducible first
      | assumption | apply Keeps.ite | apply agreeMirr_keeps | apply agreePrim_keeps | apply loadOp_keeps | apply xob_keeps
      | fail_if_no_progress refine Keeps.upd ?_
    | refine Keeps.ofPair (by assumption) ?_ | split

theorem execLw_keeps (core : Fin 4) (gd ga : Fin 32) (imm : BitVec 16) (s : State) (hk : Keeps fl s₀ s) :
    KeepsRes fl s₀ (execLw core gd ga imm s) := by
  unfold execLw
  try dsimp only
  repeat' first
    | with_reducible first
      | apply KeepsRes.next | apply KeepsRes.ite
    | intro _
    | with_reducible first
      | assumption | apply loadOp_keeps
    | split

theorem execLh_keeps (core : Fin 4) (gd ga : Fin 32) (imm : BitVec 16) (s : State) (hk : Keeps fl s₀ s) :
    KeepsRes fl s₀ (execLh core gd ga imm s) := by
  unfold execLh
  try dsimp only
  repeat' first
    | with_reducible first
      | apply KeepsRes.next | apply KeepsRes.ite
    | intro _
    | with_reducible first
      | assumption | apply loadOp_keeps
    | split

theorem execLhu_keeps (core : Fin 4) (gd ga : Fin 32) (imm : BitVec 16) (s : State) (hk : Keeps fl s₀ s) :
    KeepsRes fl s₀ (execLhu core gd ga imm s) := by
  unfold execLhu
  try dsimp only
  repeat' first
    | with_reducible first
      | apply KeepsRes.next | apply KeepsRes.ite
    | intro _
    | with_reducible first
      | assumption | apply loadOp_keeps
    | split

theorem execLb_keeps (core : Fin 4) (gd ga : Fin 32) (imm : BitVec 16) (s : State) (hk : Keeps fl s₀ s) :
    KeepsRes fl s₀ (execLb core gd ga imm s) := by
  unfold execLb
  try dsimp only
  repeat' first
    | with_reducible first
      | apply KeepsRes.next | apply KeepsRes.ite
    | intro _
    | with_reducible first
      | assumption | apply loadOp_keeps
    | split

theorem execLbu_keeps (core : Fin 4) (gd ga : Fin 32) (imm : BitVec 16) (s : State) (hk : Keeps fl s₀ s) :
    KeepsRes fl s₀ (execLbu core gd ga imm s) := by
  unfold execLbu
  try dsimp only
  repeat' first
    | with_reducible first
      | apply KeepsRes.next | apply KeepsRes.ite
    | intro _
    | with_reducible first
      | assumption | apply loadOp_keeps
    | split

theorem execSw_keeps (core : Fin 4) (gd ga : Fin 32) (imm : BitVec 16) (s : State) (hk : Keeps fl s₀ s) :
    KeepsRes fl s₀ (execSw core gd ga imm s) := by
  unfold execSw
  try dsimp only
  repeat' first
    | with_reducible first
      | apply KeepsRes.next | apply KeepsRes.ite
    | intro _
    | with_reducible first
      | assumption | apply storeOp_keeps
    | split

theorem execSh_keeps (core : Fin 4) (gd ga : Fin 32) (imm : BitVec 16) (s : State) (hk : Keeps fl s₀ s) :
    KeepsRes fl s₀ (execSh core gd ga imm s) := by
  unfold execSh
  try dsimp only
  repeat' first
    | with_reducible first
      | apply KeepsRes.next | apply KeepsRes.ite
    | intro _
    | with_reducible first
      | assumption | apply storeOp_keeps
    | split

theorem execSb_keeps (core : Fin 4) (gd ga : Fin 32) (imm : BitVec 16) (s : State) (hk : Keeps fl s₀ s) :
    KeepsRes fl s₀ (execSb core gd ga imm s) := by
  unfold execSb
  try dsimp only
  repeat' first
    | with_reducible first
      | apply KeepsRes.next | apply KeepsRes.ite
    | intro _
    | with_reducible first
      | assumption | apply storeOp_keeps
    | split

theorem execAgree_keeps (core : Fin 4) (gd ga : Fin 32) (imm : BitVec 16) (s : State) (hk : Keeps fl s₀ s) :
    KeepsRes fl s₀ (execAgree core gd ga imm s) := by
  unfold execAgree
  try dsimp only
  repeat' first
    | with_reducible first
      | apply KeepsRes.next | apply KeepsRes.ite
    | intro _
    | with_reducible first
      | assumption | apply agreeOp_keeps
    | split

theorem execBr_keeps (core : Fin 4) (cond : Fin 16) (disp : BitVec 22) (s : State) (hk : Keeps fl s₀ s) :
    KeepsRes fl s₀ (execBr core cond disp s) := by
  unfold execBr
  try dsimp only
  repeat' first
    | with_reducible first
      | apply KeepsRes.next | apply KeepsRes.ite
    | intro _
    | with_reducible first
      | assumption | apply Keeps.ite | apply xob_keeps | apply branchTo_keeps | apply advance_keeps
    | split

theorem execBl_keeps (core : Fin 4) (disp : BitVec 26) (s : State) (hk : Keeps fl s₀ s) :
    KeepsRes fl s₀ (execBl core disp s) := by
  unfold execBl
  try dsimp only
  repeat' first
    | with_reducible first
      | apply KeepsRes.next | apply KeepsRes.ite
    | intro _
    | with_reducible first
      | assumption | apply xob_keeps | apply branchTo_keeps | apply State.setReg_keeps | fail_if_no_progress refine Keeps.upd ?_
    | split

theorem execJr_keeps (core : Fin 4) (ga : Fin 32) (s : State) (hk : Keeps fl s₀ s) :
    KeepsRes fl s₀ (execJr core ga s) := by
  unfold execJr
  try dsimp only
  repeat' first
    | with_reducible first
      | apply KeepsRes.next | apply KeepsRes.ite
    | intro _
    | with_reducible first
      | assumption | apply xob_keeps | apply branchTo_keeps
    | split

theorem execJalr_keeps (core : Fin 4) (gd ga : Fin 32) (s : State) (hk : Keeps fl s₀ s) :
    KeepsRes fl s₀ (execJalr core gd ga s) := by
  unfold execJalr
  try dsimp only
  repeat' first
    | with_reducible first
      | apply KeepsRes.next | apply KeepsRes.ite
    | intro _
    | with_reducible first
      | assumption | apply xob_keeps | apply branchTo_keeps | apply State.setReg_keeps
    | split

theorem loopStart_keeps (c lvl : Nat) (cnt ofs : Word) (s : State) (hk : Keeps fl s₀ s) :
    Keeps fl s₀ (loopStart c lvl cnt ofs s) := by
  unfold loopStart
  try dsimp only
  repeat' first
    | intro _
    | with_reducible first
      | assumption | apply Keeps.ite | apply advance_keeps | apply retired_keeps | apply spend_keeps | apply State.setPc_keeps
      | apply State.setBank_keeps | fail_if_no_progress refine Keeps.upd ?_
    | split

theorem execLoopR_keeps (core : Fin 4) (lvl : Fin 4) (ga : Fin 32) (off : BitVec 19) (s : State) (hk : Keeps fl s₀ s) :
    KeepsRes fl s₀ (execLoopR core lvl ga off s) := by
  unfold execLoopR
  try dsimp only
  repeat' first
    | with_reducible first
      | apply KeepsRes.next | apply KeepsRes.ite
    | intro _
    | with_reducible first
      | assumption | apply loopStart_keeps | apply xob_keeps
    | split

theorem execLoopi_keeps (core : Fin 4) (lvl : Fin 4) (cnt off : BitVec 12) (s : State) (hk : Keeps fl s₀ s) :
    KeepsRes fl s₀ (execLoopi core lvl cnt off s) := by
  unfold execLoopi
  try dsimp only
  repeat' first
    | with_reducible first
      | apply KeepsRes.next | apply KeepsRes.ite
    | intro _
    | with_reducible first
      | assumption | apply loopStart_keeps | apply xob_keeps
    | split

theorem ctrlRead_keeps (c n : Nat) (s : State) (hk : Keeps fl s₀ s) :
    Keeps fl s₀ (ctrlRead c n s) := by
  unfold ctrlRead
  try dsimp only
  repeat' first
    | intro _
    | with_reducible first
      | assumption | apply Keeps.ite | apply State.setCore_keeps | fail_if_no_progress refine Keeps.upd ?_
    | split

theorem State.setCtrl_keeps (s : State) (c n : Nat) (w : Word) (hk : Keeps fl s₀ s) :
    Keeps fl s₀ (State.setCtrl s c n w) := by
  unfold State.setCtrl
  try dsimp only
  repeat' first
    | intro _
    | with_reducible first
      | assumption | apply Keeps.ite | apply State.setBank_keeps | apply State.setCore_keeps
      | fail_if_no_progress refine Keeps.upd ?_
    | split

theorem execMfc_keeps (core : Fin 4) (gd : Fin 32) (cr : Fin 1024) (s : State) (hk : Keeps fl s₀ s) :
    KeepsRes fl s₀ (execMfc core gd cr s) := by
  unfold execMfc
  try dsimp only
  repeat' first
    | with_reducible first
      | apply KeepsRes.next | apply KeepsRes.ite
    | intro _
    | with_reducible first
      | assumption | apply ctrlRead_keeps | apply xob_keeps | apply advance_keeps | apply State.setReg_keeps
    | split

theorem execMtc_keeps (core : Fin 4) (cr : Fin 1024) (ga : Fin 32) (s : State) (hk : Keeps fl s₀ s) :
    KeepsRes fl s₀ (execMtc core cr ga s) := by
  unfold execMtc
  try dsimp only
  repeat' first
    | with_reducible first
      | apply KeepsRes.next | apply KeepsRes.ite
    | intro _
    | with_reducible first
      | assumption | apply State.setCtrl_keeps | apply xob_keeps | apply advance_keeps
    | split

theorem execNop_keeps (core : Fin 4) (s : State) (hk : Keeps fl s₀ s) :
    KeepsRes fl s₀ (execNop core s) := by
  unfold execNop
  try dsimp only
  repeat' first
    | with_reducible first
      | apply KeepsRes.next | apply KeepsRes.ite
    | intro _
    | with_reducible first
      | assumption | apply xob_keeps | apply advance_keeps
    | split

theorem execSync_keeps (core : Fin 4) (s : State) (hk : Keeps fl s₀ s) :
    KeepsRes fl s₀ (execSync core s) := by
  unfold execSync
  try dsimp only
  repeat' first
    | with_reducible first
      | apply KeepsRes.next | apply KeepsRes.ite
    | intro _
    | with_reducible first
      | assumption | apply xob_keeps | apply advance_keeps
    | split

theorem execTrap_keeps (core : Fin 4) (num : BitVec 10) (s : State) (hk : Keeps fl s₀ s) :
    KeepsRes fl s₀ (execTrap core num s) := by
  unfold execTrap
  try dsimp only
  repeat' first
    | with_reducible first
      | apply KeepsRes.next | apply KeepsRes.ite
    | intro _
    | with_reducible first
      | assumption | apply xob_keeps | fail_if_no_progress refine Keeps.upd ?_ | apply Keeps.same
    | split

theorem execEret_keeps (core : Fin 4) (s : State) (hk : Keeps fl s₀ s) :
    KeepsRes fl s₀ (execEret core s) := by
  unfold execEret
  try dsimp only
  repeat' first
    | with_reducible first
      | apply KeepsRes.next | apply KeepsRes.ite
    | intro _
    | with_reducible first
      | assumption | apply xob_keeps | apply retired_keeps | apply spend_keeps | apply State.setCore_keeps
      | fail_if_no_progress refine Keeps.upd ?_
    | split

theorem execWfi_keeps (core : Fin 4) (s : State) (hk : Keeps fl s₀ s) :
    KeepsRes fl s₀ (execWfi core s) := by
  unfold execWfi
  try dsimp only
  repeat' first
    | with_reducible first
      | apply KeepsRes.next | apply KeepsRes.ite
    | intro _
    | with_reducible first
      | assumption | apply xob_keeps | apply advance_keeps | apply State.setCore_keeps | fail_if_no_progress refine Keeps.upd ?_
    | split

theorem interruptEntry_keeps (c : Nat) (s : State) (hk : Keeps fl s₀ s) :
    Keeps fl s₀ (interruptEntry c s) := by
  unfold interruptEntry
  try dsimp only
  repeat' first
    | intro _
    | with_reducible first
      | assumption | apply State.setCore_keeps | fail_if_no_progress refine Keeps.upd ?_
    | split

theorem execInterrupt_keeps (core : Fin 4) (s : State) (hk : Keeps fl s₀ s) :
    KeepsRes fl s₀ (execInterrupt core s) := by
  unfold execInterrupt
  try dsimp only
  repeat' first
    | with_reducible first
      | apply KeepsRes.next | apply KeepsRes.ite
    | intro _
    | with_reducible first
      | assumption | apply Keeps.ite | apply interruptEntry_keeps | fail_if_no_progress refine Keeps.upd ?_
    | split

theorem execUndef_keeps (core : Fin 4) (w : Word) (s : State) (hk : Keeps fl s₀ s) :
    KeepsRes fl s₀ (execUndef core w s) := by
  unfold execUndef
  try dsimp only
  repeat' first
    | with_reducible first
      | apply KeepsRes.next | apply KeepsRes.ite
    | intro _
    | with_reducible first
      | assumption | apply Keeps.ite | apply xob_keeps | apply Keeps.same
    | split

theorem debugPut_keeps (c : Nat) (tgt : DbgTarget) (v : Word) (key : Nat → Nat) (s : State) (hk : Keeps fl s₀ s) :
    Keeps fl s₀ (debugPut c tgt v key s) := by
  unfold debugPut
  try dsimp only
  repeat' first
    | intro _
    | with_reducible first
      | assumption | apply putReplay_keeps | fail_if_no_progress refine Keeps.upd ?_
    | refine Keeps.ofPair (by assumption) ?_ | split

theorem replayWrite_keeps (c : Nat) (p : Pass) (tgt : DbgTarget) (v : Word) (s : State) (hk : Keeps fl s₀ s) :
    Keeps fl s₀ (replayWrite c p tgt v s) := by
  unfold replayWrite
  try dsimp only
  repeat' first
    | intro _
    | with_reducible first
      | assumption | apply Keeps.ite | apply debugPut_keeps | apply frameReport_keeps | apply State.flag_keeps
      | apply State.put_keeps | fail_if_no_progress refine Keeps.upd ?_
    | refine Keeps.ofPair (by assumption) ?_ | split

theorem execDebuggerWrite_keeps (core : Fin 4) (target : DbgTarget) (v : Word) (t : Nat) (s : State) (hk : Keeps fl s₀ s) :
    KeepsRes fl s₀ (execDebuggerWrite core target v t s) := by
  unfold execDebuggerWrite
  try dsimp only
  repeat' first
    | with_reducible first
      | apply KeepsRes.next | apply KeepsRes.ite
    | intro _
    | with_reducible first
      | assumption | apply Keeps.ite | apply replayWrite_keeps | apply debugPut_keeps | apply State.at_keeps
      | fail_if_no_progress refine Keeps.upd ?_
    | refine Keeps.ofPair (by assumption) ?_ | split

end Sys2Proof.Machine
end

