-- ==== Sys2Proof/Laws/OpsFrame.lean ====
section
/-!
SUPPORT. Sys2Proof/Laws/OpsFrame.lean: what each operation of the frame and the start of the device keeps (`Keeps` says what that is), one lemma for each
operation, so that no proof unfolds one to know that it leaves the queue, the identity or the canonical forms alone.
-/
namespace Sys2Proof.Machine
-- the small lemmas of this file one after another, each without a thread of its own
set_option Elab.async false
set_option linter.all false
variable {fl : Bool} {s₀ : State}

theorem snapPut_keeps (o : Nat) (w v : Word) (s : State) (hk : Keeps fl s₀ s) :
    Keeps fl s₀ (snapPut o w v s) := by
  unfold snapPut
  try dsimp only
  repeat' first
    | intro _
    | with_reducible first
      | assumption | apply Keeps.ite | apply State.setWord_keeps | fail_if_no_progress refine Keeps.upd ?_
    | split

theorem snapPuts_keeps (o : Nat) (nn : List Word) (s : State) (hk : Keeps fl s₀ s) :
    Keeps fl s₀ (snapPuts o nn s) := by
  induction nn generalizing o s with
  | nil => exact hk
  | cons x l ih =>
    unfold snapPuts
    try dsimp only
    repeat' first
      | with_reducible first
        | assumption | apply snapPut_keeps
      | split
      | with_reducible first
        | apply ih

theorem snapSkip_keeps (d : Desc) (s : State) (hk : Keeps fl s₀ s) :
    Keeps fl s₀ (snapSkip d s) := by
  unfold snapSkip
  try dsimp only
  repeat' first
    | intro _
    | with_reducible first
      | assumption | apply Keeps.foldl | apply snapPut_keeps | apply frameReport_keeps
    | split

theorem keepData_keeps (k : Nat) (d : Desc) (l : List Word) (s : State) (hk : Keeps fl s₀ s) :
    Keeps fl s₀ (keepData k d l s) := by
  unfold keepData
  try dsimp only
  repeat' first
    | intro _
    | with_reducible first
      | assumption | apply Keeps.ite | fail_if_no_progress refine Keeps.upd ?_
    | split

theorem snapUart_keeps (k u : Nat) (d : Desc) (s : State) (hk : Keeps fl s₀ s) :
    Keeps fl s₀ (snapUart k u d s) := by
  unfold snapUart
  try dsimp only
  repeat' first
    | intro _
    | with_reducible first
      | assumption | apply Keeps.ite | apply keepData_keeps | apply snapPuts_keeps | apply State.setUart_keeps
      | fail_if_no_progress refine Keeps.upd ?_
    | split

theorem snapRing_keeps (e : Nat) (nn : Nat) (yy : Nat) (zz : Nat) (ww : List Word) (s : State) (hk : Keeps fl s₀ s) :
    Keeps fl s₀ (snapRing e nn yy zz ww s).2 := by
  induction nn generalizing e yy zz ww s with
  | zero => exact hk
  | succ nn ih =>
    unfold snapRing
    try dsimp only
    repeat' first
      | with_reducible first
        | assumption | apply Keeps.ite | apply State.setWordN_keeps | fail_if_no_progress refine Keeps.upd ?_
      | split
      | with_reducible first
        | apply ih

theorem snapEth_keeps (k e : Nat) (d : Desc) (s : State) (hk : Keeps fl s₀ s) :
    Keeps fl s₀ (snapEth k e d s) := by
  unfold snapEth
  try dsimp only
  repeat' first
    | intro _
    | with_reducible first
      | assumption | apply snapRing_keeps | apply keepData_keeps | apply snapPuts_keeps
      | fail_if_no_progress refine Keeps.upd ?_
    | split

theorem snapPlain_keeps (k : Nat) (d : Desc) (s : State) (hk : Keeps fl s₀ s) :
    Keeps fl s₀ (snapPlain k d s) := by
  unfold snapPlain
  try dsimp only
  repeat' first
    | intro _
    | with_reducible first
      | assumption | apply Keeps.ite | apply keepData_keeps | apply snapPuts_keeps | apply frameReport_keeps | apply rxAck_keeps
      | apply forEach_keeps | fail_if_no_progress refine Keeps.upd ?_
    | split

theorem snapDesc_keeps (k : Nat) (s : State) (hk : Keeps fl s₀ s) :
    Keeps fl s₀ (snapDesc k s) := by
  unfold snapDesc
  try dsimp only
  repeat' first
    | intro _
    | with_reducible first
      | assumption | apply Keeps.ite | apply snapPlain_keeps | apply snapEth_keeps | apply snapUart_keeps | apply snapSkip_keeps
      | fail_if_no_progress refine Keeps.upd ?_
    | refine Keeps.ofPair (by assumption) ?_ | split

theorem snapshot_keeps (s : State) (hk : Keeps fl s₀ s) :
    Keeps fl s₀ (snapshot s) := by
  unfold snapshot
  try dsimp only
  repeat' first
    | intro _
    | with_reducible first
      | assumption | apply snapDesc_keeps | apply snapPuts_keeps | apply overN_keeps
    | split

theorem dropKept_keeps (i : Nat) (s : State) (hk : Keeps fl s₀ s) :
    Keeps fl s₀ (dropKept i s) := by
  unfold dropKept
  try dsimp only
  repeat' first
    | intro _
    | with_reducible first
      | assumption | fail_if_no_progress refine Keeps.upd ?_
    | split

theorem ttWrite_keeps (i : Nat) (x : Task) (s : State) (hk : Keeps fl s₀ s) :
    Keeps fl s₀ (ttWrite i x s) := by
  unfold ttWrite
  try dsimp only
  repeat' first
    | intro _
    | with_reducible first
      | assumption | apply Keeps.ite | apply State.setWords_keeps | fail_if_no_progress refine Keeps.upd ?_
    | split

theorem State.modTask_keeps (s : State) (i : Nat) (f : Task → Task) (hk : Keeps fl s₀ s) :
    Keeps fl s₀ (State.modTask s i f) := by
  unfold State.modTask
  try dsimp only
  repeat' first
    | intro _
    | with_reducible first
      | assumption | apply State.setTask_keeps
    | split

theorem ttReject_keeps (i : Nat) (s : State) (hk : Keeps fl s₀ s) :
    Keeps fl s₀ (ttReject i s) := by
  unfold ttReject
  try dsimp only
  repeat' first
    | intro _
    | with_reducible first
      | assumption | apply Keeps.ite | apply State.modTask_keeps | apply frameReport_keeps | apply State.setWordN_keeps
      | fail_if_no_progress refine Keeps.upd ?_
    | split

theorem ttRead_keeps (i : Nat) (s : State) (hk : Keeps fl s₀ s) :
    Keeps fl s₀ (ttRead i s) := by
  unfold ttRead
  try dsimp only
  repeat' first
    | intro _
    | with_reducible first
      | assumption | apply Keeps.ite | apply ttReject_keeps | fail_if_no_progress refine Keeps.upd ?_
    | split

theorem ttCommitPoint_keeps (s : State) (hk : Keeps fl s₀ s) :
    Keeps fl s₀ (ttCommitPoint s) := by
  unfold ttCommitPoint
  try dsimp only
  repeat' first
    | intro _
    | with_reducible first
      | assumption | apply ttRead_keeps | apply forEach_keeps | fail_if_no_progress refine Keeps.upd ?_
    | split

theorem ttAdopt_keeps (p : Nat × Task) (s : State) (hk : Keeps fl s₀ s) :
    Keeps fl s₀ (ttAdopt p s) := by
  unfold ttAdopt
  try dsimp only
  repeat' first
    | intro _
    | with_reducible first
      | assumption | apply Keeps.ite | apply ttWrite_keeps | apply jRevertTask_keeps | apply State.setTask_keeps
      | fail_if_no_progress refine Keeps.upd ?_
    | split

theorem ttT0_keeps (s : State) (hk : Keeps fl s₀ s) :
    Keeps fl s₀ (ttT0 s) := by
  unfold ttT0
  try dsimp only
  repeat' first
    | intro _
    | with_reducible first
      | assumption | apply Keeps.ite | apply ttAdopt_keeps | apply forEach_keeps | fail_if_no_progress refine Keeps.upd ?_
    | split

theorem taskDone_keeps (i : Nat) (s : State) (hk : Keeps fl s₀ s) :
    Keeps fl s₀ (taskDone i s) := by
  unfold taskDone
  try dsimp only
  repeat' first
    | intro _
    | with_reducible first
      | assumption | apply Keeps.ite | apply State.modTask_keeps | fail_if_no_progress refine Keeps.upd ?_
    | split

theorem tasksDone_keeps (s : State) (hk : Keeps fl s₀ s) :
    Keeps fl s₀ (tasksDone s) := by
  unfold tasksDone
  try dsimp only
  repeat' first
    | intro _
    | with_reducible first
      | assumption | apply Keeps.ite | apply taskDone_keeps | apply State.modTask_keeps | apply ttWrite_keeps
      | apply forEach_keeps | fail_if_no_progress refine Keeps.upd ?_
    | split

theorem tickPlace_keeps (t : Nat) (s : State) (hk : Keeps fl s₀ s) :
    Keeps fl s₀ (tickPlace t s) := by
  unfold tickPlace
  try dsimp only
  repeat' first
    | intro _
    | with_reducible first
      | assumption | apply Keeps.ite | fail_if_no_progress refine Keeps.upd ?_
    | split

theorem tickCorrect_keeps (s : State) (hk : Keeps fl s₀ s) :
    Keeps fl s₀ (tickCorrect s) := by
  unfold tickCorrect
  try dsimp only
  repeat' first
    | intro _
    | with_reducible first
      | assumption | apply Keeps.ite | fail_if_no_progress refine Keeps.upd ?_
    | split

theorem tickCount_keeps (t : Nat) (s : State) (hk : Keeps fl s₀ s) :
    Keeps fl s₀ (tickCount t s) := by
  unfold tickCount
  try dsimp only
  repeat' first
    | intro _
    | with_reducible first
      | assumption | apply Keeps.ite | apply State.put64_keeps | fail_if_no_progress refine Keeps.upd ?_
    | split

theorem firstFrame_keeps (s : State) (ha : s.alive = true) (hk : Keeps true s₀ s) : Keeps fl s₀ (firstFrame s) := by
  have hk' : Keeps fl s₀ s := hk.weaken
  unfold firstFrame
  split
  · exact hk'
  · have nf : ¬ Fresh true s := fun f => by simp [f.2 rfl] at ha
    have h : Keeps fl s₀ { s with frame := { s.frame with started := true } } :=
      ⟨hk.pending, hk.mem, hk.regs, hk.pub, hk.damaged, hk.drawn, fun p => .inr ((hk.safe p).resolve_left nf),
        .inr (hk.now.resolve_left nf)⟩
    dsimp only
    exact dueReports_keeps _ (safeIfNoCore_keeps _ (Keeps.ite (enterSafe_keeps _ _ h) h))

theorem frameOpens_keeps (s : State) (hk : Keeps fl s₀ s) :
    Keeps fl s₀ (frameOpens s) := by
  unfold frameOpens
  try dsimp only
  repeat' first
    | intro _
    | with_reducible first
      | assumption | apply State.put_keeps | fail_if_no_progress refine Keeps.upd ?_
    | split

theorem takeMeasures_keeps (m : Measures) (s : State) (hk : Keeps fl s₀ s) :
    Keeps fl s₀ (takeMeasures m s) := by
  unfold takeMeasures
  try dsimp only
  repeat' first
    | intro _
    | with_reducible first
      | assumption | apply forEach_keeps | apply State.modChan_keeps | apply State.put_keeps
      | fail_if_no_progress refine Keeps.upd ?_
    | split

theorem chanT0_keeps (i : Nat) (s : State) (hk : Keeps fl s₀ s) :
    Keeps fl s₀ (chanT0 i s) := by
  unfold chanT0
  try dsimp only
  repeat' first
    | intro _
    | with_reducible first
      | assumption | apply Keeps.ite | apply inputAdopt_keeps | apply chtAdopt_keeps | apply State.setChan_keeps
      | fail_if_no_progress refine Keeps.upd ?_
    | split

theorem chtT0_keeps (s : State) (hk : Keeps fl s₀ s) :
    Keeps fl s₀ (chtT0 s) := by
  unfold chtT0
  try dsimp only
  repeat' first
    | intro _
    | with_reducible first
      | assumption | apply chanT0_keeps | apply forEach_keeps | apply State.put_keeps | fail_if_no_progress refine Keeps.upd ?_
    | split

theorem dieT0_keeps (k : Nat) (s : State) (hk : Keeps fl s₀ s) :
    Keeps fl s₀ (dieT0 k s) := by
  unfold dieT0
  try dsimp only
  repeat' first
    | intro _
    | with_reducible first
      | assumption | apply Keeps.ite | apply dieResume_keeps | apply dieBackstop_keeps | apply State.modDie_keeps
      | fail_if_no_progress refine Keeps.upd ?_
    | split

theorem latchStatus_keeps (s : State) (hk : Keeps fl s₀ s) :
    Keeps fl s₀ (latchStatus s) := by
  unfold latchStatus
  try dsimp only
  repeat' first
    | intro _
    | with_reducible first
      | assumption | apply inputFrame_keeps | apply forEach_keeps | apply overN_keeps | apply State.modChan_keeps
      | fail_if_no_progress refine Keeps.upd ?_
    | split

theorem blocksT0_keeps (t : Nat) (m : Measures) (s : State) (hk : Keeps fl s₀ s) :
    Keeps fl s₀ (blocksT0 t m s) := by
  unfold blocksT0
  try dsimp only
  repeat' first
    | intro _
    | with_reducible first
      | assumption | apply Keeps.ite | apply latchStatus_keeps | apply dieT0_keeps | apply chtT0_keeps
      | apply takeMeasures_keeps | apply ttT0_keeps | apply powerT0_keeps | apply subFrame_keeps | apply placeAtT0_keeps
      | apply mbFrame_keeps | apply tmrFrame_keeps | apply pschT0_keeps | apply overN_keeps
      | fail_if_no_progress refine Keeps.upd ?_
    | split

theorem dispatch_keeps (s : State) (hk : Keeps fl s₀ s) :
    Keeps fl s₀ (dispatch s) := by
  unfold dispatch
  try dsimp only
  repeat' first
    | intro _
    | with_reducible first
      | assumption | apply Keeps.ite | apply snapshot_keeps | apply compareIfIdle_keeps | apply nextPass_keeps
      | apply forEach_keeps | apply overN_keeps | apply State.setRun_keeps | apply State.setCore_keeps | apply State.put_keeps
      | fail_if_no_progress refine Keeps.upd ?_
    | split

theorem noDispatch_keeps (s : State) (hk : Keeps fl s₀ s) :
    Keeps fl s₀ (noDispatch s) := by
  unfold noDispatch
  try dsimp only
  repeat' first
    | intro _
    | with_reducible first
      | assumption | apply State.put_keeps
    | (fail_if_no_progress ((with_reducible apply Keeps.upd) <;> first | exact id | exact fun _ => rfl | skip)) | split

theorem toggleAlive_keeps (s : State) (hk : Keeps fl s₀ s) :
    Keeps fl s₀ (toggleAlive s) := by
  unfold toggleAlive
  try dsimp only
  repeat' first
    | intro _
    | with_reducible first
      | assumption | apply Keeps.ite | apply State.flag_keeps
    | split

theorem frameRuns_keeps (s : State) (hk : Keeps fl s₀ s) :
    Keeps fl s₀ (frameRuns s) := by
  unfold frameRuns
  try dsimp only
  repeat' first
    | intro _
    | with_reducible first
      | assumption | apply Keeps.ite | apply toggleAlive_keeps | apply noDispatch_keeps | apply dispatch_keeps
      | apply raiseAll_keeps | fail_if_no_progress refine Keeps.upd ?_
    | split

theorem cutCore_keeps (c : Nat) (s : State) (hk : Keeps fl s₀ s) :
    Keeps fl s₀ (cutCore c s) := by
  unfold cutCore
  try dsimp only
  repeat' first
    | intro _
    | with_reducible first
      | assumption | apply leavePass_keeps | apply dropPasses_keeps | fail_if_no_progress refine Keeps.upd ?_
    | refine Keeps.ofPair (by assumption) ?_ | split

theorem cutFrame_keeps (s : State) (hk : Keeps fl s₀ s) :
    Keeps fl s₀ (cutFrame s) := by
  unfold cutFrame
  try dsimp only
  repeat' first
    | intro _
    | with_reducible first
      | assumption | apply Keeps.ite | apply cutCore_keeps | apply compare_keeps | apply dueReports_keeps
      | apply settleTask_keeps | apply forEach_keeps | apply overN_keeps | fail_if_no_progress refine Keeps.upd ?_
    | split

theorem execCut_keeps (t : Nat) (s : State) (hk : Keeps fl s₀ s) :
    KeepsRes fl s₀ (execCut t s) := by
  unfold execCut
  try dsimp only
  repeat' first
    | with_reducible first
      | apply KeepsRes.next | apply KeepsRes.ite
    | intro _
    | with_reducible first
      | assumption | apply Keeps.ite | apply cutFrame_keeps | apply State.at_keeps | fail_if_no_progress refine Keeps.upd ?_
    | split

theorem applyEntry_keeps (c i : Nat) (e : Nat × Word) (s : State) (hk : Keeps fl s₀ s) :
    Keeps fl s₀ (applyEntry c i e s) := by
  unfold applyEntry
  try dsimp only
  repeat' first
    | intro _
    | with_reducible first
      | assumption | apply Keeps.ite | apply busWrite_keeps | apply State.setWord_keeps
    | split

theorem commitTask_keeps (i : Nat) (s : State) (hk : Keeps fl s₀ s) :
    Keeps fl s₀ (commitTask i s) := by
  unfold commitTask
  try dsimp only
  repeat' first
    | intro _
    | with_reducible first
      | assumption | apply Keeps.foldl | apply applyEntry_keeps | apply State.modTask_keeps | apply dropKept_keeps
      | apply settleTask_keeps | fail_if_no_progress refine Keeps.upd ?_
    | split

theorem commitTasks_keeps  (nn : List Nat) (yy : Nat) (s : State) (hk : Keeps fl s₀ s) :
    Keeps fl s₀ (commitTasks nn yy s) := by
  induction nn generalizing yy s with
  | nil => exact hk
  | cons x l ih =>
    unfold commitTasks
    try dsimp only
    repeat' first
      | with_reducible first
        | assumption | apply Keeps.ite | apply commitTask_keeps | fail_if_no_progress refine Keeps.upd ?_
      | split
      | with_reducible first
        | apply ih

theorem markWaking_keeps (b : Bool) (l : List Nat) (s : State) (hk : Keeps fl s₀ s) :
    Keeps fl s₀ (markWaking b l s) := by
  unfold markWaking
  try dsimp only
  repeat' first
    | intro _
    | with_reducible first
      | assumption | apply forEach_keeps | fail_if_no_progress refine Keeps.upd ?_
    | split

theorem chtWriteBack_keeps (s : State) (hk : Keeps fl s₀ s) :
    Keeps fl s₀ (chtWriteBack s) := by
  unfold chtWriteBack
  try dsimp only
  repeat' first
    | intro _
    | with_reducible first
      | assumption | apply Keeps.ite | apply forEach_keeps | apply State.setWords_keeps
    | split

theorem coreUse_keeps (c : Nat) (s : State) (hk : Keeps fl s₀ s) :
    Keeps fl s₀ (coreUse c s) := by
  unfold coreUse
  try dsimp only
  repeat' first
    | intro _
    | with_reducible first
      | assumption | apply State.put_keeps | fail_if_no_progress refine Keeps.upd ?_
    | split

theorem countOverrun_keeps (s : State) (hk : Keeps fl s₀ s) :
    Keeps fl s₀ (countOverrun s) := by
  unfold countOverrun
  try dsimp only
  repeat' first
    | intro _
    | with_reducible first
      | assumption | apply Keeps.ite | apply frameReport_keeps | fail_if_no_progress refine Keeps.upd ?_
    | split

theorem commitPoints_keeps (s : State) (hk : Keeps fl s₀ s) :
    Keeps fl s₀ (commitPoints s) := by
  unfold commitPoints
  try dsimp only
  repeat' first
    | intro _
    | with_reducible first
      | assumption | apply chtWriteBack_keeps | apply tasksDone_keeps | apply ttCommitPoint_keeps | apply mbCommitPoint_keeps
      | apply chtCommitPoint_keeps | apply tmrWriteBack_keeps | apply tmrCommitPoint_keeps | apply apWriteBack_keeps
      | apply apCommitPoint_keeps | apply overN_keeps | fail_if_no_progress refine Keeps.upd ?_
    | split

theorem openSlice_keeps (s : State) (hk : Keeps fl s₀ s) :
    Keeps fl s₀ (openSlice s) := by
  unfold openSlice
  try dsimp only
  repeat' first
    | intro _
    | with_reducible first
      | assumption | apply Keeps.ite | apply raiseAll_keeps | apply State.put_keeps
    | split

theorem markClosed_keeps (s : State) (hk : Keeps fl s₀ s) :
    Keeps fl s₀ (markClosed s) := by
  unfold markClosed
  try dsimp only
  repeat' first
    | intro _
    | with_reducible first
      | assumption | fail_if_no_progress refine Keeps.upd ?_
    | split

theorem closeFrame_keeps (s : State) (hk : Keeps fl s₀ s) :
    Keeps fl s₀ (closeFrame s) := by
  unfold closeFrame
  try dsimp only
  repeat' first
    | intro _
    | with_reducible first
      | assumption | apply Keeps.ite | apply markClosed_keeps | apply openSlice_keeps | apply commitPoints_keeps
      | apply countOverrun_keeps | apply coreUse_keeps | apply overN_keeps
    | split

theorem markWaking_frame (b : Bool) (l : List Nat) (s : State) : (markWaking b l s).frame = s.frame := by
  unfold markWaking
  generalize hn : l = l'
  clear hn
  induction l' generalizing s with
  | nil => rfl
  | cons x l ih => exact ih _

theorem commitFrame_keeps (time : Nat) (s : State) (hk : Keeps fl s₀ s) : Keeps fl s₀ (commitFrame time s) := by
  unfold commitFrame
  dsimp only
  have h := commitTasks_keeps s.toApply (time + 100) _ (markWaking_keeps true (s.wakingNms s.toApply) _
    (State.put_keeps s FRAME_STAT_PHASE 3 hk))
  generalize commitTasks s.toApply (time + 100) _ = s1 at h ⊢
  have h2 : Keeps fl s₀ { markWaking false (s.wakingNms s.toApply) s1 with frame := { s1.frame with applied := true } } := by
    have e : (markWaking false (s.wakingNms s.toApply) s1).frame = s1.frame := markWaking_frame _ _ _
    have h3 := markWaking_keeps false (s.wakingNms s.toApply) s1 h
    generalize markWaking false (s.wakingNms s.toApply) s1 = s2 at e h3 ⊢
    rw [← e]
    exact h3.upd id id (fun _ => rfl) id
  exact Keeps.ite h2 (closeFrame_keeps _ h2)

theorem execCommit_keeps (t : Nat) (s : State) (hk : Keeps fl s₀ s) :
    KeepsRes fl s₀ (execCommit t s) := by
  unfold execCommit
  try dsimp only
  repeat' first
    | with_reducible first
      | apply KeepsRes.next | apply KeepsRes.ite
    | intro _
    | with_reducible first
      | assumption | apply Keeps.ite | apply commitFrame_keeps | apply compareIfIdle_keeps | apply State.at_keeps
      | fail_if_no_progress refine Keeps.upd ?_
    | split

theorem deadlineFrame_keeps (s : State) (hk : Keeps fl s₀ s) :
    Keeps fl s₀ (deadlineFrame s) := by
  unfold deadlineFrame
  try dsimp only
  repeat' first
    | intro _
    | with_reducible first
      | assumption | apply Keeps.ite | apply closeFrame_keeps | apply cutFrame_keeps | apply frameReport_keeps
      | apply settleTask_keeps | apply forEach_keeps | fail_if_no_progress refine Keeps.upd ?_
    | split

theorem execCommitDeadline_keeps (t : Nat) (s : State) (hk : Keeps fl s₀ s) :
    KeepsRes fl s₀ (execCommitDeadline t s) := by
  unfold execCommitDeadline
  try dsimp only
  repeat' first
    | with_reducible first
      | apply KeepsRes.next | apply KeepsRes.ite
    | intro _
    | with_reducible first
      | assumption | apply Keeps.ite | apply deadlineFrame_keeps | apply State.at_keeps
      | fail_if_no_progress refine Keeps.upd ?_
    | split

theorem execMaintenanceSliceEnd_keeps (t : Nat) (s : State) (hk : Keeps fl s₀ s) :
    KeepsRes fl s₀ (execMaintenanceSliceEnd t s) := by
  unfold execMaintenanceSliceEnd
  try dsimp only
  repeat' first
    | with_reducible first
      | apply KeepsRes.next | apply KeepsRes.ite
    | intro _
    | with_reducible first
      | assumption | apply Keeps.ite | apply doReturn_keeps | apply State.at_keeps | apply State.put_keeps
      | fail_if_no_progress refine Keeps.upd ?_
    | split

theorem pastDeadline_keeps (s : State) (hk : Keeps fl s₀ s) :
    Keeps fl s₀ (pastDeadline s) := by
  unfold pastDeadline
  try dsimp only
  repeat' first
    | intro _
    | with_reducible first
      | assumption | apply Keeps.ite | apply deadlineFrame_keeps | apply State.at_keeps
    | split

theorem setDebugMode_alive (m : Nat) (s : State) : (setDebugMode m s).alive = s.alive := by
  unfold setDebugMode
  split <;> rfl

theorem frameOpens_alive (s : State) : (frameOpens s).alive = s.alive := rfl

theorem tickCount_alive (t : Nat) (s : State) : (tickCount t s).alive = s.alive := rfl

theorem tickCorrect_alive (s : State) : (tickCorrect s).alive = s.alive := rfl

theorem tickPlace_alive (t : Nat) (s : State) : (tickPlace t s).alive = s.alive := rfl

theorem frameT0_keeps (t : Nat) (m : Measures) (s : State) (hk : Keeps true s₀ s) : Keeps fl s₀ (frameT0 t m s) := by
  have h := pastDeadline_keeps s hk
  unfold frameT0
  dsimp only
  generalize pastDeadline s = s1 at h ⊢
  split
  · rename_i ha
    have h2 := tickPlace_keeps t _ (setDebugMode_keeps (s1.get DBG_CTL_MODE_REQ % 3) _ h)
    have ha2 : (tickPlace t (setDebugMode (s1.get DBG_CTL_MODE_REQ % 3) s1)).alive = true :=
      (tickPlace_alive _ _).trans ((setDebugMode_alive _ _).trans ha)
    generalize tickPlace t (setDebugMode (s1.get DBG_CTL_MODE_REQ % 3) s1) = s2 at h2 ha2 ⊢
    have h3 := State.at_keeps _ t h2
    have ha3 : (s2.at t).alive = true := ha2
    generalize s2.at t = s3 at h3 ha3 ⊢
    have h4 := frameOpens_keeps _ (tickCount_keeps t _ (tickCorrect_keeps _ h3))
    have ha4 := (frameOpens_alive (tickCount t (tickCorrect s3))).trans ((tickCount_alive t (tickCorrect s3)).trans
        ((tickCorrect_alive s3).trans ha3))
    generalize frameOpens (tickCount t (tickCorrect s3)) = s4 at h4 ha4 ⊢
    exact frameRuns_keeps _ (blocksT0_keeps t m _ (firstFrame_keeps _ ha4 h4))
  · exact h.weaken

theorem execFrameTick_keeps (t : Nat) (m : Measures) (s : State) (hk : Keeps true s₀ s) : KeepsRes fl s₀ (execFrameTick t m s) := by
  unfold execFrameTick
  exact KeepsRes.ite (.next (frameT0_keeps t m s hk)) (.next hk.weaken)

theorem enterService_keeps (s : State) (hk : Keeps fl s₀ s) :
    Keeps fl s₀ (enterService s) := by
  unfold enterService
  try dsimp only
  repeat' first
    | intro _
    | with_reducible first
      | assumption | fail_if_no_progress refine Keeps.upd ?_
    | split

theorem bootClocks_keeps (p : BootPlan) (s : State) (hk : Keeps fl s₀ s) :
    Keeps fl s₀ (bootClocks p s) := by
  unfold bootClocks
  try dsimp only
  repeat' first
    | intro _
    | with_reducible first
      | assumption | apply Keeps.ite | apply hfrcIncrement_keeps | apply causeBegins_keeps | apply State.flag_keeps
      | apply State.put_keeps | fail_if_no_progress refine Keeps.upd ?_
    | split

theorem bootBegins_keeps (cause : Nat) (s : State) (hk : Keeps false s₀ s) : Keeps false s₀ (bootBegins cause s) := by
  have h := State.put_keeps s PWR_RST_CAUSE cause hk
  unfold bootBegins
  generalize State.put s PWR_RST_CAUSE cause = r at h ⊢
  exact ⟨h.pending, h.mem, h.regs, h.pub, h.damaged, h.drawn, fun p => (h.safe p).imp (fun f => ⟨f.1, nofun⟩) id,
    h.now.imp (fun f => ⟨f.1, nofun⟩) id⟩

theorem bootRecords_keeps (p : BootPlan) (s : State) (hk : Keeps fl s₀ s) :
    Keeps fl s₀ (bootRecords p s) := by
  unfold bootRecords
  try dsimp only
  repeat' first
    | intro _
    | with_reducible first
      | assumption | apply Keeps.ite | apply report_keeps
    | (fail_if_no_progress ((with_reducible apply Keeps.upd) <;> first | exact id | exact fun _ => rfl | skip)) | split

theorem countStart_keeps (s : State) (hk : Keeps fl s₀ s) :
    Keeps fl s₀ (countStart s) := by
  unfold countStart
  try dsimp only
  repeat' first
    | intro _
    | with_reducible first
      | assumption | apply Keeps.ite | fail_if_no_progress refine Keeps.upd ?_
    | split

theorem bootKeeper_keeps (p : BootPlan) (s : State) (hk : Keeps fl s₀ s) :
    Keeps fl s₀ (bootKeeper p s).2 := by
  unfold bootKeeper
  try dsimp only
  repeat' first
    | intro _
    | with_reducible first
      | assumption | apply Keeps.ite | apply countStart_keeps | apply bootRecords_keeps | apply keeperStart_keeps
      | apply report_keeps
    | split | with_reducible fail_if_no_progress refine Keeps.upd ?_ | split

theorem bootTouchline_keeps (p : BootPlan) (s : State) (hk : Keeps fl s₀ s) :
    Keeps fl s₀ (bootTouchline p s) := by
  unfold bootTouchline
  try dsimp only
  repeat' first
    | intro _
    | with_reducible first
      | assumption | apply Keeps.ite | apply enterService_keeps | apply report_keeps | fail_if_no_progress refine Keeps.upd ?_
    | split

theorem bootSegments_keeps (p : BootPlan) (s : State) (hk : Keeps fl s₀ s) :
    Keeps fl s₀ (bootSegments p s) := by
  unfold bootSegments
  try dsimp only
  repeat' first
    | intro _
    | with_reducible first
      | assumption | apply Keeps.ite | apply enterService_keeps | apply report_keeps | apply overN_keeps | apply State.put_keeps
      | fail_if_no_progress refine Keeps.upd ?_
    | split

theorem bootField_keeps (p : BootPlan) (s : State) (hk : Keeps fl s₀ s) :
    Keeps fl s₀ (bootField p s) := by
  unfold bootField
  try dsimp only
  repeat' first
    | intro _
    | with_reducible first
      | assumption | apply Keeps.ite | apply fldPowerUp_keeps | apply fldEnter_keeps | apply report_keeps
      | apply State.flag_keeps | fail_if_no_progress refine Keeps.upd ?_
    | split

theorem bootDies_keeps (p : BootPlan) (s : State) (hk : Keeps fl s₀ s) :
    Keeps fl s₀ (bootDies p s) := by
  unfold bootDies
  try dsimp only
  repeat' first
    | intro _
    | with_reducible first
      | assumption | apply Keeps.ite | apply report_keeps | apply overN_keeps | apply State.modDie_keeps
      | fail_if_no_progress refine Keeps.upd ?_
    | split

theorem bootAccess_keeps (deep : Bool) (p : BootPlan) (s : State) (hk : Keeps fl s₀ s) :
    Keeps fl s₀ (bootAccess deep p s) := by
  unfold bootAccess
  try dsimp only
  repeat' first
    | intro _
    | with_reducible first
      | assumption | apply Keeps.ite | apply report_keeps | apply accRestore_keeps | fail_if_no_progress refine Keeps.upd ?_
    | split

theorem bootTests_keeps (p : BootPlan) (s : State) (hk : Keeps fl s₀ s) :
    Keeps fl s₀ (bootTests p s) := by
  unfold bootTests
  try dsimp only
  repeat' first
    | intro _
    | with_reducible first
      | assumption | apply Keeps.ite | apply enterService_keeps | apply report_keeps | apply setSafeHeld_keeps
      | fail_if_no_progress refine Keeps.upd ?_
    | split

theorem bootReload_keeps (deep : Bool) (p : BootPlan) (s : State) (hk : Keeps fl s₀ s) :
    Keeps fl s₀ (bootReload deep p s) := by
  unfold bootReload
  try dsimp only
  repeat' first
    | intro _
    | with_reducible first
      | assumption | apply Keeps.foldl | apply bootTests_keeps | apply bootAccess_keeps | apply bootDies_keeps
      | apply bootField_keeps | apply applyEntry_keeps | apply chainStart_keeps | fail_if_no_progress refine Keeps.upd ?_
    | split

theorem tlWrite_keeps (s : State) (hk : Keeps fl s₀ s) :
    Keeps fl s₀ (tlWrite s) := by
  unfold tlWrite
  try dsimp only
  repeat' first
    | intro _
    | with_reducible first
      | assumption | apply writeSrcCfg_keeps | apply store_keeps | apply forEach_keeps | apply overN_keeps
      | apply State.put_keeps | fail_if_no_progress refine Keeps.upd ?_
    | split

theorem tlPromote_keeps (s : State) (hk : Keeps fl s₀ s) :
    Keeps fl s₀ (tlPromote s) := by
  unfold tlPromote
  try dsimp only
  repeat' first
    | intro _
    | with_reducible first
      | assumption | apply Keeps.ite | apply overN_keeps | apply State.setSrc_keeps | fail_if_no_progress refine Keeps.upd ?_
    | split

theorem armDie_keeps (deep : Bool) (p : BootPlan) (k : Nat) (s : State) (hk : Keeps fl s₀ s) :
    Keeps fl s₀ (armDie deep p k s) := by
  unfold armDie
  try dsimp only
  repeat' first
    | intro _
    | with_reducible first
      | assumption | apply Keeps.ite | apply dieArm_keeps | apply overN_keeps | apply State.put_keeps
      | fail_if_no_progress refine Keeps.upd ?_
    | split

theorem bootArm_keeps (deep : Bool) (p : BootPlan) (s : State) (hk : Keeps fl s₀ s) :
    Keeps fl s₀ (bootArm deep p s) := by
  unfold bootArm
  try dsimp only
  repeat' first
    | intro _
    | with_reducible first
      | assumption | apply Keeps.ite | apply armDie_keeps | apply tlPromote_keeps | apply tlWrite_keeps | apply fldArm_keeps
      | apply overN_keeps | fail_if_no_progress refine Keeps.upd ?_
    | split

theorem bootEnds_keeps (p : BootPlan) (s : State) (hk : Keeps fl s₀ s) :
    Keeps fl s₀ (bootEnds p s) := by
  unfold bootEnds
  try dsimp only
  repeat' first
    | intro _
    | with_reducible first
      | assumption | apply setRun_keeps | apply State.flag_keeps | fail_if_no_progress refine Keeps.upd ?_
    | split

theorem bootNonce_keeps (s : State) (hk : Keeps fl s₀ s) :
    Keeps fl s₀ (bootNonce s) := by
  unfold bootNonce
  try dsimp only
  repeat' first
    | intro _
    | with_reducible first
      | assumption | apply State.draw_keeps | fail_if_no_progress refine Keeps.upd ?_
    | split

theorem bootSteps_keeps (deep : Bool) (p : BootPlan) (s : State) (hk : Keeps fl s₀ s) :
    Keeps fl s₀ (bootSteps deep p s) := by
  unfold bootSteps
  try dsimp only
  repeat' first
    | intro _
    | with_reducible first
      | assumption | apply Keeps.ite | apply bootNonce_keeps | apply bootEnds_keeps | apply bootArm_keeps
      | apply bootReload_keeps | apply bootSegments_keeps | apply bootTouchline_keeps | fail_if_no_progress refine Keeps.upd ?_
    | split

theorem bootCause_keeps (cause : Nat) (s : State) (hk : Keeps fl s₀ s) :
    Keeps fl s₀ (bootCause cause s) := by
  unfold bootCause
  try dsimp only
  repeat' first
    | intro _
    | with_reducible first
      | assumption | apply Keeps.ite | apply report_keeps
    | split

theorem start_keeps (cause : Nat) (p : BootPlan) (s : State) (hk : Keeps false s₀ s) :
    Keeps false s₀ (start cause p s) := by
  unfold start
  try dsimp only
  repeat' first
    | intro _
    | with_reducible first
      | assumption | apply Keeps.ite | apply bootCause_keeps | apply bootSteps_keeps | apply bootKeeper_keeps
      | apply bootBegins_keeps | apply bootClocks_keeps | apply powerLost_keeps | fail_if_no_progress refine Keeps.upd ?_
    | split

theorem execPowerUp_keeps (s : State) (hk : Keeps fl s₀ s) :
    KeepsRes fl s₀ (execPowerUp s) := by
  unfold execPowerUp
  try dsimp only
  repeat' first
    | with_reducible first
      | apply KeepsRes.next | apply KeepsRes.ite
    | intro _
    | with_reducible first
      | assumption | apply powerLost_keeps
    | split

theorem execResetNRelease_keeps (plan : BootPlan) (s : State) (hk : Keeps false s₀ s) :
    KeepsRes false s₀ (execResetNRelease plan s) := by
  unfold execResetNRelease
  try dsimp only
  repeat' first
    | with_reducible first
      | apply KeepsRes.next | apply KeepsRes.ite
    | intro _
    | with_reducible first
      | assumption | apply Keeps.ite | apply start_keeps
    | split

theorem execResetNAssert_keeps (t : Nat) (s : State) (hk : Keeps fl s₀ s) :
    KeepsRes fl s₀ (execResetNAssert t s) := by
  unfold execResetNAssert
  try dsimp only
  repeat' first
    | with_reducible first
      | apply KeepsRes.next | apply KeepsRes.ite
    | intro _
    | with_reducible first
      | assumption | apply logicReset_keeps | apply State.at_keeps
    | split

theorem execFirstFrameTimeout_keeps (t : Nat) (s : State) (hk : Keeps fl s₀ s) :
    KeepsRes fl s₀ (execFirstFrameTimeout t s) := by
  unfold execFirstFrameTimeout
  try dsimp only
  repeat' first
    | with_reducible first
      | apply KeepsRes.next | apply KeepsRes.ite
    | intro _
    | with_reducible first
      | assumption | apply Keeps.ite | apply enterService_keeps | apply setSafeHeld_keeps | apply State.at_keeps
      | fail_if_no_progress refine Keeps.upd ?_
    | split

theorem execBrownout_keeps (mV t : Nat) (plan : BootPlan) (s : State) (hk : Keeps false s₀ s) :
    KeepsRes false s₀ (execBrownout mV t plan s) := by
  unfold execBrownout
  try dsimp only
  repeat' first
    | with_reducible first
      | apply KeepsRes.next | apply KeepsRes.ite
    | intro _
    | with_reducible first
      | assumption | apply Keeps.ite | apply start_keeps | apply brownoutReset_keeps | apply State.at_keeps
      | fail_if_no_progress refine Keeps.upd ?_
    | split

theorem execUmpRst_keeps (key : BitVec 8) (go : Bool) (t : Nat) (plan : BootPlan) (s : State) (hk : Keeps false s₀ s) :
    KeepsRes false s₀ (execUmpRst key go t plan s) := by
  unfold execUmpRst
  try dsimp only
  repeat' first
    | with_reducible first
      | apply KeepsRes.next | apply KeepsRes.ite
    | intro _
    | with_reducible first
      | assumption | apply Keeps.ite | apply start_keeps | apply logicReset_keeps | apply State.at_keeps
      | fail_if_no_progress refine Keeps.upd ?_
    | split

theorem execKeeperReset_keeps (t : Nat) (plan : BootPlan) (s : State) (hk : Keeps false s₀ s) :
    KeepsRes false s₀ (execKeeperReset t plan s) := by
  unfold execKeeperReset
  try dsimp only
  repeat' first
    | with_reducible first
      | apply KeepsRes.next | apply KeepsRes.ite
    | intro _
    | with_reducible first
      | assumption | apply Keeps.ite | apply start_keeps | apply logicReset_keeps | apply State.at_keeps
      | fail_if_no_progress refine Keeps.upd ?_
    | refine Keeps.ofPair (by assumption) ?_ | split

theorem Keeps.wakes (h : Keeps false s₀ s) : Keeps false s₀ { s with alive := true, power := .run } :=
  ⟨h.pending, h.mem, h.regs, h.pub, h.damaged, h.drawn, fun p => (h.safe p).imp (fun f => ⟨f.1, nofun⟩) id,
    h.now.imp (fun f => ⟨f.1, nofun⟩) id⟩

theorem deepBegins_keeps (first unit : Nat) (p : BootPlan) (s : State) (hk : Keeps false s₀ s) :
    Keeps false s₀ (deepBegins first unit p s) := by
  unfold deepBegins
  dsimp only
  have h := (sleepRecord_keeps _ (wakeRecord_keeps first unit s.wakeLevels s hk)).wakes
  generalize sleepRecord (wakeRecord first unit s.wakeLevels s) = r at h ⊢
  generalize ({ r with alive := true, power := .run } : State) = q at h ⊢
  exact bootBegins_keeps _ _ (bootClocks_keeps _ _ (clearWakes_keeps _ (deepStart_keeps _ h)))

theorem deepReads_keeps (s : State) (hk : Keeps fl s₀ s) :
    Keeps fl s₀ (deepReads s) := by
  unfold deepReads
  try dsimp only
  repeat' first
    | intro _
    | with_reducible first
      | assumption | apply Keeps.ite | apply tmrWake_keeps | apply report_keeps | fail_if_no_progress refine Keeps.upd ?_
    | split

theorem deepReturn_keeps (first unit : Nat) (p : BootPlan) (s : State) (hk : Keeps false s₀ s) :
    Keeps false s₀ (deepReturn first unit p s) := by
  unfold deepReturn
  try dsimp only
  repeat' first
    | intro _
    | with_reducible first
      | assumption | apply Keeps.ite | apply deepReads_keeps | apply deepBegins_keeps | apply bootSteps_keeps
      | apply bootKeeper_keeps | apply powerLost_keeps | apply returnReports_keeps | apply touchReturn_keeps
      | apply startPending_keeps | fail_if_no_progress refine Keeps.upd ?_
    | split

theorem enterDeep_keeps (s : State) (hk : Keeps false s₀ s) : Keeps false s₀ (enterDeep s) := by
  have h := deepLost_keeps { s with power := .deep } (hk.upd id id (fun _ => rfl) id)
  unfold enterDeep
  generalize deepLost { s with power := .deep } = r at h ⊢
  exact ⟨h.pending, h.mem, h.regs, h.pub, h.damaged, h.drawn, fun p => (h.safe p).imp (fun f => ⟨f.1, nofun⟩) id,
    h.now.imp (fun f => ⟨f.1, nofun⟩) id⟩

theorem enterOff_keeps (s : State) (hk : Keeps fl s₀ s) : Keeps fl s₀ (enterOff s) := by
  have h := lastingState_keeps s hk
  unfold enterOff
  dsimp only
  generalize lastingState s = r at h ⊢
  exact gatesChanged_keeps _ (overN_keeps _ _ _ (fun k s hs => State.modDie_keeps _ _ _ hs)
    ⟨h.pending, h.mem, fun p => Tab.keep_wf _ (hk.regs p), h.pub, h.damaged, h.drawn, h.safe, h.now⟩)

theorem enterOff_fresh (s : State) : Fresh true (enterOff s) := by
  have ha : (lastingState s).alive = false := rfl
  have hf : (lastingState s).frame.started = false := rfl
  unfold enterOff
  dsimp only
  generalize lastingState s = r at ha hf ⊢
  refine Keeps.fresh (fun r hr => gatesChanged_keeps _ (overN_keeps _ _ _ (fun k s hs => State.modDie_keeps _ _ _ hs) hr)) ?_
  exact ⟨hf, fun _ => ha⟩

theorem offReturn_keeps (first : Nat) (p : BootPlan) (s : State) (hk : Keeps false s₀ s) :
    Keeps false s₀ (offReturn first p s) := by
  unfold offReturn
  dsimp only
  have h := enterOff_keeps s hk
  have f := enterOff_fresh s
  generalize enterOff s = r at h f ⊢
  have h2 : Keeps false s₀ { r with now := 0, power := .run } :=
    ⟨h.pending, h.mem, h.regs, h.pub, h.damaged, h.drawn, fun _ => .inl ⟨f.1, nofun⟩, .inl ⟨f.1, nofun⟩⟩
  generalize ({ r with now := 0, power := .run } : State) = q at h2 ⊢
  exact start_keeps _ _ _ (clearWakes_keeps _ (wakeRecord_keeps _ _ _ _ h2))

theorem returnFrom_keeps (first unit : Nat) (p : BootPlan) (s : State) (hk : Keeps false s₀ s) :
    Keeps false s₀ (returnFrom first unit p s) := by
  unfold returnFrom
  try dsimp only
  repeat' first
    | intro _
    | with_reducible first
      | assumption | apply offReturn_keeps | apply deepReturn_keeps | apply returnFromSleep_keeps | apply endIdle_keeps
      | fail_if_no_progress refine Keeps.upd ?_
    | refine Keeps.ofPair (by assumption) ?_ | split

theorem reachTarget_keeps (s : State) (hk : Keeps false s₀ s) :
    Keeps false s₀ (reachTarget s) := by
  unfold reachTarget
  try dsimp only
  repeat' first
    | intro _
    | with_reducible first
      | assumption | apply Keeps.ite | apply enterOff_keeps | apply enterDeep_keeps | apply endEntry_keeps
      | apply State.flag_keeps | apply State.put_keeps | fail_if_no_progress refine Keeps.upd ?_
    | split

theorem execTargetStateReached_keeps (t : Nat) (plan : BootPlan) (s : State) (hk : Keeps false s₀ s) :
    KeepsRes false s₀ (execTargetStateReached t plan s) := by
  unfold execTargetStateReached
  try dsimp only
  repeat' first
    | with_reducible first
      | apply KeepsRes.next | apply KeepsRes.ite
    | intro _
    | with_reducible first
      | assumption | apply Keeps.ite | apply reachTarget_keeps | apply returnFrom_keeps | apply State.at_keeps
      | fail_if_no_progress refine Keeps.upd ?_
    | split

theorem abortEntry_keeps (first unit : Nat) (s : State) (hk : Keeps fl s₀ s) :
    Keeps fl s₀ (abortEntry first unit s) := by
  unfold abortEntry
  try dsimp only
  repeat' first
    | intro _
    | with_reducible first
      | assumption | apply Keeps.ite | apply returnFromSleep_keeps | apply abortWait_keeps | apply takePending_keeps
      | apply State.flag_keeps
    | split

theorem wakeNow_keeps (b unit : Nat) (p : BootPlan) (s : State) (hk : Keeps false s₀ s) :
    Keeps false s₀ (wakeNow b unit p s) := by
  unfold wakeNow
  try dsimp only
  repeat' first
    | intro _
    | with_reducible first
      | assumption | apply Keeps.ite | apply abortEntry_keeps | apply returnFrom_keeps | apply endIdle_keeps
      | fail_if_no_progress refine Keeps.upd ?_
    | split

theorem execWake_keeps (src : WakeSrc) (t : Nat) (plan : BootPlan) (s : State) (hk : Keeps false s₀ s) :
    KeepsRes false s₀ (execWake src t plan s) := by
  unfold execWake
  try dsimp only
  repeat' first
    | with_reducible first
      | apply KeepsRes.next | apply KeepsRes.ite
    | intro _
    | with_reducible first
      | assumption | apply wakeNow_keeps | apply State.at_keeps
    | split

theorem execAlarm_keeps (t : Nat) (plan : BootPlan) (s : State) (hk : Keeps false s₀ s) :
    KeepsRes false s₀ (execAlarm t plan s) := by
  unfold execAlarm
  try dsimp only
  repeat' first
    | with_reducible first
      | apply KeepsRes.next | apply KeepsRes.ite
    | intro _
    | with_reducible first
      | assumption | apply Keeps.ite | apply wakeNow_keeps | apply State.at_keeps | fail_if_no_progress refine Keeps.upd ?_
    | split

end Sys2Proof.Machine
end

