-- ==== Sys2Proof/Laws/Exec.lean ====
section
/-!
SUPPORT. Sys2Proof/Laws/Exec.lean: what every command keeps, and what a step is on an empty and on a waiting queue.
-/
namespace Sys2Proof.Machine
-- the small lemmas of this file one after another, each without a thread of its own
set_option Elab.async false

/-- Every command answers a next state and keeps what `Keeps` names. -/
theorem exec_keeps (i : Instr) (s : State) : KeepsRes false s (exec i s) := by
  cases i with
  | powerUp => exact execPowerUp_keeps (hk := Keeps.refl) ..
  | resetNRelease => exact execResetNRelease_keeps (hk := Keeps.refl) ..
  | resetNAssert => exact execResetNAssert_keeps (hk := Keeps.refl) ..
  | firstFrameTimeout => exact execFirstFrameTimeout_keeps (hk := Keeps.refl) ..
  | brownout => exact execBrownout_keeps (hk := Keeps.refl) ..
  | vbatUv => exact execVbatUv_keeps (hk := Keeps.refl) ..
  | vbatOv => exact execVbatOv_keeps (hk := Keeps.refl) ..
  | flashSuspendUv => exact execFlashSuspendUv_keeps (hk := Keeps.refl) ..
  | flashResumeUv => exact execFlashResumeUv_keeps (hk := Keeps.refl) ..
  | groupWire g => exact execGroupWire_keeps (_g := g) (hk := Keeps.refl) ..
  | touch => exact execTouch_keeps (hk := Keeps.refl) ..
  | ignOkRise => exact execIgnOkRise_keeps (hk := Keeps.refl) ..
  | ignOkFall => exact execIgnOkFall_keeps (hk := Keeps.refl) ..
  | gateLineFall => exact execGateLineFall_keeps (hk := Keeps.refl) ..
  | gateLineRise => exact execGateLineRise_keeps (hk := Keeps.refl) ..
  | registerWrite => exact execRegisterWrite_keeps (hk := Keeps.refl) ..
  | frameTick => exact execFrameTick_keeps (hk := Keeps.refl) ..
  | cut => exact execCut_keeps (hk := Keeps.refl) ..
  | commit => exact execCommit_keeps (hk := Keeps.refl) ..
  | commitDeadline => exact execCommitDeadline_keeps (hk := Keeps.refl) ..
  | maintenanceSliceEnd => exact execMaintenanceSliceEnd_keeps (hk := Keeps.refl) ..
  | run => exact execRun_keeps (hk := Keeps.refl) ..
  | frameLenWrite => exact execFrameLenWrite_keeps (hk := Keeps.refl) ..
  | frameMarginWrite => exact execFrameMarginWrite_keeps (hk := Keeps.refl) ..
  | frameCutresWrite => exact execFrameCutresWrite_keeps (hk := Keeps.refl) ..
  | frameLockWrite => exact execFrameLockWrite_keeps (hk := Keeps.refl) ..
  | lockReference => exact execLockReference_keeps (hk := Keeps.refl) ..
  | referenceMissing => exact execReferenceMissing_keeps (hk := Keeps.refl) ..
  | lockFail => exact execLockFail_keeps (hk := Keeps.refl) ..
  | ttPost => exact execTtPost_keeps (hk := Keeps.refl) ..
  | modeReq => exact execModeReq_keeps (hk := Keeps.refl) ..
  | halt => exact execHalt_keeps (hk := Keeps.refl) ..
  | debugResume => exact execDebugResume_keeps (hk := Keeps.refl) ..
  | breakpoint => exact execBreakpoint_keeps (hk := Keeps.refl) ..
  | debuggerWrite => exact execDebuggerWrite_keeps (hk := Keeps.refl) ..
  | interrupt => exact execInterrupt_keeps (hk := Keeps.refl) ..
  | add => exact execAdd_keeps (hk := Keeps.refl) ..
  | sub => exact execSub_keeps (hk := Keeps.refl) ..
  | adc => exact execAdc_keeps (hk := Keeps.refl) ..
  | sbc => exact execSbc_keeps (hk := Keeps.refl) ..
  | andR => exact execAndR_keeps (hk := Keeps.refl) ..
  | orR => exact execOrR_keeps (hk := Keeps.refl) ..
  | xorR => exact execXorR_keeps (hk := Keeps.refl) ..
  | andn => exact execAndn_keeps (hk := Keeps.refl) ..
  | orn => exact execOrn_keeps (hk := Keeps.refl) ..
  | xnor => exact execXnor_keeps (hk := Keeps.refl) ..
  | cmp => exact execCmp_keeps (hk := Keeps.refl) ..
  | tst => exact execTst_keeps (hk := Keeps.refl) ..
  | sel => exact execSel_keeps (hk := Keeps.refl) ..
  | lsl => exact execLsl_keeps (hk := Keeps.refl) ..
  | lsr => exact execLsr_keeps (hk := Keeps.refl) ..
  | asr => exact execAsr_keeps (hk := Keeps.refl) ..
  | ror => exact execRor_keeps (hk := Keeps.refl) ..
  | lsli => exact execLsli_keeps (hk := Keeps.refl) ..
  | lsri => exact execLsri_keeps (hk := Keeps.refl) ..
  | asri => exact execAsri_keeps (hk := Keeps.refl) ..
  | rori => exact execRori_keeps (hk := Keeps.refl) ..
  | mul => exact execMul_keeps (hk := Keeps.refl) ..
  | mulhs => exact execMulhs_keeps (hk := Keeps.refl) ..
  | mulhu => exact execMulhu_keeps (hk := Keeps.refl) ..
  | divs => exact execDivs_keeps (hk := Keeps.refl) ..
  | divu => exact execDivu_keeps (hk := Keeps.refl) ..
  | rems => exact execRems_keeps (hk := Keeps.refl) ..
  | remu => exact execRemu_keeps (hk := Keeps.refl) ..
  | clz => exact execClz_keeps (hk := Keeps.refl) ..
  | bfx => exact execBfx_keeps (hk := Keeps.refl) ..
  | bfxs => exact execBfxs_keeps (hk := Keeps.refl) ..
  | bfi => exact execBfi_keeps (hk := Keeps.refl) ..
  | perm => exact execPerm_keeps (hk := Keeps.refl) ..
  | addi => exact execAddi_keeps (hk := Keeps.refl) ..
  | andi => exact execAndi_keeps (hk := Keeps.refl) ..
  | ori => exact execOri_keeps (hk := Keeps.refl) ..
  | xori => exact execXori_keeps (hk := Keeps.refl) ..
  | cmpi => exact execCmpi_keeps (hk := Keeps.refl) ..
  | tsti => exact execTsti_keeps (hk := Keeps.refl) ..
  | movhi => exact execMovhi_keeps (hk := Keeps.refl) ..
  | lw => exact execLw_keeps (hk := Keeps.refl) ..
  | lh => exact execLh_keeps (hk := Keeps.refl) ..
  | lhu => exact execLhu_keeps (hk := Keeps.refl) ..
  | lb => exact execLb_keeps (hk := Keeps.refl) ..
  | lbu => exact execLbu_keeps (hk := Keeps.refl) ..
  | sw => exact execSw_keeps (hk := Keeps.refl) ..
  | sh => exact execSh_keeps (hk := Keeps.refl) ..
  | sb => exact execSb_keeps (hk := Keeps.refl) ..
  | agree => exact execAgree_keeps (hk := Keeps.refl) ..
  | br => exact execBr_keeps (hk := Keeps.refl) ..
  | bl => exact execBl_keeps (hk := Keeps.refl) ..
  | jr => exact execJr_keeps (hk := Keeps.refl) ..
  | jalr => exact execJalr_keeps (hk := Keeps.refl) ..
  | loopR => exact execLoopR_keeps (hk := Keeps.refl) ..
  | loopi => exact execLoopi_keeps (hk := Keeps.refl) ..
  | nop => exact execNop_keeps (hk := Keeps.refl) ..
  | mfc => exact execMfc_keeps (hk := Keeps.refl) ..
  | mtc => exact execMtc_keeps (hk := Keeps.refl) ..
  | trap => exact execTrap_keeps (hk := Keeps.refl) ..
  | sync => exact execSync_keeps (hk := Keeps.refl) ..
  | eret => exact execEret_keeps (hk := Keeps.refl) ..
  | wfi => exact execWfi_keeps (hk := Keeps.refl) ..
  | chtPost => exact execChtPost_keeps (hk := Keeps.refl) ..
  | therm => exact execTherm_keeps (hk := Keeps.refl) ..
  | latchClr => exact execLatchClr_keeps (hk := Keeps.refl) ..
  | fltClr => exact execFltClr_keeps (hk := Keeps.refl) ..
  | bstop => exact execBstop_keeps (hk := Keeps.refl) ..
  | resume => exact execResume_keeps (hk := Keeps.refl) ..
  | chainLatch => exact execChainLatch_keeps (hk := Keeps.refl) ..
  | configurationFrame => exact execConfigurationFrame_keeps (hk := Keeps.refl) ..
  | liveAdvance => exact execLiveAdvance_keeps (hk := Keeps.refl) ..
  | liveStall => exact execLiveStall_keeps (hk := Keeps.refl) ..
  | serialWatchdogExpiry => exact execSerialWatchdogExpiry_keeps (hk := Keeps.refl) ..
  | dieLogicReset => exact execDieLogicReset_keeps (hk := Keeps.refl) ..
  | short => exact execShort_keeps (hk := Keeps.refl) ..
  | overcur => exact execOvercur_keeps (hk := Keeps.refl) ..
  | inrushWindowEnd => exact execInrushWindowEnd_keeps (hk := Keeps.refl) ..
  | groupDroop => exact execGroupDroop_keeps (hk := Keeps.refl) ..
  | droopRelease => exact execDroopRelease_keeps (hk := Keeps.refl) ..
  | thermal => exact execThermal_keeps (hk := Keeps.refl) ..
  | thermalRelease => exact execThermalRelease_keeps (hk := Keeps.refl) ..
  | retryWaitEnd => exact execRetryWaitEnd_keeps (hk := Keeps.refl) ..
  | retryCntReset => exact execRetryCntReset_keeps (hk := Keeps.refl) ..
  | reversalBrakeEnd => exact execReversalBrakeEnd_keeps (hk := Keeps.refl) ..
  | uvHold => exact execUvHold_keeps (hk := Keeps.refl) ..
  | uvRelease => exact execUvRelease_keeps (hk := Keeps.refl) ..
  | openOn => exact execOpenOn_keeps (hk := Keeps.refl) ..
  | stuckOff => exact execStuckOff_keeps (hk := Keeps.refl) ..
  | stuckOn => exact execStuckOn_keeps (hk := Keeps.refl) ..
  | bridgeStall => exact execBridgeStall_keeps (hk := Keeps.refl) ..
  | demagEnd => exact execDemagEnd_keeps (hk := Keeps.refl) ..
  | offWindow => exact execOffWindow_keeps (hk := Keeps.refl) ..
  | ripple => exact execRipple_keeps (hk := Keeps.refl) ..
  | pullInDip => exact execPullInDip_keeps (hk := Keeps.refl) ..
  | signatureTimeout => exact execSignatureTimeout_keeps (hk := Keeps.refl) ..
  | tlHold => exact execTlHold_keeps (hk := Keeps.refl) ..
  | tlHoldEnd => exact execTlHoldEnd_keeps (hk := Keeps.refl) ..
  | pairGapEnd => exact execPairGapEnd_keeps (hk := Keeps.refl) ..
  | limpInputChange => exact execLimpInputChange_keeps (hk := Keeps.refl) ..
  | limpDiff => exact execLimpDiff_keeps (hk := Keeps.refl) ..
  | chainEn => exact execChainEn_keeps (hk := Keeps.refl) ..
  | ledLatch => exact execLedLatch_keeps (hk := Keeps.refl) ..
  | lcpEn => exact execLcpEn_keeps (hk := Keeps.refl) ..
  | lcpSubReq => exact execLcpSubReq_keeps (hk := Keeps.refl) ..
  | lcpSubTimeout => exact execLcpSubTimeout_keeps (hk := Keeps.refl) ..
  | pschTick => exact execPschTick_keeps (hk := Keeps.refl) ..
  | eventFire => exact execEventFire_keeps (hk := Keeps.refl) ..
  | wheelExclude => exact execWheelExclude_keeps (hk := Keeps.refl) ..
  | wheelReadmit => exact execWheelReadmit_keeps (hk := Keeps.refl) ..
  | wheelStop => exact execWheelStop_keeps (hk := Keeps.refl) ..
  | yawLost => exact execYawLost_keeps (hk := Keeps.refl) ..
  | zeroRateUpdate => exact execZeroRateUpdate_keeps (hk := Keeps.refl) ..
  | locDr => exact execLocDr_keeps (hk := Keeps.refl) ..
  | delta => exact execDelta_keeps (hk := Keeps.refl) ..
  | setCorr => exact execSetCorr_keeps (hk := Keeps.refl) ..
  | apPost => exact execApPost_keeps (hk := Keeps.refl) ..
  | apClr => exact execApClr_keeps (hk := Keeps.refl) ..
  | eventPost => exact execEventPost_keeps (hk := Keeps.refl) ..
  | eventCancel => exact execEventCancel_keeps (hk := Keeps.refl) ..
  | cancelAp => exact execCancelAp_keeps (hk := Keeps.refl) ..
  | applyWindowEntry => exact execApplyWindowEntry_keeps (hk := Keeps.refl) ..
  | pschEn => exact execPschEn_keeps (hk := Keeps.refl) ..
  | coverageCycle => exact execCoverageCycle_keeps (hk := Keeps.refl) ..
  | cycleOvr => exact execCycleOvr_keeps (hk := Keeps.refl) ..
  | covEn => exact execCovEn_keeps (hk := Keeps.refl) ..
  | fieldOpen => exact execFieldOpen_keeps (hk := Keeps.refl) ..
  | directoryRead => exact execDirectoryRead_keeps (hk := Keeps.refl) ..
  | fieldClose => exact execFieldClose_keeps (hk := Keeps.refl) ..
  | fieldFlush => exact execFieldFlush_keeps (hk := Keeps.refl) ..
  | fieldErase => exact execFieldErase_keeps (hk := Keeps.refl) ..
  | flushComplete => exact execFlushComplete_keeps (hk := Keeps.refl) ..
  | flushLate => exact execFlushLate_keeps (hk := Keeps.refl) ..
  | fill => exact execFill_keeps (hk := Keeps.refl) ..
  | install => exact execInstall_keeps (hk := Keeps.refl) ..
  | writeBackTile => exact execWriteBackTile_keeps (hk := Keeps.refl) ..
  | tmrPost => exact execTmrPost_keeps (hk := Keeps.refl) ..
  | tmrClrCnt => exact execTmrClrCnt_keeps (hk := Keeps.refl) ..
  | tmrClrFlags => exact execTmrClrFlags_keeps (hk := Keeps.refl) ..
  | timerTick => exact execTimerTick_keeps (hk := Keeps.refl) ..
  | filteredEdge => exact execFilteredEdge_keeps (hk := Keeps.refl) ..
  | capLoRead => exact execCapLoRead_keeps (hk := Keeps.refl) ..
  | capHiRead => exact execCapHiRead_keeps (hk := Keeps.refl) ..
  | swinScan => exact execSwinScan_keeps (hk := Keeps.refl) ..
  | adcTrigger => exact execAdcTrigger_keeps (hk := Keeps.refl) ..
  | adcScanComplete => exact execAdcScanComplete_keeps (hk := Keeps.refl) ..
  | fldEn => exact execFldEn_keeps (hk := Keeps.refl) ..
  | barrierPowerUp => exact execBarrierPowerUp_keeps (hk := Keeps.refl) ..
  | downlinkFrame => exact execDownlinkFrame_keeps (hk := Keeps.refl) ..
  | uplinkFrame => exact execUplinkFrame_keeps (hk := Keeps.refl) ..
  | fieldLatch => exact execFieldLatch_keeps (hk := Keeps.refl) ..
  | fldArming => exact execFldArming_keeps (hk := Keeps.refl) ..
  | fldTmo => exact execFldTmo_keeps (hk := Keeps.refl) ..
  | modeMax => exact execModeMax_keeps (hk := Keeps.refl) ..
  | fldResume => exact execFldResume_keeps (hk := Keeps.refl) ..
  | testReq => exact execTestReq_keeps (hk := Keeps.refl) ..
  | testComplete => exact execTestComplete_keeps (hk := Keeps.refl) ..
  | fieldInputSample => exact execFieldInputSample_keeps (hk := Keeps.refl) ..
  | vfieldUndervoltage => exact execVfieldUndervoltage_keeps (hk := Keeps.refl) ..
  | vfieldRelease => exact execVfieldRelease_keeps (hk := Keeps.refl) ..
  | initClear => exact execInitClear_keeps (hk := Keeps.refl) ..
  | initSet => exact execInitSet_keeps (hk := Keeps.refl) ..
  | romSet => exact execRomSet_keeps (hk := Keeps.refl) ..
  | romClear => exact execRomClear_keeps (hk := Keeps.refl) ..
  | recover => exact execRecover_keeps (hk := Keeps.refl) ..
  | integrationComplete => exact execIntegrationComplete_keeps (hk := Keeps.refl) ..
  | recoveryComplete => exact execRecoveryComplete_keeps (hk := Keeps.refl) ..
  | frameReceive => exact execFrameReceive_keeps (hk := Keeps.refl) ..
  | transmitStart => exact execTransmitStart_keeps (hk := Keeps.refl) ..
  | frameSent => exact execFrameSent_keeps (hk := Keeps.refl) ..
  | arbitrationLost => exact execArbitrationLost_keeps (hk := Keeps.refl) ..
  | busError => exact execBusError_keeps (hk := Keeps.refl) ..
  | push => exact execPush_keeps (hk := Keeps.refl) ..
  | urgent => exact execUrgent_keeps (hk := Keeps.refl) ..
  | fifoFlush => exact execFifoFlush_keeps (hk := Keeps.refl) ..
  | urgAbort => exact execUrgAbort_keeps (hk := Keeps.refl) ..
  | mbPost => exact execMbPost_keeps (hk := Keeps.refl) ..
  | rxAck => exact execRxAck_keeps (hk := Keeps.refl) ..
  | referenceSlot => exact execReferenceSlot_keeps (hk := Keeps.refl) ..
  | refMiss => exact execRefMiss_keeps (hk := Keeps.refl) ..
  | txdDominantTimeout => exact execTxdDominantTimeout_keeps (hk := Keeps.refl) ..
  | nmEn => exact execNmEn_keeps (hk := Keeps.refl) ..
  | nmReq => exact execNmReq_keeps (hk := Keeps.refl) ..
  | rallyTimer => exact execRallyTimer_keeps (hk := Keeps.refl) ..
  | networkTimerExpiry => exact execNetworkTimerExpiry_keeps (hk := Keeps.refl) ..
  | prepareSleepExpiry => exact execPrepareSleepExpiry_keeps (hk := Keeps.refl) ..
  | busLeave => exact execBusLeave_keeps (hk := Keeps.refl) ..
  | busWake => exact execBusWake_keeps (hk := Keeps.refl) ..
  | wakeUpFrame => exact execWakeUpFrame_keeps (hk := Keeps.refl) ..
  | falseWake => exact execFalseWake_keeps (hk := Keeps.refl) ..
  | linSlot => exact execLinSlot_keeps (hk := Keeps.refl) ..
  | linFrame => exact execLinFrame_keeps (hk := Keeps.refl) ..
  | linBreak => exact execLinBreak_keeps (hk := Keeps.refl) ..
  | linInactivity => exact execLinInactivity_keeps (hk := Keeps.refl) ..
  | linWake => exact execLinWake_keeps (hk := Keeps.refl) ..
  | wakeRx => exact execWakeRx_keeps (hk := Keeps.refl) ..
  | ethTxPush => exact execEthTxPush_keeps (hk := Keeps.refl) ..
  | ethFrameReceive => exact execEthFrameReceive_keeps (hk := Keeps.refl) ..
  | ethFrameSent => exact execEthFrameSent_keeps (hk := Keeps.refl) ..
  | ethLinkLost => exact execEthLinkLost_keeps (hk := Keeps.refl) ..
  | sentFrame => exact execSentFrame_keeps (hk := Keeps.refl) ..
  | sentSilence => exact execSentSilence_keeps (hk := Keeps.refl) ..
  | uartRxByte => exact execUartRxByte_keeps (hk := Keeps.refl) ..
  | uartRxd => exact execUartRxd_keeps (hk := Keeps.refl) ..
  | uartTxd => exact execUartTxd_keeps (hk := Keeps.refl) ..
  | uartIdle => exact execUartIdle_keeps (hk := Keeps.refl) ..
  | uartPps => exact execUartPps_keeps (hk := Keeps.refl) ..
  | go => exact execGo_keeps (hk := Keeps.refl) ..
  | replySlotEnd => exact execReplySlotEnd_keeps (hk := Keeps.refl) ..
  | keeperVerdict => exact execKeeperVerdict_keeps (hk := Keeps.refl) ..
  | keeperTmo => exact execKeeperTmo_keeps (hk := Keeps.refl) ..
  | lockoutEnd => exact execLockoutEnd_keeps (hk := Keeps.refl) ..
  | lockoutSave => exact execLockoutSave_keeps (hk := Keeps.refl) ..
  | authHoldExpiry => exact execAuthHoldExpiry_keeps (hk := Keeps.refl) ..
  | immoHoldExpiry => exact execImmoHoldExpiry_keeps (hk := Keeps.refl) ..
  | revoke => exact execRevoke_keeps (hk := Keeps.refl) ..
  | touchSuspendEnd => exact execTouchSuspendEnd_keeps (hk := Keeps.refl) ..
  | accEn => exact execAccEn_keeps (hk := Keeps.refl) ..
  | quietExpiry => exact execQuietExpiry_keeps (hk := Keeps.refl) ..
  | recCntForget => exact execRecCntForget_keeps (hk := Keeps.refl) ..
  | safeReq => exact execSafeReq_keeps (hk := Keeps.refl) ..
  | umpRst => exact execUmpRst_keeps (hk := Keeps.refl) ..
  | umpForce => exact execUmpForce_keeps (hk := Keeps.refl) ..
  | floorLevel => exact execFloorLevel_keeps (hk := Keeps.refl) ..
  | selfProtectionTrip => exact execSelfProtectionTrip_keeps (hk := Keeps.refl) ..
  | getIdentity => exact execGetIdentity_keeps (hk := Keeps.refl) ..
  | getRandom => exact execGetRandom_keeps (hk := Keeps.refl) ..
  | tokenEnrol => exact execTokenEnrol_keeps (hk := Keeps.refl) ..
  | tokenRevoke => exact execTokenRevoke_keeps (hk := Keeps.refl) ..
  | confirm => exact execConfirm_keeps (hk := Keeps.refl) ..
  | abandon => exact execAbandon_keeps (hk := Keeps.refl) ..
  | mailboxComplete => exact execMailboxComplete_keeps (hk := Keeps.refl) ..
  | hello => exact execHello_keeps (hk := Keeps.refl) ..
  | attest => exact execAttest_keeps (hk := Keeps.refl) ..
  | serviceGetIdentity => exact execServiceGetIdentity_keeps (hk := Keeps.refl) ..
  | enrolOwner => exact execEnrolOwner_keeps (hk := Keeps.refl) ..
  | transfer => exact execTransfer_keeps (hk := Keeps.refl) ..
  | dlStart => exact execDlStart_keeps (hk := Keeps.refl) ..
  | dlData => exact execDlData_keeps (hk := Keeps.refl) ..
  | verify => exact execVerify_keeps (hk := Keeps.refl) ..
  | verifyComplete => exact execVerifyComplete_keeps (hk := Keeps.refl) ..
  | activate => exact execActivate_keeps (hk := Keeps.refl) ..
  | rollback => exact execRollback_keeps (hk := Keeps.refl) ..
  | serviceConfirm => exact execServiceConfirm_keeps (hk := Keeps.refl) ..
  | keeperReset => exact execKeeperReset_keeps (hk := Keeps.refl) ..
  | dbgNonce => exact execDbgNonce_keeps (hk := Keeps.refl) ..
  | dbgToken => exact execDbgToken_keeps (hk := Keeps.refl) ..
  | portToken => exact execPortToken_keeps (hk := Keeps.refl) ..
  | tokenEnd => exact execTokenEnd_keeps (hk := Keeps.refl) ..
  | sessionTimeout => exact execSessionTimeout_keeps (hk := Keeps.refl) ..
  | trngFailure => exact execTrngFailure_keeps (hk := Keeps.refl) ..
  | entropy => exact execEntropy_keeps (hk := Keeps.refl) ..
  | submit => exact execSubmit_keeps (hk := Keeps.refl) ..
  | claim => exact execClaim_keeps (hk := Keeps.refl) ..
  | done => exact execDone_keeps (hk := Keeps.refl) ..
  | journalCancel => exact execJournalCancel_keeps (hk := Keeps.refl) ..
  | rptAck => exact execRptAck_keeps (hk := Keeps.refl) ..
  | replay => exact execReplay_keeps (hk := Keeps.refl) ..
  | journalDurable => exact execJournalDurable_keeps (hk := Keeps.refl) ..
  | claimHoldExpiry => exact execClaimHoldExpiry_keeps (hk := Keeps.refl) ..
  | ttlExpiry => exact execTtlExpiry_keeps (hk := Keeps.refl) ..
  | journalRecoveryComplete => exact execJournalRecoveryComplete_keeps (hk := Keeps.refl) ..
  | scrubFlash => exact execScrubFlash_keeps (hk := Keeps.refl) ..
  | scrubSram => exact execScrubSram_keeps (hk := Keeps.refl) ..
  | eraseBlock => exact execEraseBlock_keeps (hk := Keeps.refl) ..
  | wearReloc => exact execWearReloc_keeps (hk := Keeps.refl) ..
  | page => exact execPage_keeps (hk := Keeps.refl) ..
  | logCopy => exact execLogCopy_keeps (hk := Keeps.refl) ..
  | telemetry => exact execTelemetry_keeps (hk := Keeps.refl) ..
  | calOn => exact execCalOn_keeps (hk := Keeps.refl) ..
  | diagOff => exact execDiagOff_keeps (hk := Keeps.refl) ..
  | coreTest => exact execCoreTest_keeps (hk := Keeps.refl) ..
  | mntCancel => exact execMntCancel_keeps (hk := Keeps.refl) ..
  | activityExpired => exact execActivityExpired_keeps (hk := Keeps.refl) ..
  | subSeq => exact execSubSeq_keeps (hk := Keeps.refl) ..
  | subTl => exact execSubTl_keeps (hk := Keeps.refl) ..
  | subCal => exact execSubCal_keeps (hk := Keeps.refl) ..
  | segMap => exact execSegMap_keeps (hk := Keeps.refl) ..
  | segUnmap => exact execSegUnmap_keeps (hk := Keeps.refl) ..
  | coreOutCmd => exact execCoreOutCmd_keeps (hk := Keeps.refl) ..
  | coreIn => exact execCoreIn_keeps (hk := Keeps.refl) ..
  | prismReturn => exact execPrismReturn_keeps (hk := Keeps.refl) ..
  | clockMonitorTrip => exact execClockMonitorTrip_keeps (hk := Keeps.refl) ..
  | sourceQualified => exact execSourceQualified_keeps (hk := Keeps.refl) ..
  | lfcalMeasure => exact execLfcalMeasure_keeps (hk := Keeps.refl) ..
  | clockRereport => exact execClockRereport_keeps (hk := Keeps.refl) ..
  | prismGate => exact execPrismGate_keeps (hk := Keeps.refl) ..
  | idleRequest => exact execIdleRequest_keeps (hk := Keeps.refl) ..
  | sleepRequest => exact execSleepRequest_keeps (hk := Keeps.refl) ..
  | deepRequest => exact execDeepRequest_keeps (hk := Keeps.refl) ..
  | offRequest => exact execOffRequest_keeps (hk := Keeps.refl) ..
  | entryTmo => exact execEntryTmo_keeps (hk := Keeps.refl) ..
  | targetStateReached => exact execTargetStateReached_keeps (hk := Keeps.refl) ..
  | wake => exact execWake_keeps (hk := Keeps.refl) ..
  | wakeInput => exact execWakeInput_keeps (hk := Keeps.refl) ..
  | alarm => exact execAlarm_keeps (hk := Keeps.refl) ..
  | idleFrames => exact execIdleFrames_keeps (hk := Keeps.refl) ..
  | pwrWakeSrcRead => exact execPwrWakeSrcRead_keeps (hk := Keeps.refl) ..
  | machReq => exact execMachReq_keeps (hk := Keeps.refl) ..
  | undef => exact execUndef_keeps (hk := Keeps.refl) ..
  | frameLockOfsWrite => exact execFrameLockOfsWrite_keeps (hk := Keeps.refl) ..
  | mntRequest => exact execMntRequest_keeps (hk := Keeps.refl) ..
  | loRegisterRead => exact execLoRegisterRead_keeps (hk := Keeps.refl) ..
  | debugPortInstruction => exact execDebugPortInstruction_keeps (hk := Keeps.refl) ..
  | parityError => exact execParityError_keeps (hk := Keeps.refl) ..
  | logicHot => exact execLogicHot_keeps (hk := Keeps.refl) ..
  | logicTsd => exact execLogicTsd_keeps (hk := Keeps.refl) ..
  | regFault => exact execRegFault_keeps (hk := Keeps.refl) ..
  | pkgLoad => exact execPkgLoad_keeps (hk := Keeps.refl) ..
  | dieHealth => exact execDieHealth_keeps (hk := Keeps.refl) ..
  | vfieldOv => exact execVfieldOv_keeps (hk := Keeps.refl) ..
  | barrierSupplyFault => exact execBarrierSupplyFault_keeps (hk := Keeps.refl) ..
  | fldHealth => exact execFldHealth_keeps (hk := Keeps.refl) ..
  | accHealth => exact execAccHealth_keeps (hk := Keeps.refl) ..
  | accLink => exact execAccLink_keeps (hk := Keeps.refl) ..
  | lfDrv => exact execLfDrv_keeps (hk := Keeps.refl) ..
  | uhfSynthesiserUnlock => exact execUhfSynthesiserUnlock_keeps (hk := Keeps.refl) ..
  | electrodeShort => exact execElectrodeShort_keeps (hk := Keeps.refl) ..
  | transceiverOverTemperature => exact execTransceiverOverTemperature_keeps (hk := Keeps.refl) ..
  | linDominantTimeout => exact execLinDominantTimeout_keeps (hk := Keeps.refl) ..
  | ethLinkUp => exact execEthLinkUp_keeps (hk := Keeps.refl) ..
  | trngResume => exact execTrngResume_keeps (hk := Keeps.refl) ..
  | lfDriveSupply => exact execLfDriveSupply_keeps (hk := Keeps.refl) ..
  | busIdle => exact execBusIdle_keeps (hk := Keeps.refl) ..

theorem step_nil (s : State) (h : s.pending = []) : step s = .next s := by
  unfold step
  rw [h]

theorem step_cons (s : State) (c : Instr) (l : List Instr) (h : s.pending = c :: l) :
    step s = exec c { s with pending := l } := by
  unfold step
  rw [h]

end Sys2Proof.Machine
end

