-- ==== Sys2Proof/Laws/Frames.lean ====
section
/-!
SUPPORT. Sys2Proof/Laws/Frames.lean: what the end of a data instruction leaves alone, in the shape the frame statements use; what a write of
bytes and a write of a control register do to everything else.
-/
namespace Sys2Proof.Machine
-- the small lemmas of this file one after another, each without a thread of its own
set_option Elab.async false

/-! ### Data instructions -/

theorem dataOp_ready {c gd n : Nat} {f : State → Alu} {s : State} (h : s.coreReady c = true) : dataOp c gd n f s = .next (advance c n ((s.begun c).result c gd (f (s.begun c)))) := xob_ready h rfl

theorem advance_result {o : Host.Outcome State Fault Refusal} {s : State} {k d n : Nat} {x : Alu}
    (e : o = .next (advance k n ((s.begun k).result k d x))) (c v : Bool) (hc : c = true → x.c = none) (hv : v = true → x.v = none) :
    ∃ u, o = .next (deliver k u) ∧ OnlyCore k s u ∧ CoreKept k d s u ∧
      (false = true → (u.bank k).fl.n = (s.bank k).fl.n ∧ (u.bank k).fl.z = (s.bank k).fl.z) ∧
      (c = true → (u.bank k).fl.c = (s.bank k).fl.c) ∧ (v = true → (u.bank k).fl.v = (s.bank k).fl.v) := by
  obtain ⟨u, hu, ho, hk, hf, -⟩ := advance_frame (c := k) (d := d) (s := (s.begun k).result k d x) n
  refine ⟨u, by rw [e, hu], (State.begun_only.trans (State.result_only _ _)).trans ho,
    (State.begun_kept.trans (State.result_kept _)).trans hk, fun q => (by cases q), fun q => ?_, fun q => ?_⟩ <;>
    rw [hf, State.result_fl, State.begun_bank]
  · simp [Alu.flags, hc q]
  · simp [Alu.flags, hv q]

theorem advance_kept {o : Host.Outcome State Fault Refusal} {s t : State} {k d n : Nat}
    (e : o = .next (advance k n t)) (h1 : OnlyCore k s t) (h2 : CoreKept k d s t) (h3 : (t.bank k).fl = (s.bank k).fl) :
    ∃ u, o = .next (deliver k u) ∧ OnlyCore k s u ∧ CoreKept k d s u ∧
      (true = true → (u.bank k).fl.n = (s.bank k).fl.n ∧ (u.bank k).fl.z = (s.bank k).fl.z) ∧
      (true = true → (u.bank k).fl.c = (s.bank k).fl.c) ∧ (true = true → (u.bank k).fl.v = (s.bank k).fl.v) := by
  obtain ⟨u, hu, ho, hk, hf, -⟩ := advance_frame (c := k) (d := d) (s := t) n
  refine ⟨u, by rw [e, hu], h1.trans ho, h2.trans hk, ?_⟩
  rw [hf, h3]
  simp

/-! ### Bytes of memory -/

theorem State.byte_setBytes_in (s : State) (k j : Nat) (l : List Byte) (h : j < l.length) : (s.setBytes k l).byte (k + j) = l.getD j 0 := by
  induction l generalizing s k j with
  | nil => simp at h
  | cons b l ih =>
    rw [State.setBytes]
    cases j with
    | zero => rw [State.byte_setBytes_out _ _ _ _ (by omega)]; simp [State.byte_setByte]
    | succ j => 
      have := ih (s := s.setByte k b) (k := k + 1) (j := j) (by simpa using h)
      rw [show k + (j + 1) = k + 1 + j by omega, this]; simp

theorem State.setBytes_eq (s : State) (k : Nat) (l : List Byte) : { s.setBytes k l with mem := s.mem } = s := by
  induction l generalizing s k with
  | nil => rfl
  | cons b l ih => rw [State.setBytes]; have := ih (s.setByte k b) (k + 1); exact congrArg (fun t : State => { t with mem := s.mem }) this

theorem State.setBytes_congr (s t : State) (k : Nat) (l : List Byte) (h : s.mem = t.mem) : (s.setBytes k l).mem = (t.setBytes k l).mem := by
  induction l generalizing s t k with
  | nil => exact h
  | cons b l ih => exact ih _ _ _ (by simp only [State.setByte, h])

theorem State.setBytes_cores (s : State) (k : Nat) (l : List Byte) : (s.setBytes k l).cores = s.cores := by
  induction l generalizing s k with
  | nil => rfl
  | cons b l ih => exact ih _ _
theorem State.setBytes_frame (s : State) (k : Nat) (l : List Byte) : (s.setBytes k l).frame = s.frame := by
  induction l generalizing s k with
  | nil => rfl
  | cons b l ih => exact ih _ _

/-! ### Control registers -/

theorem CoreKept.ctrl {c d : Nat} {t u : State} (h : CoreKept c d t u) (hf : (u.bank c).fl = (t.bank c).fl) (k : Nat) (h14 : k ≠ 14) (h15 : k ≠ 15)
    (h22 : ¬(22 ≤ k ∧ k ≤ 24)) : u.ctrl c k = t.ctrl c k := by
  unfold State.ctrl
  dsimp only
  rw [hf, h.psr, h.tMode, h.ls, h.le]
  split_ifs
  all_goals try rfl
  all_goals try (exfalso; omega)
  unfold Core.sysReg
  split
  all_goals try (first | exact h.epc | exact h.ecause | exact h.eaddr | exact h.epsr | exact h.escr | exact h.svec | exact h.imask | exact h.tcause | exact h.tepc | exact h.teaddr)
  · rw [h.ipend]
  · exact absurd rfl h14
  · exact absurd rfl h15
  · rw [h.mpu.1, h.mpu.2.1, h.mpu.2.2]

theorem Core.setSysReg_bank (k : Core) (n : Nat) (w : Word) : (k.setSysReg n w).pass = k.pass ∧ (k.setSysReg n w).tBank = k.tBank ∧ (k.setSysReg n w).sBank = k.sBank := by
  unfold Core.setSysReg
  split <;> try exact ⟨rfl, rfl, rfl⟩
  split_ifs <;> exact ⟨rfl, rfl, rfl⟩

theorem Core.sysReg_setSysReg_ne (k : Core) (n j : Nat) (w : Word) (h : j ≠ n) (hj : j ≠ 1) : (k.setSysReg n w).sysReg j = k.sysReg j := by
  have hgs : ∀ (m : Tab Word) (k j : Nat) (v : Word), tget 0 (tset 0 m k v) j = if j = k then v else tget 0 m j :=
    fun m k j v => Tab.get_set _ _ _ _ _
  have e1 : 32 ≤ n → 32 ≤ j → j - 32 ≠ n - 32 := by omega
  have e2 : 48 ≤ n → 48 ≤ j → j - 48 ≠ n - 48 := by omega
  have e3 : 64 ≤ n → 64 ≤ j → j - 64 ≠ n - 64 := by omega
  unfold Core.setSysReg
  split <;> try (unfold Core.sysReg; split <;> first | rfl | exact absurd rfl h | exact absurd rfl hj)
  split_ifs
  · unfold Core.sysReg
    split <;> try rfl
    dsimp only
    rw [hgs]
    by_cases hj' : 32 ≤ j ∧ j < 48
    · rw [if_neg (e1 (by assumption : 32 ≤ n ∧ n < 48).1 hj'.1)]
    · rw [if_neg hj', if_neg hj']
  · unfold Core.sysReg
    split <;> try rfl
    dsimp only
    rw [hgs]
    by_cases hj' : 48 ≤ j ∧ j < 64
    · rw [if_neg (e2 (by assumption : 48 ≤ n ∧ n < 64).1 hj'.1)]
    · rw [if_neg hj', if_neg hj']
  · unfold Core.sysReg
    split <;> try rfl
    dsimp only
    rw [hgs]
    by_cases hj' : 64 ≤ j ∧ j < 80
    · rw [if_neg (e3 (by assumption : 64 ≤ n ∧ n < 80).1 hj'.1)]
    · rw [if_neg hj', if_neg hj']
  · rfl

theorem Core.psr_setSysReg (k : Core) (n : Nat) (w : Word) (h : n ≠ 1) : (k.setSysReg n w).psr = k.psr := by
  unfold Core.setSysReg
  split <;> try rfl
  · exact absurd rfl h
  · split_ifs <;> rfl

theorem State.setCtrl_kept {c : Nat} (s : State) (n : Nat) (w : Word) : (s.setCtrl c n w).tMode c = s.tMode c ∧ (s.setCtrl c n w).mirror c = s.mirror c ∧
    ((s.setCtrl c n w).bank c).g = (s.bank c).g := by
  unfold State.setCtrl
  dsimp only
  split_ifs
  all_goals try (refine ⟨by simp, by simp, by simp⟩)
  have := Core.setSysReg_bank (s.core c) n w
  refine ⟨by simp [State.tMode, this], by simp [State.mirror, this], ?_⟩
  simp only [State.bank, State.tMode, State.core_setCore, this]
  rfl


theorem State.setBank_sysReg {c : Nat} (s : State) (b : Bank) : (((s.setBank c b).core c).psr = (s.core c).psr) ∧ ∀ j, ((s.setBank c b).core c).sysReg j = (s.core c).sysReg j := by
  cases q : s.tMode c <;> simp only [State.setBank, q, State.core_setCore] <;> refine ⟨rfl, fun j => ?_⟩ <;> unfold Core.sysReg <;> split <;> rfl

theorem State.ctrl_setBank {c : Nat} (s : State) (b : Bank) (j : Nat) : (s.setBank c b).ctrl c j =
  (if j = 0 then b.fl.word
  else if j = 1 then (s.core c).psr ||| (if s.tMode c then 1 else 0)
  else if j = 8 then BitVec.ofNat 32 c
  else if 16 ≤ j ∧ j < 19 then tget 0 b.ls (j - 16)
  else if 19 ≤ j ∧ j < 22 then tget 0 b.le (j - 19)
  else if 22 ≤ j ∧ j < 25 then tget 0 b.lc (j - 22)
  else (s.core c).sysReg j) := by
  unfold State.ctrl
  dsimp only
  rw [State.bank_setBank, State.tMode_setBank, (State.setBank_sysReg s b).1, (State.setBank_sysReg s b).2]

theorem State.ctrl_setCtrl_ne {c : Nat} (s : State) (n j : Nat) (w : Word) (h : j ≠ n) : (s.setCtrl c n w).ctrl c j = s.ctrl c j := by
  have hgs : ∀ (m : Tab Word) (k j : Nat) (v : Word), tget 0 (tset 0 m k v) j = if j = k then v else tget 0 m j := fun m k j v => Tab.get_set _ _ _ _ _
  unfold State.setCtrl
  dsimp only
  split_ifs with a1 a2 a3 a4
  · rw [State.ctrl_setBank, if_neg (by omega)]; unfold State.ctrl; dsimp only; rw [if_neg (by omega : ¬ j = 0)]
  · rw [State.ctrl_setBank]; unfold State.ctrl; dsimp only; split_ifs <;> first | rfl | (rw [hgs, if_neg (by omega)])
  · rw [State.ctrl_setBank]; unfold State.ctrl; dsimp only; split_ifs <;> first | rfl | (rw [hgs, if_neg (by omega)])
  · rw [State.ctrl_setBank]; unfold State.ctrl; dsimp only; split_ifs <;> first | rfl | (rw [hgs, if_neg (by omega)])
  · have hp := Core.setSysReg_bank (s.core c) n w
    have hb : (s.setCore c ((s.core c).setSysReg n w)).bank c = s.bank c := by simp only [State.bank, State.tMode, State.core_setCore, hp]; rfl
    have ht : (s.setCore c ((s.core c).setSysReg n w)).tMode c = s.tMode c := by simp only [State.tMode, State.core_setCore, hp]
    unfold State.ctrl; dsimp only
    rw [hb, ht, State.core_setCore]
    split_ifs <;> try rfl
    · rw [Core.psr_setSysReg _ _ _ (by omega)]
    · rw [Core.psr_setSysReg _ _ _ (by omega)]
    · rw [Core.sysReg_setSysReg_ne _ _ _ _ h (by omega)]

theorem State.ctrl_setCtrl_sys {c : Nat} (s : State) (n : Nat) (w : Word) (h : n ≠ 0) (h2 : ¬(16 ≤ n ∧ n < 25)) (h3 : n ≠ 1) (h8 : n ≠ 8) :
    (s.setCtrl c n w).ctrl c n = ((s.core c).setSysReg n w).sysReg n := by
  rw [show s.setCtrl c n w = s.setCore c ((s.core c).setSysReg n w) by
    unfold State.setCtrl; dsimp only; rw [if_neg h, if_neg (by omega), if_neg (by omega), if_neg (by omega)]]
  unfold State.ctrl
  dsimp only
  rw [if_neg h, if_neg h3, if_neg h8, if_neg (by omega), if_neg (by omega), if_neg (by omega), State.core_setCore]

end Sys2Proof.Machine
end

