-- ==== Sys2Proof/Laws/Rows.lean ====
section
/-!
SUPPORT. Sys2Proof/Laws/Rows.lean: what the operations that several commands share answer when their conditions hold: a service request
within its session, an operation of the journal, the end of a maintenance activity.
-/
namespace Sys2Proof.Machine
-- the small lemmas of this file one after another, each without a thread of its own
set_option Elab.async false

theorem serve_heard {op tool seq t : Nat} {f : State → State} {s : State} {x : Session} (h : (s.at t).svcHears = true)
    (hs : (s.at t).session = some x) (ht : x.tool = tool) :
    serve op tool seq t f s = .next (f ((s.at t).setKeeper { s.keeper with session := some { x with heard := max s.now t } })) := by
  simp [serve, h, hs, ht]

theorem jTake_ready {q i seq : Nat} {f : State → State} {s : State} (ha : s.alive = true) (he : s.on JRNL_CTL_EN = true)
    (hf : s.on JRNL_STAT_FENCED = false) (hr : s.on JRNL_STAT_READY = true) (hq : s.jrnl.queue.length < 64) :
    jTake q i seq f s = f s := by
  simp [jTake, ha, he, hf, hr, Nat.not_le.mpr hq]

theorem actStep_finish {kind unit : Nat} {ok canMove : Bool} {onStart : State → State} {onEnd : Bool → State → State} {s : State} {k : Nat}
    (h : s.runningSlot kind unit = some k) (hc : s.clocks = true) :
    actStep kind unit (.finish ok) canMove onStart onEnd s = .next (subTryStart (mntEnd k ok (onEnd ok s))) := by
  simp [actStep, h, hc]

end Sys2Proof.Machine
end

