-- ==== Sys2Proof/WellFormed.lean ====
section
/-!
DEFINITION. Sys2Proof/WellFormed.lean: what the device can be sent (R5, R14, R638 and the tables of the blocks): operands that a word, a
frame or the time base can carry. `exec` is total and does not ask for it.
-/
namespace Sys2Proof

/-- An instant that the 64-bit time base can show (R638). -/
def instantOk (t : Nat) : Bool := decide (t < 2 ^ 64)

/-- A word address of the peripheral space or of the keeper mailbox (R14, R29). -/
def regOk (a : Nat) : Bool :=
  a % 4 == 0 && decide (0x60000000 ≤ a) && (decide (a < 0x60180000) || (decide (0x70000000 ≤ a) && decide (a < 0x70010000)))

/-- A number that 32 bits, signed, can hold. -/
def signed32 (x : Int) : Bool := decide (-(2 ^ 31) ≤ x) && decide (x < 2 ^ 31)

/-- The S-mode writes of a start are word writes; it measures at most three images (R583). -/
def planOk (p : BootPlan) : Bool :=
  p.setup.all (fun e => e.1 % 4 == 0 && decide (e.1 < 2 ^ 32)) && decide (p.measures.length ≤ 3)

/-- A debugger writes whole words (R111). -/
def targetOk : DbgTarget → Bool
  | .reg _ => true
  | .mem a => a % 4 == 0 && decide (a < 2 ^ 32)

/-- The data bytes that a DLC stands for (R457). -/
def dlcBytes (fdf : Bool) (dlc : Nat) : Nat :=
  if dlc ≤ 8 then dlc
  else if !fdf then 8
  else [12, 16, 20, 24, 32, 48, 64].getD (dlc - 9) 64

/-- A frame has the data its DLC names, none for a remote frame, and began no later than it ended. -/
def busFrameOk (f : BusFrame) (t : Nat) : Bool :=
  f.data.length == (if f.rtr then 0 else dlcBytes f.fdf f.dlc.toNat) && decide (f.sof ≤ t) && !(f.rtr && f.fdf)

/-- Measured quantities name existing channels, groups and dies. -/
def measuresOk (m : Measures) : Bool :=
  m.chans.all (fun e => decide (e.1 < 152)) && m.groups.all (fun e => decide (e.1 < 8)) && m.dies.all (fun e => decide (e.1 < 4))

/-- One of the seven domains (R621). -/
def monitorOk : ClockMon → Bool
  | .domain d => decide (d < 7)
  | _ => true

/-- The fields of a debug token fit their places (R584). -/
def tokenOk (k : DebugToken) : Bool :=
  decide (k.machine < 2 ^ 32) && decide (k.nonce < 2 ^ 64) && decide (k.epoch < 2 ^ 32) && decide (k.perms < 2 ^ 16) &&
    decide (k.life < 2 ^ 16)

/-- The command can be sent. -/
def Instr.wf : Instr → Bool
  | .powerUp => true
  | .resetNRelease plan => planOk plan
  | .resetNAssert t => instantOk t
  | .firstFrameTimeout t => instantOk t
  | .brownout _ t plan => instantOk t && planOk plan
  | .vbatUv _ t => instantOk t
  | .vbatOv _ t => instantOk t
  | .flashSuspendUv _ t => instantOk t
  | .flashResumeUv _ t => instantOk t
  | .groupWire _ _ _ _ t => instantOk t
  | .ignOkRise t => instantOk t
  | .ignOkFall t => instantOk t
  | .gateLineFall _ t => instantOk t
  | .gateLineRise _ t => instantOk t
  | .registerWrite a _ t => instantOk t && regOk a
  | .frameTick t m => instantOk t && measuresOk m
  | .cut t => instantOk t
  | .commit t => instantOk t
  | .commitDeadline t => instantOk t
  | .maintenanceSliceEnd t => instantOk t
  | .run => true
  | .frameLenWrite _ => true
  | .frameMarginWrite _ => true
  | .frameCutresWrite _ => true
  | .frameLockWrite _ => true
  | .lockReference t edge => instantOk t && edge.all (fun x => decide (x ≤ t))
  | .referenceMissing t => instantOk t
  | .lockFail t => instantOk t
  | .ttPost _ => true
  | .modeReq _ => true
  | .halt t => instantOk t
  | .debugResume t => instantOk t
  | .breakpoint _ _ t => instantOk t
  | .debuggerWrite _ target _ t => instantOk t && targetOk target
  | .interrupt _ => true
  | .add _ _ _ _ => true
  | .sub _ _ _ _ => true
  | .adc _ _ _ _ => true
  | .sbc _ _ _ _ => true
  | .andR _ _ _ _ => true
  | .orR _ _ _ _ => true
  | .xorR _ _ _ _ => true
  | .andn _ _ _ _ => true
  | .orn _ _ _ _ => true
  | .xnor _ _ _ _ => true
  | .cmp _ _ _ => true
  | .tst _ _ _ => true
  | .sel _ _ _ _ _ => true
  | .lsl _ _ _ _ => true
  | .lsr _ _ _ _ => true
  | .asr _ _ _ _ => true
  | .ror _ _ _ _ => true
  | .lsli _ _ _ _ => true
  | .lsri _ _ _ _ => true
  | .asri _ _ _ _ => true
  | .rori _ _ _ _ => true
  | .mul _ _ _ _ => true
  | .mulhs _ _ _ _ => true
  | .mulhu _ _ _ _ => true
  | .divs _ _ _ _ _ => true
  | .divu _ _ _ _ _ => true
  | .rems _ _ _ _ _ => true
  | .remu _ _ _ _ _ => true
  | .clz _ _ _ => true
  | .bfx _ _ _ _ _ => true
  | .bfxs _ _ _ _ _ => true
  | .bfi _ _ _ _ _ => true
  | .perm _ _ _ _ => true
  | .addi _ _ _ _ => true
  | .andi _ _ _ _ => true
  | .ori _ _ _ _ => true
  | .xori _ _ _ _ => true
  | .cmpi _ _ _ => true
  | .tsti _ _ _ => true
  | .movhi _ _ _ => true
  | .lw _ _ _ _ => true
  | .lh _ _ _ _ => true
  | .lhu _ _ _ _ => true
  | .lb _ _ _ _ => true
  | .lbu _ _ _ _ => true
  | .sw _ _ _ _ => true
  | .sh _ _ _ _ => true
  | .sb _ _ _ _ => true
  | .agree _ _ _ _ => true
  | .br _ _ _ => true
  | .bl _ _ => true
  | .jr _ _ => true
  | .jalr _ _ _ => true
  | .loopR _ _ _ _ => true
  | .loopi _ _ _ _ => true
  | .nop _ => true
  | .mfc _ _ _ => true
  | .mtc _ _ _ => true
  | .trap _ _ => true
  | .sync _ => true
  | .eret _ => true
  | .wfi _ => true
  | .chtPost _ => true
  | .therm _ => true
  | .latchClr _ => true
  | .fltClr _ => true
  | .bstop _ => true
  | .resume _ => true
  | .chainLatch t _ _ _ => instantOk t
  | .configurationFrame t _ _ block data _ => instantOk t && decide (block < 68) && data.length == 16
  | .liveAdvance t => instantOk t
  | .liveStall t => instantOk t
  | .serialWatchdogExpiry _ t => instantOk t
  | .dieLogicReset _ t => instantOk t
  | .short _ t => instantOk t
  | .overcur _ t _ _ _ => instantOk t
  | .inrushWindowEnd _ t => instantOk t
  | .groupDroop _ t => instantOk t
  | .droopRelease _ t => instantOk t
  | .thermal _ t _ => instantOk t
  | .thermalRelease _ t _ => instantOk t
  | .retryWaitEnd _ t => instantOk t
  | .retryCntReset _ t => instantOk t
  | .reversalBrakeEnd _ t => instantOk t
  | .uvHold _ t => instantOk t
  | .uvRelease _ t => instantOk t
  | .openOn _ t _ => instantOk t
  | .stuckOff _ t _ => instantOk t
  | .stuckOn _ t _ => instantOk t
  | .bridgeStall _ t => instantOk t
  | .demagEnd _ t _ => instantOk t
  | .offWindow _ t _ _ => instantOk t
  | .ripple _ t => instantOk t
  | .pullInDip _ t => instantOk t
  | .signatureTimeout _ _ t => instantOk t
  | .tlHold _ t _ => instantOk t
  | .tlHoldEnd _ t _ => instantOk t
  | .pairGapEnd _ t => instantOk t
  | .limpInputChange _ _ _ t => instantOk t
  | .limpDiff _ t => instantOk t
  | .chainEn => true
  | .ledLatch _ t _ _ codes => instantOk t && decide (codes.length ≤ 16)
  | .lcpEn _ => true
  | .lcpSubReq _ _ _ t => instantOk t
  | .lcpSubTimeout _ t => instantOk t
  | .pschTick t => instantOk t
  | .eventFire t => instantOk t
  | .wheelExclude _ t => instantOk t
  | .wheelReadmit _ t => instantOk t
  | .wheelStop _ t => instantOk t
  | .yawLost t => instantOk t
  | .zeroRateUpdate t code => instantOk t && decide (code < 2 ^ 16)
  | .locDr t => instantOk t
  | .delta e n _ u _ _ => signed32 e && signed32 n && decide (u < 2 ^ 16)
  | .setCorr e n _ u => signed32 e && signed32 n && decide (u < 2 ^ 16)
  | .apPost _ => true
  | .apClr _ => true
  | .eventPost _ _ _ _ _ => true
  | .eventCancel _ => true
  | .cancelAp _ => true
  | .applyWindowEntry t => instantOk t
  | .pschEn => true
  | .coverageCycle t _ => instantOk t
  | .cycleOvr t => instantOk t
  | .covEn => true
  | .fieldOpen _ => true
  | .directoryRead t => instantOk t
  | .fieldClose t => instantOk t
  | .fieldFlush t => instantOk t
  | .fieldErase _ => true
  | .flushComplete t => instantOk t
  | .flushLate t => instantOk t
  | .fill _ _ => true
  | .install _ => true
  | .writeBackTile _ t _ => instantOk t
  | .tmrPost _ => true
  | .tmrClrCnt _ t => instantOk t
  | .tmrClrFlags _ => true
  | .timerTick _ t => instantOk t
  | .filteredEdge _ t _ _ => instantOk t
  | .capLoRead _ t => instantOk t
  | .capHiRead _ t => instantOk t
  | .swinScan t _ _ => instantOk t
  | .adcTrigger t => instantOk t
  | .adcScanComplete t codes _ => instantOk t && codes.length == 16
  | .fldEn => true
  | .barrierPowerUp t => instantOk t
  | .downlinkFrame t _ _ => instantOk t
  | .uplinkFrame t _ _ _ _ _ _ => instantOk t
  | .fieldLatch t _ => instantOk t
  | .fldArming t _ => instantOk t
  | .fldTmo t => instantOk t
  | .modeMax t => instantOk t
  | .fldResume => true
  | .testReq _ t => instantOk t
  | .testComplete t _ _ _ _ => instantOk t
  | .fieldInputSample t _ => instantOk t
  | .vfieldUndervoltage t => instantOk t
  | .vfieldRelease t => instantOk t
  | .initClear _ => true
  | .initSet _ => true
  | .romSet _ => true
  | .romClear _ => true
  | .recover _ => true
  | .integrationComplete _ t => instantOk t
  | .recoveryComplete _ t => instantOk t
  | .frameReceive _ t f => instantOk t && busFrameOk f t
  | .transmitStart _ t => instantOk t
  | .frameSent _ t _ => instantOk t
  | .arbitrationLost _ t _ => instantOk t
  | .busError _ t _ _ _ _ => instantOk t
  | .push _ => true
  | .urgent _ => true
  | .fifoFlush _ => true
  | .urgAbort _ => true
  | .mbPost _ _ => true
  | .rxAck _ _ => true
  | .referenceSlot _ t => instantOk t
  | .refMiss _ t => instantOk t
  | .txdDominantTimeout _ t => instantOk t
  | .nmEn _ _ t => instantOk t
  | .nmReq _ _ t => instantOk t
  | .rallyTimer _ t => instantOk t
  | .networkTimerExpiry _ t => instantOk t
  | .prepareSleepExpiry _ t => instantOk t
  | .busLeave _ t => instantOk t
  | .busWake _ _ t => instantOk t
  | .wakeUpFrame _ t _ f => instantOk t && busFrameOk f t
  | .falseWake _ t => instantOk t
  | .linSlot _ t => instantOk t
  | .linFrame _ t _ data => instantOk t && decide (data.length ≤ 8)
  | .linBreak _ t _ _ _ _ => instantOk t
  | .linInactivity _ t => instantOk t
  | .linWake _ t => instantOk t
  | .wakeRx _ t _ => instantOk t
  | .ethTxPush _ => true
  | .ethFrameReceive _ t ts bytes => instantOk t && decide (14 ≤ bytes.length) && decide (ts ≤ t)
  | .ethFrameSent _ t ts => instantOk t && decide (ts ≤ t)
  | .ethLinkLost _ t => instantOk t
  | .sentFrame _ t _ _ nibs _ _ => instantOk t && decide (1 ≤ nibs.length) && decide (nibs.length ≤ 16)
  | .sentSilence _ t => instantOk t
  | .uartRxByte _ t _ _ _ => instantOk t
  | .uartRxd _ => true
  | .uartTxd _ _ _ t => instantOk t
  | .uartIdle _ t => instantOk t
  | .uartPps _ t => instantOk t
  | .touch _ t over' => instantOk t && over'.length == 4
  | .go _ t => instantOk t
  | .replySlotEnd t _ => instantOk t
  | .keeperVerdict t => instantOk t
  | .keeperTmo t => instantOk t
  | .lockoutEnd t => instantOk t
  | .lockoutSave t => instantOk t
  | .authHoldExpiry t => instantOk t
  | .immoHoldExpiry t => instantOk t
  | .revoke => true
  | .touchSuspendEnd _ t => instantOk t
  | .accEn => true
  | .quietExpiry _ t => instantOk t
  | .recCntForget _ t => instantOk t
  | .safeReq => true
  | .umpRst _ _ t plan => instantOk t && planOk plan
  | .umpForce _ => true
  | .floorLevel _ => true
  | .selfProtectionTrip _ => true
  | .getIdentity t => instantOk t
  | .getRandom t _ => instantOk t
  | .tokenEnrol t _ _ _ _ _ _ => instantOk t
  | .tokenRevoke t _ _ _ _ => instantOk t
  | .confirm t => instantOk t
  | .abandon t => instantOk t
  | .mailboxComplete t _ _ => instantOk t
  | .hello _ _ t => instantOk t
  | .attest _ _ t _ => instantOk t
  | .serviceGetIdentity _ _ t => instantOk t
  | .enrolOwner _ _ t _ _ => instantOk t
  | .transfer _ _ t _ _ _ _ => instantOk t
  | .dlStart _ _ t _ => instantOk t
  | .dlData _ _ t _ data => instantOk t && decide (data.length ≤ 56)
  | .verify _ _ t => instantOk t
  | .verifyComplete t _ _ _ => instantOk t
  | .activate _ _ t => instantOk t
  | .rollback _ _ t => instantOk t
  | .serviceConfirm _ _ t => instantOk t
  | .keeperReset t plan => instantOk t && planOk plan
  | .dbgNonce _ _ t => instantOk t
  | .dbgToken _ _ t tok => instantOk t && tokenOk tok
  | .portToken t tok => instantOk t && tokenOk tok
  | .tokenEnd t => instantOk t
  | .sessionTimeout t => instantOk t
  | .trngFailure t => instantOk t
  | .entropy t => instantOk t
  | .submit t => instantOk t
  | .claim _ _ t => instantOk t
  | .done _ _ _ t => instantOk t
  | .journalCancel _ t => instantOk t
  | .rptAck _ t => instantOk t
  | .replay _ t => instantOk t
  | .journalDurable t => instantOk t
  | .claimHoldExpiry _ t => instantOk t
  | .ttlExpiry _ t => instantOk t
  | .journalRecoveryComplete t bad => instantOk t && bad.all (fun i => decide (64 ≤ i) && decide (i < 49152))
  | .scrubFlash _ t _ corr _ => instantOk t && corr.all (fun e => decide (e.1 < 7680))
  | .scrubSram _ t _ _ => instantOk t
  | .eraseBlock _ t _ => instantOk t
  | .wearReloc _ t _ => instantOk t
  | .page _ _ _ t _ => instantOk t
  | .logCopy t _ => instantOk t
  | .telemetry t _ => instantOk t
  | .calOn _ t _ _ _ => instantOk t
  | .diagOff _ t _ _ _ => instantOk t
  | .coreTest _ t _ => instantOk t
  | .mntCancel _ t => instantOk t
  | .activityExpired _ t => instantOk t
  | .subSeq _ t => instantOk t
  | .subTl t => instantOk t
  | .subCal t => instantOk t
  | .segMap _ t => instantOk t
  | .segUnmap _ t => instantOk t
  | .coreOutCmd _ t => instantOk t
  | .coreIn _ t => instantOk t
  | .prismReturn t => instantOk t
  | .clockMonitorTrip m t => instantOk t && monitorOk m
  | .sourceQualified _ t => instantOk t
  | .lfcalMeasure t _ => instantOk t
  | .clockRereport _ t => instantOk t
  | .prismGate _ => true
  | .idleRequest t => instantOk t
  | .sleepRequest t => instantOk t
  | .deepRequest t => instantOk t
  | .offRequest t => instantOk t
  | .entryTmo t => instantOk t
  | .targetStateReached t plan => instantOk t && planOk plan
  | .wake _ t plan => instantOk t && planOk plan
  | .wakeInput _ t => instantOk t
  | .alarm t plan => instantOk t && planOk plan
  | .idleFrames t => instantOk t
  | .pwrWakeSrcRead => true
  | .machReq _ => true
  | .undef _ _ => true
  | .frameLockOfsWrite _ => true
  | .mntRequest _ _ t => instantOk t
  | .loRegisterRead a t => instantOk t && regOk a
  | .debugPortInstruction _ => true
  | .parityError _ t => instantOk t
  | .logicHot _ t => instantOk t
  | .logicTsd _ t => instantOk t
  | .regFault t => instantOk t
  | .pkgLoad _ _ t => instantOk t
  | .dieHealth _ t _ => instantOk t
  | .vfieldOv t => instantOk t
  | .barrierSupplyFault t => instantOk t
  | .fldHealth t _ => instantOk t
  | .accHealth _ t => instantOk t
  | .accLink t => instantOk t
  | .lfDrv _ _ _ t => instantOk t
  | .uhfSynthesiserUnlock t => instantOk t
  | .electrodeShort _ t => instantOk t
  | .transceiverOverTemperature _ t => instantOk t
  | .linDominantTimeout _ t => instantOk t
  | .ethLinkUp _ t _ => instantOk t
  | .trngResume t => instantOk t
  | .lfDriveSupply _ t => instantOk t
  | .busIdle _ t => instantOk t

end Sys2Proof
end

