-- ==== Sys2Proof/Tests/Slice0.lean ====
section
/-!
SUPPORT. Sys2Proof/Tests/Slice0.lean: results against values worked out from the rules, an ill-formed command for each check of
WellFormed.lean, and for every clause of a statement that has hypotheses a state and operands that meet them.
-/
namespace Sys2Proof.Tests
open Sys2Proof Sys2Proof.Machine


/-! ### States the witnesses use -/

/-- A device that has started; every register at reset. -/
def up : State := { State.reset with alive := true }
/-- `up` with register fields set. -/
def upWith (l : List (Fld × Nat)) : State := l.foldl (fun s e => s.put e.1 e.2) up
/-- Core 0 with `g2` in shared SRAM. -/
def upAddr : State := up.setCore 0 { up.core 0 with sBank := { g := [(2, 0x20000000)] } }
/-- Core 0 in a primary pass of task 0, with one protection region that allows everything. -/
def inPass : State :=
  up.setCore 0 { up.core 0 with
    pass := some ⟨0, false, 0, 0⟩, tPc := 0x20000000, tBank := { g := [(2, 0x20000100)] },
    mpuLim := [(0, 0xFFFFFFE0)], mpuAttr := [(0, 0x7F)] }
def upIrq : State := up.setCore 0 { up.core 0 with ie := true, ipend := 1, imask := 1 }
def upSafe : State := { up with ump := { up.ump with safe := true } }
def upRun : State := upWith [(FRAME_CTL_RUN, 1)]
/-- A frame in phase `n`, at its start. -/
def inFrame (n : Nat) : State :=
  { upWith [(FRAME_CTL_RUN, 1), (FRAME_STAT_PHASE, n)] with frame := { up.frame with started := true, grid := true, closed := decide (3 ≤ n) } }
/-- Channel 3 with every diagnosis on. -/
def chan3 (out : Bool) : Chan := { up.chan 3 with entry := { w0 := 0x10000000, w6 := 0x000A0700 }, adopted := true, fresh := true, out := out }
def upOn : State := up.setChan 3 (chan3 true)
def upOff : State := up.setChan 3 { chan3 false with demagAt := some 0 }
def upDrive : State := (upWith [(CHT_DIE_STAT_MODE 0, 1), (CHT_DIE_STAT_MODE 1, 1), (CHT_DIE_STAT_MODE 2, 1), (CHT_DIE_STAT_MODE 3, 1)]).setChan 3 (chan3 true)
def upBridge : State :=
  (upWith [(CHT_DIE_STAT_MODE 0, 1), (CHT_BR_CTL_STALL 0, 1)]).setChan 0
    { up.chan 0 with entry := { w0 := 0x40000000 }, adopted := true, fresh := true, since := some 0 }
def upHot : State := up.setChan 3 { up.chan 3 with thermal := true }
def upArmed : State :=
  { (upWith [(CHT_DIE_STAT_MODE 0, 1), (CHT_DIE_STAT_MODE 1, 1), (CHT_DIE_STAT_MODE 2, 1), (CHT_DIE_STAT_MODE 3, 1)]).setChan 3 { chan3 true with since := some 5 } with tl := [(3, { onMax := 1 })] }
def upField : State := { upWith [(FLD_STAT_MODE, 1)] with field := { up.field with powered := true } }
def upFieldOn : State := { upWith [(FLD_STAT_MODE, 0)] with field := { up.field with powered := true } }
def upFieldTest : State := { upWith [(FLD_STAT_MODE, 2)] with field := { up.field with powered := true } }
def upPsch : State := upWith [(PSCH_CTL_EN, 1)]
def witRec : Nat × Rec := (0, .field 7 0 0 0)
def upFieldRec : State :=
  { (upWith [(COV_STAT_STATE, 1)]).setWords (storeAddr 0) [0x40000007, 0, 0, 0] with store := { up.store with used := 1 } }
def upEdit : State := upWith [(COV_STAT_STATE, 3), (COV_EDIT_SRC_ADDR, 0x20000)]
def upTile : State :=
  { upWith [(COV_STAT_STATE, 3)] with cov := { up.cov with rt := [(0, some { layer := 0, tx := 0, ty := 0, dirty := true })] } }
def upTmr : State := up.setTmr 3 { up.tmrChan 3 with entry := { w0 := 0x20000000 } }
def upLin : State := (upWith [(LIN_STAT_STATE 1, 1), (LIN_CTL_CMDR 1, 1), (LIN_SCHED_BASE 1, 0x20000000 / 64)]).setLin 1
  { up.lin 1 with base := 0x20000000 } |>.setWord 0x20000000 0x40000000
def upEth : State :=
  { (upWith [(PRISM_STAT_SRC, 0), (ETH_CTL_EN 1, 1), (ETH_TX_BASE_BASE 1, 0x20000000 / 64)]).setWord 0x20000004 0x80000000 with
    eths := [(1, { sending := true })] }
def upSent : State := upWith [(SENT_CFG_EN 1, 1), (SENT_CFG_TICK 1, 300)]
def upAcc : State := upWith [(ACC_CTL_EN, 1)]
def upAccCap : State := upWith [(ACC_CTL_EN, 1), (ACC_CAP_CFG_CFG, 0x80808080)]
def witReply : Reply := { slot := 0, token := 1, codes := 0, mac := true, at_ := 0, sub := false }
def upSvc : State := upWith [(CAN_STAT_STATE 12, 2)]
def upSes : State := upSvc.setKeeper { up.keeper with session := some { tool := 5, nonce := 0, heard := 0 } }
/-- A container with one calibration section staged and its download complete. -/
def upStaged : State :=
  { up.setWords stagingBase ([0x4D554E50, 0x00010001, 0, 0, 0, 0] ++ List.replicate 10 0 ++ [6, 0, 0, 0]) with
    vault := { up.vault with phase := 1, dlDone := true }, keeper := { up.keeper with verifying := true } }
/-- The journal with entry 3 in state `st`. -/
def upJrnl (st : Nat) : State :=
  { upWith [(JRNL_CTL_EN, 1), (JRNL_STAT_READY, 1), (JRNL_ARG_ARG, 1)] with
    jrnl := { up.jrnl with view := { items := [(3, { state := st, seq := 1, claimant := 1 })] } } }
def upAck : State :=
  { upJrnl 0 with jrnl := { up.jrnl with view := { items := [(3, { state := 3, seq := 1, outcome := 1 })] } } }
def upTtl : State :=
  { upJrnl 0 with jrnl := { up.jrnl with view := { items := [(3, { state := 1, seq := 1, ttl := 5 })] } } }
/-- Slot 0 runs an activity. -/
def upSlot (kind unit : Nat) : State := up.setSlot 0 { state := 4, kind := kind, unit := unit }
def upQueued : State := up.setSlot 0 { state := 1, kind := 3, unit := 1 }
def upSubTl : State :=
  { upWith [(SUB_CTL_EN, 1)] with vault := { up.vault with phase := 2, staged := { tl := some (1, 1) } } }
def upSubCal : State :=
  { upWith [(SUB_CTL_EN, 1)] with vault := { up.vault with phase := 2, staged := { cal := true } } }


/-! ### Witnesses: the statements beside the completion groups -/

/-- Core 0 in the primary pass of task 0, whose working region holds the address of `g2`. -/
def passWork : State := { inPass with frame := { inPass.frame with tasks := [(0, { wkTrue := 0x20000100, wkMirr := 0x20001100, wkLen := 256 })] } }
/-- Core 0 in a pass of task 0, whose published window holds the address of `g2`. -/
def passPub (m : Bool) : State :=
  { inPass.setCore 0 { inPass.core 0 with
      pass := some ⟨0, m, 0, 0⟩, tBank := { g := [(2, if m then ~~~0x20000100 else 0x20000100)] } } with
    frame := { inPass.frame with
      tasks := [(0, { pubBase := 0x20000100, pubLen := 256, cmtMax := 1 })], runs := [(0, { log := [(0x20000100, 7)] })] } }
/-- Core 0 about to fetch at an address that is no multiple of 4. -/
def upOdd : State := up.setCore 0 { up.core 0 with sPc := 2 }

theorem wit_StepRunsFront : (∃ (c : Instr) (s : State) (l : List Instr), s.pending = c :: l) ∧ ∃ s : State, s.pending = [] :=
  ⟨⟨.nop 0, { up with pending := [.nop 0] }, [], rfl⟩, up, rfl⟩

theorem wit_CanonicalKept : ∃ s : State, s.canonical := ⟨State.reset, by decide, by decide⟩

theorem wit_IdentityKept : ∃ s t : State, step s = .next t ∧ s.vault.pub = some 7 ∧ s.vault.damaged = true :=
  ⟨{ up with vault := { up.vault with pub := some 7, damaged := true } }, _, rfl, rfl, rfl⟩

theorem wit_SafeLeftByResetOnly : ∃ s t : State, s.ump.safe = true ∧ step s = .next t := ⟨upSafe, _, rfl, rfl⟩

theorem wit_TimeNeverFallsBack : ∃ s t : State, step s = .next t := ⟨up, _, rfl⟩

theorem wit_ShiftLimits : (∃ k, 1 ≤ k ∧ k ≤ 31) ∧ (∃ k, 33 ≤ k) ∧ ∃ k, 32 ≤ k := ⟨⟨31, by decide⟩, ⟨33, by decide⟩, 32, by decide⟩

theorem wit_DivisionLimits :
    (∃ a b : Word, b ≠ 0 ∧ ¬(a = 0x80000000 ∧ b = 0xFFFFFFFF)) ∧
    ∃ (core : Fin 4) (gd ga gb : Fin 32) (s : State) (i : Instr) (op : Div),
      (i, op) ∈ [(Instr.divs core gd ga gb true, Div.quoS), (.divu core gd ga gb true, .quoU)] ∧ s.coreReady core :=
  ⟨⟨0x80000000, 0xFFFFFFFE, by decide⟩, 0, 1, 2, 3, up, .divs 0 1 2 3 true, .quoS, by simp, by decide⟩

theorem wit_ConditionCodes : ∃ (core : Fin 4) (s : State), s.coreReady core := ⟨3, up, by decide⟩

theorem wit_MirrorComplements : (∃ pos w : Nat, 1 ≤ w ∧ pos + w ≤ 32) ∧ (∃ pos w : Nat, 1 ≤ w ∧ pos + w ≤ 32 ∧ pos = 31) ∧
    ∃ sel : BitVec 16, permOk sel := ⟨⟨0, 32, by decide⟩, ⟨31, 1, by decide⟩, 0xDDDD, by decide⟩

theorem wit_LoopLevels :
    (∃ (a : Word) (b : Bank) (n : Nat), n < 3 ∧ tget 0 b.lc n ≠ 0 ∧ tget 0 b.lc n ≠ 1 ∧ tget 0 b.le n = a ∧
      ∀ m, n < m → m < 3 → tget 0 b.lc m ≠ 0 → tget 0 b.le m = a → tget 0 b.lc m = 1) ∧
    (∃ (a : Word) (b : Bank), ∀ m, m < 3 → tget 0 b.lc m ≠ 0 → tget 0 b.le m = a → tget 0 b.lc m = 1) ∧
    ∃ (core : Fin 4) (s : State), s.coreReady core := by
  refine ⟨⟨8, { le := [(0, 8), (2, 8)], lc := [(0, 2), (2, 1)] }, 0, by decide, by decide, by decide, by decide, ?_⟩,
    ⟨8, { le := [(2, 8)], lc := [(2, 1)] }, ?_⟩, 0, up, by decide⟩
  · intro m h1 h2
    obtain rfl | rfl : m = 1 ∨ m = 2 := by omega
    · decide
    · decide
  · intro m h
    obtain rfl | rfl | rfl : m = 0 ∨ m = 1 ∨ m = 2 := by omega
    · decide
    · decide
    · decide

theorem wit_SModeException :
    (∃ (c : Nat) (x : Exc) (s : State), s.tMode c = false ∧ x.src = none ∧ x.cause < 16 ∧ (s.core c).exl = false) ∧
    (∃ (c : Nat) (x : Exc) (s : State), s.tMode c = false ∧ x.src = none ∧ (s.core c).exl = true) ∧
    ∃ (c n : Nat) (x : Exc) (s : State), s.tMode c = false ∧ x.src = some n :=
  ⟨⟨0, { cause := 15 }, up, by decide⟩, ⟨0, { cause := 1 }, up.setCore 0 { up.core 0 with exl := true }, by decide⟩,
    0, 72, { cause := 10, src := some 72 }, up, by decide⟩

theorem wit_InstructionExceptions :
    (∃ (core : Fin 4) (x : Exc) (s : State), s.coreRuns core ∧ (s.begun core).fetchExc core ((s.begun core).pc core) = some x) ∧
    (∃ (core : Fin 4) (ga : Fin 32) (imm : BitVec 16) (x : Exc) (s : State),
      s.coreReady core ∧ (s.begun core).accessExc core false ((s.begun core).address core ga imm) 4 = some x) ∧
    (∃ (core : Fin 4) (ga : Fin 32) (imm : BitVec 16) (x : Exc) (s : State),
      s.coreReady core ∧ (s.begun core).accessExc core true ((s.begun core).address core ga imm) 2 = some x) ∧
    (∃ (core : Fin 4) (pos w1 : Fin 32) (sl : BitVec 16) (s : State),
      s.coreReady core ∧ 32 < pos.val + w1.val + 1 ∧ permOk sl = false) ∧
    ∃ (core : Fin 4) (cr : Fin 1024) (s : State), s.coreReady core ∧ s.tMode core ∧ tReads cr = false ∧ tWrites cr = false :=
  ⟨⟨0, { cause := 5, addr := some 2 }, upOdd, by decide⟩, ⟨0, 0, 1, { cause := 5, addr := some 1 }, up, by decide⟩,
    ⟨0, 2, 1, { cause := 5, addr := some 0x20000001 }, upAddr, by decide⟩, ⟨0, 31, 1, 0x000E, up, by decide⟩, 0, 2, inPass, by decide⟩

theorem wit_InstructionFrame :
    (∃ (core : Fin 4) (pos w1 : Fin 32) (sl : BitVec 16) (cond : Fin 16) (cr : Fin 1024) (s : State),
      s.coreReady core ∧ pos.val + w1.val + 1 ≤ 32 ∧ permOk sl ∧ cond ≠ 15 ∧ cr.val ≠ 14 ∧ cr.val ≠ 15 ∧ s.tMode core = false) ∧
    ∃ (core : Fin 4) (cr : Fin 1024) (s : State), s.coreReady core ∧ cr.val ≠ 14 ∧ cr.val ≠ 15 ∧ s.tMode core = true ∧ tReads cr :=
  ⟨⟨0, 31, 0, 0xDDDD, 14, 1023, up, by decide⟩, 0, 24, inPass, by decide⟩

theorem wit_BranchFrame :
    (∃ (core : Fin 4) (ga : Fin 32) (cond : Fin 16) (s : State), s.coreReady core ∧ cond ≠ 15 ∧
      (s.begun core).jumpExc core ga = none ∧ s.tMode core = false) ∧
    ∃ (core : Fin 4) (ga : Fin 32) (s : State), s.coreReady core ∧ (s.begun core).jumpExc core ga = none ∧
      s.tMode core = true ∧ s.steer core ga ≠ passGate := ⟨⟨0, 0, 14, up, by decide⟩, 0, 2, inPass, by decide⟩

theorem wit_ControlRegisters :
    (∃ (core : Fin 4) (s : State), s.coreReady core ∧ s.tMode core = false) ∧
    ∃ (core : Fin 4) (cr : Fin 1024) (s : State), s.coreReady core ∧ s.tMode core = true ∧ tWrites cr :=
  ⟨⟨0, up, by decide⟩, 0, 24, inPass, by decide⟩

theorem wit_StoreFrame :
    (∃ (core : Fin 4) (ga : Fin 32) (imm : BitVec 16) (s : State) (key : Nat) (flip : Bool), s.coreReady core ∧
      (s.begun core).accessExc core true ((s.begun core).address core ga imm) 4 = none ∧
      (s.begun core).place core true ((s.begun core).address core ga imm).toNat = .cell key flip ∧ (s.core core).pass = none) ∧
    ∃ (core : Fin 4) (ga : Fin 32) (imm : BitVec 16) (s : State) (key : Nat) (flip : Bool) (p : Pass), s.coreReady core ∧
      (s.begun core).accessExc core true ((s.begun core).address core ga imm) 1 = none ∧
      (s.begun core).place core true ((s.begun core).address core ga imm).toNat = .cell key flip ∧ (s.core core).pass = some p :=
  ⟨⟨0, 2, 0x100, upAddr, 0x20000100, false, by decide⟩, 0, 2, 255, passWork, 0x200001FF, false, ⟨0, false, 0, 0⟩, by decide⟩

theorem wit_LoadResult :
    (∃ (core : Fin 4) (ga : Fin 32) (imm : BitVec 16) (s : State) (key : Nat) (flip : Bool), s.coreReady core ∧
      (s.begun core).accessExc core false ((s.begun core).address core ga imm) 4 = none ∧
      (s.begun core).place core false ((s.begun core).address core ga imm).toNat = .cell key flip ∧ s.tMode core = false) ∧
    ∃ (core : Fin 4) (ga : Fin 32) (imm : BitVec 16) (s : State) (key : Nat), s.coreReady core ∧
      (s.begun core).accessExc core false ((s.begun core).address core ga imm) 2 = none ∧
      (s.begun core).place core false ((s.begun core).address core ga imm).toNat = .cell key true ∧ s.mirror core = true :=
  ⟨⟨0, 2, 0x100, upAddr, 0x20000100, false, by decide⟩, 0, 2, 254, passPub true, 0x200001FE, by decide⟩

theorem wit_CapturedStore (m : Bool) : ∃ (core : Fin 4) (ga : Fin 32) (imm : BitVec 16) (s : State) (p : Pass), s.coreReady core ∧
    (s.core core).pass = some p ∧ (s.begun core).accessExc core true ((s.begun core).address core ga imm) 4 = none ∧
    (s.begun core).place core true ((s.begun core).address core ga imm).toNat = .capture ∧ s.cmtFull p.task p.mirror = false ∧
    p.mirror = m := by
  cases m
  · exact ⟨0, 2, 0, passPub false, ⟨0, false, 0, 0⟩, by decide⟩
  · exact ⟨0, 2, 252, passPub true, ⟨0, true, 0, 0⟩, by decide⟩

theorem wit_AgreeInMirrorPass : ∃ (core : Fin 4) (ga : Fin 32) (imm : BitVec 16) (s : State) (p : Pass) (a : Nat) (w : Word),
    s.coreReady core ∧ (s.core core).pass = some p ∧ p.mirror = true ∧
    (s.begun core).agreeExc core p ((s.begun core).address core ga imm) = none ∧
    (s.run p.task).log[(s.run p.task).logUsed]? = some (a, w) :=
  ⟨0, 2, 0, passPub true, ⟨0, true, 0, 0⟩, 0x20000100, 7, by decide⟩

theorem wit_DegradationLevel :
    (∃ s : State, s.ump.safe = true) ∧
    (∃ (s : State) (n : Nat), s.ump.safe = false ∧ s.frame.started = true ∧ (s.src n).state ≠ .clear ∧ (s.src n).code = 5) ∧
    (∃ (s : State) (n : Nat), s.ump.safe = false ∧ s.frame.started = true ∧ (s.src n).state ≠ .clear ∧ (s.src n).code = 3) ∧
    ∃ (v : BitVec 2) (s t : State), exec (.floorLevel v) s = .next t ∧ s.ump.safe = false ∧ s.frame.started = true :=
  ⟨⟨upSafe, rfl⟩, ⟨(inFrame 1).setSrc 0 { state := .active, code := 5 }, 0, by decide⟩,
    ⟨(inFrame 1).setSrc 734 { state := .permanent, code := 3 }, 734, by decide⟩, 3, inFrame 1, _, rfl, by decide⟩

theorem wit_CaptureWindow : ∃ x y z w : TmrChan, (x.frozen = false ∧ x.flags.testBit 5 = false) ∧
    (y.frozen = false ∧ y.flags.testBit 5 = true) ∧ (z.frozen = true ∧ z.buf = none) ∧ (w.frozen = true ∧ w.buf ≠ none) :=
  ⟨{}, { flags := 32 }, { frozen := true }, { frozen := true, buf := some (0, 0) }, by decide⟩

theorem wit_FrameLength :
    (∃ (v : BitVec 7) (s : State), s.clocks ∧ v.toNat < 2) ∧ (∃ (v : BitVec 7) (s : State), s.clocks ∧ 80 < v.toNat) ∧
    (∃ (v : BitVec 7) (s : State), s.clocks ∧ s.lockSrc = 0 ∧
      timingOk v.toNat (s.get FRAME_MARGIN_MARGIN_US) (s.get FRAME_CUTRES_RES_US) ∧
      budgetOk s.taskList v.toNat (s.get FRAME_MARGIN_MARGIN_US) (s.get FRAME_CUTRES_RES_US) ∧ v = 2) ∧
    ∃ (v : BitVec 7) (s : State), s.clocks ∧ s.lockSrc = 0 ∧
      timingOk v.toNat (s.get FRAME_MARGIN_MARGIN_US) (s.get FRAME_CUTRES_RES_US) ∧
      budgetOk s.taskList v.toNat (s.get FRAME_MARGIN_MARGIN_US) (s.get FRAME_CUTRES_RES_US) ∧ v = 80 :=
  ⟨⟨1, up, by decide⟩, ⟨81, up, by decide⟩, ⟨2, up, by decide⟩, 80, up, by decide⟩

theorem wit_MachineState :
    (∃ s : State, s.alive = true ∧ s.pwr.ign = false) ∧
    (∃ (v : BitVec 2) (s t : State), s.alive = true ∧ s.get PWR_STAT_PHASE = 0 ∧ (v.toNat = 2 → s.pwr.ign = true) ∧
      exec (.machReq v) s = .next t) ∧
    (∃ (v : BitVec 2) (s t : State), s.alive = true ∧ s.get PWR_STAT_PHASE = 0 ∧ s.pwr.ign = true ∧ v.toNat = 2 ∧
      exec (.machReq v) s = .next t) ∧
    ∃ (t : Nat) (s u : State), s.power ≠ .off ∧ exec (.ignOkFall t) s = .next u :=
  ⟨⟨up, by decide⟩, ⟨3, up, _, by decide, by decide, by decide, rfl⟩,
    ⟨2, { up with pwr := { up.pwr with ign := true } }, _, by decide, by decide, by decide, by decide, rfl⟩, 1, up, _, by decide, rfl⟩

theorem wit_CommandFrames :
    (∃ (i : Fin 64) (s t : State), exec (.ttPost i) s = .next t) ∧ (∃ (c : Fin 32) (s t : State), exec (.tmrPost c) s = .next t) ∧
    (∃ (i : Fin 256) (s t : State), exec (.apPost i) s = .next t) ∧ (∃ (i : BitVec 9) (s t : State), exec (.chtPost i) s = .next t) ∧
    (∃ (k : Fin 4) (s t : State), exec (.bstop k) s = .next t) ∧ (∃ s t : State, exec .run s = .next t) ∧
    (∃ (t : Nat) (cal : BitVec 32) (s u : State), exec (.lfcalMeasure t cal) s = .next u) ∧
    ∃ (i : Fin 152) (t : Nat) (s u : State), exec (.retryCntReset i t) s = .next u :=
  ⟨⟨63, up, _, rfl⟩, ⟨31, up, _, rfl⟩, ⟨255, up, _, rfl⟩, ⟨511, up, _, rfl⟩, ⟨3, up, _, rfl⟩, ⟨up, _, rfl⟩, ⟨1, 7, up, _, rfl⟩,
    151, 1, up, _, rfl⟩

theorem wit_MemoryReadsBack : ∃ (l : List Byte) (j : Nat), j < l.length := ⟨[0], 0, by decide⟩

theorem wit_AdderResults : ∃ op : Bin, op ∈ [Bin.and, .or, .xor, .andn, .orn, .xnor] := ⟨.xnor, by simp⟩

/-- Clauses that name the state at an instant `s' = s.at t` and have no other hypothesis. -/
theorem wit_instant : ∃ (t : Nat) (s s' : State), s' = s.at t := ⟨1, up, _, rfl⟩

/-! ### Results, against values worked out from the rules -/

/-- The state that a command answers. -/
def after (i : Instr) (s : State) : State :=
  match exec i s with
  | .next t => t
  | _ => s

/-- Core 0 with `g2` = 0xFFFF_FFFF and `g3` = 1. -/
def upRegs : State := up.setCore 0 { up.core 0 with sBank := { g := [(2, 0xFFFFFFFF), (3, 1)] } }

/-- R145: the sum wraps to 0 with Z and C. -/
theorem test_add_wraps : ((after (.add 0 1 2 3) upRegs).reg 0 1 = 0) ∧
    ((after (.add 0 1 2 3) upRegs).bank 0).fl = { n := false, z := true, c := true, v := false } := by decide

/-- R145: 1 − 0xFFFF_FFFF is 2 with a borrow. -/
theorem test_sub_borrows : (after (.sub 0 1 3 2) upRegs).reg 0 1 = 2 ∧ ((after (.sub 0 1 3 2) upRegs).bank 0).fl.c = false := by decide

/-- R120: a write to `g0` is discarded, the flags are set. -/
theorem test_g0 : (after (.sub 0 0 3 3) upRegs).reg 0 0 = 0 ∧ ((after (.sub 0 0 3 3) upRegs).bank 0).fl.z = true := by decide

/-- R138, R139: a field of 8 bits at 4; bytes swapped. -/
theorem test_field : (bfxRun false 0xABCD 4 8).r = 0xBC ∧ (permRun false 0 0x11223344 0x0123).r = 0x44332211 := by decide

/-- R143, R144: a displacement counts words from the branch itself. -/
theorem test_branch : (after (.br 0 14 4) up).pc 0 = 16 ∧ (after (.bl 0 2) up).reg 0 31 = 4 := by decide

/-- R140: a halfword is sign-extended, memory is little-endian. -/
theorem test_load : (after (.lh 0 4 2 0) (upAddr.setWord 0x20000000 0x11228344)).reg 0 4 = 0xFFFF8344 := by decide

/-- R130: TRAP 5 at address 0 in S mode. -/
theorem test_trap : ((after (.trap 0 5) up).core 0).ecause = 0x00050009 ∧ ((after (.trap 0 5) up).core 0).exl = true := by decide

/-- R50, R62: `LEN` 80 is stored, 81 is refused. -/
theorem test_frame_len : (after (.frameLenWrite 80) up).get FRAME_LEN_LEN = 80 := by decide

/-- R536: `FLOOR` 2 outside SAFE. -/
theorem test_floor : (after (.floorLevel 2) (inFrame 1)).level = 2 := by decide

/-- R655: RUNNING needs `IGN_OK`. -/
theorem test_mach : (after (.machReq 2) up).get PWR_MACH_STATE = 0 := by decide

/-! ### Ill-formed commands -/

theorem wf_instant : (Instr.halt (2 ^ 64)).wf = false ∧ (Instr.halt (2 ^ 64 - 1)).wf = true := by decide
theorem wf_register : (Instr.registerWrite 0x60000002 0 0).wf = false ∧ (Instr.loRegisterRead 0x5FFFFFFC 0).wf = false := by decide
theorem wf_plan : (Instr.resetNRelease { setup := [(2, 0)] }).wf = false := by decide
theorem wf_measures : (Instr.frameTick 0 { groups := [(8, 0, 0)] }).wf = false := by decide
theorem wf_edge : (Instr.lockReference 5 (some 6)).wf = false := by decide
theorem wf_target : (Instr.debuggerWrite 0 (.mem 2) 0 0).wf = false := by decide
theorem wf_configuration : (Instr.configurationFrame 0 0 0 68 (List.replicate 16 0) true).wf = false ∧
    (Instr.configurationFrame 0 0 0 67 [] true).wf = false := by decide
theorem wf_led : (Instr.ledLatch 0 0 true 0 (List.replicate 17 0)).wf = false := by decide
theorem wf_zero_rate : (Instr.zeroRateUpdate 0 65536).wf = false := by decide
theorem wf_correction : (Instr.delta (2 ^ 31) 0 0 0 0 true).wf = false ∧ (Instr.setCorr 0 0 0 65536).wf = false := by decide
theorem wf_adc : (Instr.adcScanComplete 0 [] 0).wf = false := by decide
theorem wf_can : (Instr.frameReceive 0 5 { sof := 6 }).wf = false ∧ (Instr.frameReceive 0 5 { dlc := 1 }).wf = false ∧
    (Instr.frameReceive 0 5 { rtr := true, fdf := true }).wf = false := by decide
theorem wf_lin : (Instr.linFrame 0 0 0 (List.replicate 9 0)).wf = false := by decide
theorem wf_eth : (Instr.ethFrameReceive 0 0 0 []).wf = false ∧ (Instr.ethFrameSent 0 5 6).wf = false := by decide
theorem wf_sent : (Instr.sentFrame 0 0 0 0 [] true none).wf = false := by decide
theorem wf_touch : (Instr.touch 0 0 []).wf = false := by decide
theorem wf_data : (Instr.dlData 0 0 0 0 (List.replicate 57 0)).wf = false := by decide
theorem wf_token : (Instr.portToken 0 { machine := 0, nonce := 0, epoch := 0, perms := 65536, life := 0, sig := true }).wf = false := by decide
theorem wf_journal : (Instr.journalRecoveryComplete 0 [63]).wf = false := by decide
theorem wf_scrub : (Instr.scrubFlash 0 0 .start [(7680, 0)] false).wf = false := by decide
theorem wf_clock : (Instr.clockMonitorTrip (.domain 7) 0).wf = false := by decide

/-! ### Witnesses: `CoreRegisterOperations` -/

theorem wit_add : ∃ (core : Fin 4) (gd : Fin 32) (ga : Fin 32) (gb : Fin 32) (s : State), s.coreReady core :=
  ⟨0, 1, 2, 3, up, by decide⟩

theorem wit_sub : ∃ (core : Fin 4) (gd : Fin 32) (ga : Fin 32) (gb : Fin 32) (s : State), s.coreReady core :=
  ⟨0, 1, 2, 3, up, by decide⟩

theorem wit_adc : ∃ (core : Fin 4) (gd : Fin 32) (ga : Fin 32) (gb : Fin 32) (s : State), s.coreReady core :=
  ⟨0, 1, 2, 3, up, by decide⟩

theorem wit_sbc : ∃ (core : Fin 4) (gd : Fin 32) (ga : Fin 32) (gb : Fin 32) (s : State), s.coreReady core :=
  ⟨0, 1, 2, 3, up, by decide⟩

theorem wit_andR : ∃ (core : Fin 4) (gd : Fin 32) (ga : Fin 32) (gb : Fin 32) (s : State), s.coreReady core :=
  ⟨0, 1, 2, 3, up, by decide⟩

theorem wit_orR : ∃ (core : Fin 4) (gd : Fin 32) (ga : Fin 32) (gb : Fin 32) (s : State), s.coreReady core :=
  ⟨0, 1, 2, 3, up, by decide⟩

theorem wit_xorR : ∃ (core : Fin 4) (gd : Fin 32) (ga : Fin 32) (gb : Fin 32) (s : State), s.coreReady core :=
  ⟨0, 1, 2, 3, up, by decide⟩

theorem wit_andn : ∃ (core : Fin 4) (gd : Fin 32) (ga : Fin 32) (gb : Fin 32) (s : State), s.coreReady core :=
  ⟨0, 1, 2, 3, up, by decide⟩

theorem wit_orn : ∃ (core : Fin 4) (gd : Fin 32) (ga : Fin 32) (gb : Fin 32) (s : State), s.coreReady core :=
  ⟨0, 1, 2, 3, up, by decide⟩

theorem wit_xnor : ∃ (core : Fin 4) (gd : Fin 32) (ga : Fin 32) (gb : Fin 32) (s : State), s.coreReady core :=
  ⟨0, 1, 2, 3, up, by decide⟩

theorem wit_cmp : ∃ (core : Fin 4) (ga : Fin 32) (gb : Fin 32) (s : State), s.coreReady core :=
  ⟨0, 1, 2, up, by decide⟩

theorem wit_tst : ∃ (core : Fin 4) (ga : Fin 32) (gb : Fin 32) (s : State), s.coreReady core :=
  ⟨0, 1, 2, up, by decide⟩

theorem wit_sel : ∃ (core : Fin 4) (gd : Fin 32) (ga : Fin 32) (gb : Fin 32) (cond : Fin 16) (s : State), s.coreReady core ∧ cond ≠ 15 :=
  ⟨0, 1, 2, 3, 0, up, by decide⟩

/-! ### Witnesses: `CoreShiftMultiplyDivide` -/

theorem wit_lsl : ∃ (core : Fin 4) (gd : Fin 32) (ga : Fin 32) (gb : Fin 32) (s : State), s.coreReady core :=
  ⟨0, 1, 2, 3, up, by decide⟩

theorem wit_lsli : ∃ (core : Fin 4) (gd : Fin 32) (ga : Fin 32) (sh : Fin 32) (s : State), s.coreReady core :=
  ⟨0, 1, 2, 3, up, by decide⟩

theorem wit_lsr : ∃ (core : Fin 4) (gd : Fin 32) (ga : Fin 32) (gb : Fin 32) (s : State), s.coreReady core :=
  ⟨0, 1, 2, 3, up, by decide⟩

theorem wit_lsri : ∃ (core : Fin 4) (gd : Fin 32) (ga : Fin 32) (sh : Fin 32) (s : State), s.coreReady core :=
  ⟨0, 1, 2, 3, up, by decide⟩

theorem wit_asr : ∃ (core : Fin 4) (gd : Fin 32) (ga : Fin 32) (gb : Fin 32) (s : State), s.coreReady core :=
  ⟨0, 1, 2, 3, up, by decide⟩

theorem wit_asri : ∃ (core : Fin 4) (gd : Fin 32) (ga : Fin 32) (sh : Fin 32) (s : State), s.coreReady core :=
  ⟨0, 1, 2, 3, up, by decide⟩

theorem wit_ror : ∃ (core : Fin 4) (gd : Fin 32) (ga : Fin 32) (gb : Fin 32) (s : State), s.coreReady core :=
  ⟨0, 1, 2, 3, up, by decide⟩

theorem wit_rori : ∃ (core : Fin 4) (gd : Fin 32) (ga : Fin 32) (sh : Fin 32) (s : State), s.coreReady core :=
  ⟨0, 1, 2, 3, up, by decide⟩

theorem wit_mul : ∃ (core : Fin 4) (gd : Fin 32) (ga : Fin 32) (gb : Fin 32) (s : State), s.coreReady core :=
  ⟨0, 1, 2, 3, up, by decide⟩

theorem wit_mulhs : ∃ (core : Fin 4) (gd : Fin 32) (ga : Fin 32) (gb : Fin 32) (s : State), s.coreReady core :=
  ⟨0, 1, 2, 3, up, by decide⟩

theorem wit_mulhu : ∃ (core : Fin 4) (gd : Fin 32) (ga : Fin 32) (gb : Fin 32) (s : State), s.coreReady core :=
  ⟨0, 1, 2, 3, up, by decide⟩

theorem wit_divs : ∃ (core : Fin 4) (gd : Fin 32) (ga : Fin 32) (gb : Fin 32) (s : State), s.coreReady core :=
  ⟨0, 1, 2, 3, up, by decide⟩

theorem wit_divu : ∃ (core : Fin 4) (gd : Fin 32) (ga : Fin 32) (gb : Fin 32) (s : State), s.coreReady core :=
  ⟨0, 1, 2, 3, up, by decide⟩

theorem wit_rems : ∃ (core : Fin 4) (gd : Fin 32) (ga : Fin 32) (gb : Fin 32) (s : State), s.coreReady core :=
  ⟨0, 1, 2, 3, up, by decide⟩

theorem wit_remu : ∃ (core : Fin 4) (gd : Fin 32) (ga : Fin 32) (gb : Fin 32) (s : State), s.coreReady core :=
  ⟨0, 1, 2, 3, up, by decide⟩

/-! ### Witnesses: `CoreImmediateAndFieldOperations` -/

theorem wit_addi : ∃ (core : Fin 4) (gd : Fin 32) (ga : Fin 32) (imm : BitVec 16) (s : State), s.coreReady core :=
  ⟨0, 1, 2, 3, up, by decide⟩

theorem wit_xori : ∃ (core : Fin 4) (gd : Fin 32) (ga : Fin 32) (imm : BitVec 16) (s : State), s.coreReady core :=
  ⟨0, 1, 2, 3, up, by decide⟩

theorem wit_andi : ∃ (core : Fin 4) (gd : Fin 32) (ga : Fin 32) (imm : BitVec 16) (s : State), s.coreReady core :=
  ⟨0, 1, 2, 3, up, by decide⟩

theorem wit_ori : ∃ (core : Fin 4) (gd : Fin 32) (ga : Fin 32) (imm : BitVec 16) (s : State), s.coreReady core :=
  ⟨0, 1, 2, 3, up, by decide⟩

theorem wit_cmpi : ∃ (core : Fin 4) (ga : Fin 32) (imm : BitVec 16) (s : State), s.coreReady core :=
  ⟨0, 1, 2, up, by decide⟩

theorem wit_tsti : ∃ (core : Fin 4) (ga : Fin 32) (imm : BitVec 16) (s : State), s.coreReady core :=
  ⟨0, 1, 2, up, by decide⟩

theorem wit_movhi : ∃ (core : Fin 4) (gd : Fin 32) (imm : BitVec 16) (s : State), s.coreReady core :=
  ⟨0, 1, 2, up, by decide⟩

theorem wit_clz : ∃ (core : Fin 4) (gd : Fin 32) (ga : Fin 32) (s : State), s.coreReady core :=
  ⟨0, 1, 2, up, by decide⟩

theorem wit_bfx : ∃ (core : Fin 4) (gd : Fin 32) (ga : Fin 32) (pos : Fin 32) (w1 : Fin 32) (s : State), s.coreReady core ∧
    pos.val + w1.val + 1 ≤ 32 :=
  ⟨0, 1, 2, 3, 4, up, by decide⟩

theorem wit_bfxs : ∃ (core : Fin 4) (gd : Fin 32) (ga : Fin 32) (pos : Fin 32) (w1 : Fin 32) (s : State), s.coreReady core ∧
    pos.val + w1.val + 1 ≤ 32 :=
  ⟨0, 1, 2, 3, 4, up, by decide⟩

theorem wit_bfi : ∃ (core : Fin 4) (gd : Fin 32) (ga : Fin 32) (pos : Fin 32) (w1 : Fin 32) (s : State), s.coreReady core ∧
    pos.val + w1.val + 1 ≤ 32 :=
  ⟨0, 1, 2, 3, 4, up, by decide⟩

theorem wit_perm : ∃ (core : Fin 4) (gd : Fin 32) (ga : Fin 32) (sl : BitVec 16) (s : State), s.coreReady core ∧ permOk sl :=
  ⟨0, 1, 2, 0x3210, up, by decide⟩

/-! ### Witnesses: `CoreLoadsAndStores` -/

theorem wit_lw : ∃ (core : Fin 4) (gd : Fin 32) (ga : Fin 32) (imm : BitVec 16) (s : State), s.coreReady core ∧
    (s.begun core).accessExc core false ((s.begun core).address core ga imm) 4 = none :=
  ⟨0, 1, 0, 0x100, up, by decide⟩

theorem wit_lh : ∃ (core : Fin 4) (gd : Fin 32) (ga : Fin 32) (imm : BitVec 16) (s : State), s.coreReady core ∧
    (s.begun core).accessExc core false ((s.begun core).address core ga imm) 2 = none :=
  ⟨0, 1, 0, 0x100, up, by decide⟩

theorem wit_lhu : ∃ (core : Fin 4) (gd : Fin 32) (ga : Fin 32) (imm : BitVec 16) (s : State), s.coreReady core ∧
    (s.begun core).accessExc core false ((s.begun core).address core ga imm) 2 = none :=
  ⟨0, 1, 0, 0x100, up, by decide⟩

theorem wit_lb : ∃ (core : Fin 4) (gd : Fin 32) (ga : Fin 32) (imm : BitVec 16) (s : State), s.coreReady core ∧
    (s.begun core).accessExc core false ((s.begun core).address core ga imm) 1 = none :=
  ⟨0, 1, 0, 0x100, up, by decide⟩

theorem wit_lbu : ∃ (core : Fin 4) (gd : Fin 32) (ga : Fin 32) (imm : BitVec 16) (s : State), s.coreReady core ∧
    (s.begun core).accessExc core false ((s.begun core).address core ga imm) 1 = none :=
  ⟨0, 1, 0, 0x100, up, by decide⟩

theorem wit_sw : ∃ (core : Fin 4) (gd : Fin 32) (ga : Fin 32) (imm : BitVec 16) (s : State), s.coreReady core ∧
    (s.begun core).accessExc core true ((s.begun core).address core ga imm) 4 = none :=
  ⟨0, 1, 2, 0x100, upAddr, by decide⟩

theorem wit_sh : ∃ (core : Fin 4) (gd : Fin 32) (ga : Fin 32) (imm : BitVec 16) (s : State), s.coreReady core ∧
    (s.begun core).accessExc core true ((s.begun core).address core ga imm) 2 = none :=
  ⟨0, 1, 2, 0x100, upAddr, by decide⟩

theorem wit_sb : ∃ (core : Fin 4) (gd : Fin 32) (ga : Fin 32) (imm : BitVec 16) (s : State), s.coreReady core ∧
    (s.begun core).accessExc core true ((s.begun core).address core ga imm) 1 = none :=
  ⟨0, 1, 2, 0x100, upAddr, by decide⟩

theorem wit_agree : ∃ (core : Fin 4) (gd : Fin 32) (ga : Fin 32) (imm : BitVec 16) (p : Pass) (s : State), s.coreReady core ∧
    (s.core core).pass = some p ∧ (s.begun core).agreeExc core p ((s.begun core).address core ga imm) = none :=
  ⟨0, 1, 2, 0, ⟨0, false, 0, 0⟩, inPass, by decide⟩

/-! ### Witnesses: `CoreFlow` -/

theorem wit_br : ∃ (core : Fin 4) (cond : Fin 16) (disp : BitVec 22) (s : State), s.coreReady core ∧ cond ≠ 15 ∧
    (s.begun core).atLoopEnd core = false :=
  ⟨0, 1, 2, up, by decide⟩

theorem wit_bl : ∃ (core : Fin 4) (disp : BitVec 26) (s : State), s.coreReady core ∧ (s.begun core).atLoopEnd core = false :=
  ⟨0, 2, up, by decide⟩

theorem wit_jr : ∃ (core : Fin 4) (ga : Fin 32) (s : State), s.coreReady core ∧ (s.begun core).jumpExc core ga = none :=
  ⟨0, 2, up, by decide⟩

theorem wit_jalr : ∃ (core : Fin 4) (gd : Fin 32) (ga : Fin 32) (s : State), s.coreReady core ∧ (s.begun core).jumpExc core ga = none :=
  ⟨0, 1, 2, up, by decide⟩

theorem wit_loopR : ∃ (core : Fin 4) (lvl : Fin 4) (ga : Fin 32) (off : BitVec 19) (s : State), s.coreReady core ∧
    (s.begun core).loopExcs core lvl false (off.zeroExtend 32) = none :=
  ⟨0, 1, 2, 5, up, by decide⟩

theorem wit_loopi : ∃ (core : Fin 4) (lvl : Fin 4) (cnt : BitVec 12) (off : BitVec 12) (s : State), s.coreReady core ∧
    (s.begun core).loopExcs core lvl (cnt == 0) (off.zeroExtend 32) = none :=
  ⟨0, 2, 7, 5, up, by decide⟩

theorem wit_nop : ∃ (core : Fin 4) (s : State), s.coreReady core :=
  ⟨0, up, by decide⟩

theorem wit_sync : ∃ (core : Fin 4) (s : State), s.coreReady core :=
  ⟨0, up, by decide⟩

theorem wit_mfc : ∃ (core : Fin 4) (gd : Fin 32) (cr : Fin 1024) (s : State), s.coreReady core ∧ (s.tMode core = false ∨ tReads cr) :=
  ⟨0, 1, 14, up, by decide⟩

theorem wit_mtc : ∃ (core : Fin 4) (cr : Fin 1024) (ga : Fin 32) (s : State), s.coreReady core ∧ (s.tMode core = false ∨ tWrites cr) :=
  ⟨0, 7, 1, up, by decide⟩

theorem wit_trap : ∃ (core : Fin 4) (num : BitVec 10) (s : State), s.coreReady core ∧ (s.begun core).atLoopEnd core = false :=
  ⟨0, 5, up, by decide⟩

theorem wit_eret : ∃ (core : Fin 4) (s : State), s.coreReady core ∧ s.tMode core = false ∧ (s.begun core).atLoopEnd core = false :=
  ⟨0, up, by decide⟩

theorem wit_wfi : ∃ (core : Fin 4) (s : State), s.coreReady core ∧ s.tMode core = false ∧ (s.begun core).atLoopEnd core = false :=
  ⟨0, up, by decide⟩

theorem wit_interrupt : ∃ (core : Fin 4) (s : State), s.coreRuns core ∧ (s.core core).pass = none ∧ (s.core core).ie ∧
    (s.core core).exl = false ∧ (s.core core).ipend.zeroExtend 32 &&& (s.core core).imask ≠ 0 :=
  ⟨0, upIrq, by decide⟩

theorem wit_undef : ∃ (core : Fin 4) (w : Word) (s : State), s.coreReady core ∧ legalWord w = false :=
  ⟨0, 0, up, by decide⟩

/-! ### Witnesses: `SupplyEvents` -/

theorem wit_vbatUv : ∃ (mV : Nat) (t : Nat) (s s' : State), s' = s.at t ∧ mV < 6000 :=
  ⟨5900, 1, up, State.at (up) 1, rfl, by decide⟩

theorem wit_vbatOv : ∃ (mV : Nat) (t : Nat) (s s' : State), s' = s.at t ∧ 36000 < mV :=
  ⟨36001, 1, up, State.at (up) 1, rfl, by decide⟩

theorem wit_flashSuspendUv : ∃ (mV : Nat) (t : Nat) (s s' : State), s' = s.at t ∧ mV < 5000 :=
  ⟨4999, 1, up, State.at (up) 1, rfl, by decide⟩

theorem wit_flashResumeUv : ∃ (mV : Nat) (t : Nat) (s s' : State), s' = s.at t ∧ 5500 < mV :=
  ⟨5501, 1, up, State.at (up) 1, rfl, by decide⟩

theorem wit_groupWire : ∃ (g : Fin 8) (mVg : Nat) (mVl : Nat) (mA : Nat) (t : Nat) (s s' : State), s' = s.at t ∧ (4000 < mVg - mVl ∨
    4000 < mVl - mVg) ∧ mA < 1000 :=
  ⟨0, 12000, 7999, 999, 1, up, State.at (up) 1, rfl, by decide⟩

theorem wit_pkgLoad : ∃ (mA : Nat) (mW : Nat) (t : Nat) (s s' : State), s' = s.at t ∧ (150000 < mA ∨ 32000 < mW) :=
  ⟨150001, 0, 1, up, State.at (up) 1, rfl, by decide⟩

theorem wit_logicHot : ∃ (c16 : Int) (t : Nat) (s s' : State), s' = s.at t ∧ 2240 ≤ c16 :=
  ⟨2240, 1, up, State.at (up) 1, rfl, by decide⟩

theorem wit_logicTsd : ∃ (c16 : Int) (t : Nat) (s s' : State), s' = s.at t ∧ 2400 ≤ c16 :=
  ⟨2400, 1, up, State.at (up) 1, rfl, by decide⟩

/-! ### Witnesses: `ResetsAndPins` -/

theorem wit_resetNRelease : ∃ (plan : BootPlan) (s : State), s.alive = false ∧ s.power = .run :=
  ⟨{}, State.reset, by decide⟩

theorem wit_firstFrameTimeout : ∃ (t : Nat) (s s' : State), s' = s.at t ∧ s'.alive ∧ s'.power = .run ∧ s'.frame.started = false ∧
    s'.ump.service = false ∧ s'.pwr.bootAt + ms 150 ≤ s'.now :=
  ⟨30000000, up, State.at (up) 30000000, rfl, by decide⟩

theorem wit_brownout : ∃ (mV : Nat) (t : Nat) (plan : BootPlan) (s s' : State), s' = s.at t ∧ mV < 3000 :=
  ⟨2999, 1, {}, up, State.at (up) 1, rfl, by decide⟩

theorem wit_umpRst : ∃ (t : Nat) (plan : BootPlan) (s s' : State), s' = s.at t ∧ s'.alive ∧ s'.level = 4 :=
  ⟨1, {}, upSafe, State.at (upSafe) 1, rfl, by decide⟩

theorem wit_keeperReset : ∃ (t : Nat) (plan : BootPlan) (a : Nat) (s s' : State), s' = s.at t ∧ s'.clocks ∧ s'.keeper.resetAt = some a ∧
    a ≤ s'.now :=
  ⟨5, {}, 5, { up with keeper := { up.keeper with resetAt := some 5 } },
    ({ up with keeper := { up.keeper with resetAt := some 5 } } : State).at 5, rfl, by decide⟩

theorem wit_ignOkRise : ∃ (t : Nat) (s s' : State), s' = s.at t ∧ s'.power ≠ .off :=
  ⟨1, up, State.at (up) 1, rfl, by decide⟩

theorem wit_ignOkFall : ∃ (t : Nat) (s s' : State), s' = s.at t ∧ s'.power ≠ .off :=
  ⟨1, up, State.at (up) 1, rfl, by decide⟩

/-! ### Witnesses: `FrameCommands` -/

theorem wit_frameTick : ∃ (t : Nat) (m : Measures) (s : State), s.tickAt t :=
  ⟨0, {}, upRun, by decide⟩

theorem wit_cut : ∃ (t : Nat) (s s' : State), s' = s.at t ∧ s'.inFrame ∧ s'.get FRAME_STAT_PHASE = 1 ∧ s'.frame.cut ≤ s'.frameTime t :=
  ⟨200000, inFrame 1, State.at (inFrame 1) 200000, rfl, by decide⟩

theorem wit_commit : ∃ (t : Nat) (s s' : State), s' = s.at t ∧ (compareIfIdle s').inFrame ∧ (compareIfIdle s').get FRAME_STAT_PHASE = 2 ∧
    (compareIfIdle s').frame.applied = false :=
  ⟨0, inFrame 2, State.at (inFrame 2) 0, rfl, by decide⟩

theorem wit_commitDeadline : ∃ (t : Nat) (s s' : State), s' = s.at t ∧ s'.inFrame ∧ s'.frame.closed = false ∧
    s'.frame.deadline ≤ s'.frameTime t :=
  ⟨200000, inFrame 2, State.at (inFrame 2) 200000, rfl, by decide⟩

theorem wit_maintenanceSliceEnd : ∃ (t : Nat) (s s' : State), s' = s.at t ∧ s'.inFrame ∧ s'.frame.closed ∧ s'.get FRAME_STAT_PHASE = 4 ∧
    s'.frame.sliceAt + s'.frame.slice ≤ t :=
  ⟨200000, inFrame 4, State.at (inFrame 4) 200000, rfl, by decide⟩

theorem wit_run : ∃ (s : State), s.clocks :=
  ⟨up, by decide⟩

theorem wit_frameLenWrite : ∃ (v : BitVec 7) (s : State), s.clocks :=
  ⟨5, up, by decide⟩

theorem wit_frameMarginWrite : ∃ (v : BitVec 12) (s : State), s.clocks :=
  ⟨5, up, by decide⟩

theorem wit_frameCutresWrite : ∃ (v : BitVec 12) (s : State), s.clocks :=
  ⟨5, up, by decide⟩

theorem wit_frameLockWrite : ∃ (v : Word) (s : State), s.clocks :=
  ⟨1, up, by decide⟩

theorem wit_frameLockOfsWrite : ∃ (v : Word) (s : State), s.clocks :=
  ⟨1, up, by decide⟩

theorem wit_ttPost : ∃ (i : Fin 64) (s : State), s.clocks ∧ s.frame.posts.contains i.val = false :=
  ⟨3, up, by decide⟩

theorem wit_lockReference : ∃ (t : Nat) (e : Nat) (s s' : State), s' = s.at t ∧ s'.clocks ∧ s'.lockState ≠ 0 ∧ s'.lockSrc ≠ 1 :=
  ⟨7, 1, upWith [(FRAME_LOCK_STAT_STATE, 1)], State.at (upWith [(FRAME_LOCK_STAT_STATE, 1)]) 7, rfl, by decide⟩

theorem wit_referenceMissing : ∃ (t : Nat) (s s' : State), s' = s.at t ∧ s'.clocks ∧ s'.lockState = 1 ∧
    s'.tick.lastRef.getD s'.tick.acq + (s'.tick.missed + 1) * s'.lockPeriod + 3 * s'.lockPeriod / 2 ≤ s'.now ∧
    s'.tick.missed + 1 < orOne (s'.get FRAME_LOCK_TMO_MISS) :=
  ⟨1000000000, upWith [(FRAME_LOCK_STAT_STATE, 1), (FRAME_LOCK_TMO_MISS, 3)], State.at (upWith [(FRAME_LOCK_STAT_STATE, 1),
    (FRAME_LOCK_TMO_MISS, 3)]) 1000000000, rfl, by decide⟩

theorem wit_lockFail : ∃ (t : Nat) (s s' : State), s' = s.at t ∧ s'.lockState = 1 ∧ s'.tick.acq + 32 * s'.lockPeriod ≤ s'.now :=
  ⟨1000000000, upWith [(FRAME_LOCK_STAT_STATE, 1)], State.at (upWith [(FRAME_LOCK_STAT_STATE, 1)]) 1000000000, rfl, by decide⟩

/-! ### Witnesses: `DebugCommands` -/

theorem wit_modeReq : ∃ (v : BitVec 2) (s : State), s.clocks ∧ s.on DBG_STAT_TOKEN ∧ s.modePermitted v.toNat ∧ s.ump.service = false :=
  ⟨1, { upWith [(DBG_STAT_TOKEN, 1)] with keeper := { up.keeper with perms := 1 } }, by decide⟩

theorem wit_halt : ∃ (t : Nat) (s s' : State), s' = s.at t ∧ s'.clocks ∧ s'.debugMode = 1 :=
  ⟨1, upWith [(DBG_STAT_MODE, 1)], State.at (upWith [(DBG_STAT_MODE, 1)]) 1, rfl, by decide⟩

theorem wit_debugResume : ∃ (t : Nat) (s s' : State), s' = s.at t ∧ s'.clocks :=
  ⟨1, up, State.at (up) 1, rfl, by decide⟩

theorem wit_breakpoint : ∃ (b : Fin 4) (core : Fin 4) (t : Nat) (s s' : State), s' = s.at t ∧ s'.clocks ∧ s'.on (DBG_BP_EN b) ∧
    s'.pcOf core = 4 * s'.get (DBG_BP_ADDR b) ∧ (s'.core core).halted = false ∧ s'.debugMode = 2 ∧ s'.inMirror core = false :=
  ⟨0, 0, 1, upWith [(DBG_BP_EN 0, 1), (DBG_STAT_MODE, 2)], State.at (upWith [(DBG_BP_EN 0, 1), (DBG_STAT_MODE, 2)]) 1, rfl, by decide⟩

theorem wit_debuggerWrite : ∃ (core : Fin 4) (target : DbgTarget) (v : Word) (t : Nat) (s s' : State), s' = s.at t ∧ s'.clocks ∧
    s'.debugMode ≠ 0 ∧ dbgSram core target ∧ (s'.core core).pass = none :=
  ⟨0, (.reg 3), 7, 1, upWith [(DBG_STAT_MODE, 1)], State.at (upWith [(DBG_STAT_MODE, 1)]) 1, rfl, by decide⟩

theorem wit_debugPortInstruction : ∃ (ins : Fin 5) (s : State), ins.val ≤ 1 ∨ (s.on DBG_STAT_TOKEN ∧ s.keeper.perms.testBit 2 ∧
    s.ump.service) :=
  ⟨1, up, by decide⟩

/-! ### Witnesses: `RegisterAccess` -/

theorem wit_registerWrite : ∃ (a : Nat) (v : Word) (t : Nat) (s s' : State), s' = s.at t ∧ s'.clocks :=
  ⟨0x60041800, 1, 1, up, State.at (up) 1, rfl, by decide⟩

theorem wit_loRegisterRead : ∃ (a : Nat) (t : Nat) (s s' : State), s' = s.at t ∧ s'.clocks :=
  ⟨0x60020000, 1, up, State.at (up) 1, rfl, by decide⟩

theorem wit_pwrWakeSrcRead : ∃ (s : State), s.power = .run :=
  ⟨up, by decide⟩

theorem wit_capHiRead : ∃ (c : Fin 32) (t : Nat) (s s' : State), s' = s.at t ∧ (s'.tmrChan c).frozen ∧ (s'.tmrChan c).buf = none :=
  ⟨0, 1, up.setTmr 0 { up.tmrChan 0 with frozen := true }, State.at (up.setTmr 0 { up.tmrChan 0 with frozen := true }) 1, rfl, by decide⟩

/-! ### Witnesses: `ChannelFaults` -/

theorem wit_short : ∃ (i : Fin 152) (t : Nat) (s s' : State), s' = s.at t ∧ (s'.chan i).out :=
  ⟨3, 1, upOn, State.at (upOn) 1, rfl, by decide⟩

theorem wit_overcur : ∃ (i : Fin 152) (t : Nat) (a : Nat) (b : Nat) (c : Nat) (s s' : State), s' = s.at t ∧ (s'.chan i).out ∧
    (s'.chan i).senseBad = false ∧ s'.activeLimit i < a ∧ s'.activeLimit i < b ∧ s'.activeLimit i < c :=
  ⟨3, 1, 100000000, 100000000, 100000000, upOn, State.at (upOn) 1, rfl, by decide⟩

theorem wit_openOn : ∃ (i : Fin 152) (t : Nat) (mA : Nat) (s s' : State), s' = s.at t ∧ (s'.chState i).driving ∧
    (s'.chan i).inrush = none ∧ (s'.chan i).entry.ond ∧ (s'.chan i).senseBad = false ∧ s'.diagOff i = false ∧ mA < s'.olTh i :=
  ⟨3, 1, 0, upDrive, State.at (upDrive) 1, rfl, by decide⟩

theorem wit_stuckOff : ∃ (i : Fin 152) (t : Nat) (mA : Nat) (s s' : State), s' = s.at t ∧ (s'.chan i).out ∧ (s'.chan i).inrush = none ∧
    (s'.chan i).entry.stuckd ∧ (s'.chan i).senseBad = false ∧ s'.diagOff i = false ∧ mA < s'.olTh i :=
  ⟨3, 1, 0, upOn, State.at (upOn) 1, rfl, by decide⟩

theorem wit_stuckOn : ∃ (i : Fin 152) (t : Nat) (mA : Nat) (s s' : State), s' = s.at t ∧ (s'.chan i).out = false ∧
    (s'.chan i).demagAt.isSome ∧ (s'.chan i).entry.stuckd ∧ (s'.chan i).senseBad = false ∧ s'.olTh i < mA :=
  ⟨3, 1, 100000000, upOff, State.at (upOff) 1, rfl, by decide⟩

theorem wit_bridgeStall : ∃ (b : Fin 4) (t : Nat) (s s' : State), s' = s.at t ∧ s'.bridgeDrives b ∧ s'.get (CHT_BR_CTL_STALL b) ≠ 0 ∧
    (s'.chan (2 * b)).inrush = none ∧ max ((s'.chan (2 * b)).rippleAt.getD 0) ((s'.chan (2 * b)).since.getD (s'.now)) + us (100 * s'.get
    (CHT_BR_CTL_STALL b)) ≤ s'.now :=
  ⟨0, 1000000, upBridge, State.at (upBridge) 1000000, rfl, by decide⟩

theorem wit_demagEnd : ∃ (i : Fin 152) (t : Nat) (s s' : State), s' = s.at t ∧ (s'.chan i).out = false ∧ (s'.chan i).demagAt = none :=
  ⟨3, 1, up, State.at (up) 1, rfl, by decide⟩

theorem wit_offWindow : ∃ (i : Fin 152) (t : Nat) (down : Bool) (up : Bool) (a : Nat) (s s' : State), s' = s.at t ∧
    (s'.chan i).demagAt = some a ∧ (s'.chan i).out = false ∧ (s'.chan i).entry.offd ∧ s'.diagOff i = false ∧ a + us 200 ≤ s'.now :=
  ⟨3, 100000, false, true, 0, upOff, State.at (upOff) 100000, rfl, by decide⟩

theorem wit_thermal : ∃ (i : Fin 152) (t : Nat) (tj : Int) (s s' : State), s' = s.at t ∧ 170 * 16 ≤ tj ∧
    (s'.modChan i (fun c => { c with tjNow := tj, tjPeak := max c.tjPeak tj })).uvOf i = false ∧
    ((s'.modChan i (fun c => { c with tjNow := tj, tjPeak := max c.tjPeak tj })).chan i).thermal = false :=
  ⟨3, 1, 2720, up, State.at (up) 1, rfl, by decide⟩

theorem wit_thermalRelease : ∃ (i : Fin 152) (t : Nat) (tj : Int) (s s' : State), s' = s.at t ∧ tj < 150 * 16 ∧
    ((s'.modChan i (fun c => { c with tjNow := tj })).chan i).thermal ∧ (s'.modChan i (fun c => { c with tjNow := tj })).tlAuto i :=
  ⟨3, 1, 2399, upHot, State.at (upHot) 1, rfl, by decide⟩

theorem wit_ripple : ∃ (b : Fin 4) (t : Nat) (s s' : State), s' = s.at t ∧ s'.bridgeDrives b :=
  ⟨0, 1, upBridge, State.at (upBridge) 1, rfl, by decide⟩

/-! ### Witnesses: `ChannelTimers` -/

theorem wit_inrushWindowEnd : ∃ (i : Fin 152) (t : Nat) (w : Inrush) (s s' : State), s' = s.at t ∧ (s'.chan i).inrush = some w ∧
    ms (s'.inrushMs i) ≤ w.elapsed (s'.now) :=
  ⟨3, 100000000, { start := 0 }, up.setChan 3 { up.chan 3 with inrush := some { start := 0 } },
    State.at (up.setChan 3 { up.chan 3 with inrush := some { start := 0 } }) 100000000, rfl, by decide⟩

theorem wit_groupDroop : ∃ (g : Fin 8) (t : Nat) (s s' : State), s' = s.at t ∧ (s'.grp g).drooped = false :=
  ⟨2, 1, up, State.at (up) 1, rfl, by decide⟩

theorem wit_droopRelease : ∃ (g : Fin 8) (t : Nat) (s s' : State), s' = s.at t ∧ (s'.grp g).drooped :=
  ⟨2, 1, up.setGrp 2 { up.grp 2 with drooped := true }, State.at (up.setGrp 2 { up.grp 2 with drooped := true }) 1, rfl, by decide⟩

theorem wit_retryWaitEnd : ∃ (i : Fin 152) (t : Nat) (e : Nat) (s s' : State), s' = s.at t ∧ (s'.chan i).retryEnd = some e ∧ e ≤ s'.now :=
  ⟨3, 5, 5, up.setChan 3 { up.chan 3 with retryEnd := some 5 }, State.at (up.setChan 3 { up.chan 3 with retryEnd := some 5 }) 5, rfl,
    by decide⟩

theorem wit_retryCntReset : ∃ (i : Fin 152) (t : Nat) (a : Nat) (s s' : State), s' = s.at t ∧ (s'.chan i).since = some a ∧
    a + sec 1 ≤ s'.now :=
  ⟨3, 200000005, 5, up.setChan 3 { up.chan 3 with since := some 5 },
    State.at (up.setChan 3 { up.chan 3 with since := some 5 }) 200000005, rfl, by decide⟩

theorem wit_reversalBrakeEnd : ∃ (b : Fin 4) (t : Nat) (e : Nat) (s s' : State), s' = s.at t ∧ (s'.chan (2 * b)).revEnd = some e ∧
    e ≤ s'.now :=
  ⟨1, 5, 5, up.setChan 2 { up.chan 2 with revEnd := some 5 }, State.at (up.setChan 2 { up.chan 2 with revEnd := some 5 }) 5, rfl,
    by decide⟩

theorem wit_uvHold : ∃ (g : Fin 8) (t : Nat) (s s' : State), s' = s.at t ∧ (s'.grp g).uv = false :=
  ⟨2, 1, up, State.at (up) 1, rfl, by decide⟩

theorem wit_uvRelease : ∃ (g : Fin 8) (t : Nat) (s s' : State), s' = s.at t ∧ (s'.grp g).uv :=
  ⟨2, 1, up.setGrp 2 { up.grp 2 with uv := true }, State.at (up.setGrp 2 { up.grp 2 with uv := true }) 1, rfl, by decide⟩

theorem wit_pullInDip : ∃ (i : Fin 136) (t : Nat) (a : Nat) (s s' : State), s' = s.at t ∧ (s'.chan i).sigOn = some a :=
  ⟨3, 5000, 5, up.setChan 3 { up.chan 3 with sigOn := some 5 }, State.at (up.setChan 3 { up.chan 3 with sigOn := some 5 }) 5000, rfl,
    by decide⟩

theorem wit_signatureTimeout : ∃ (i : Fin 136) (t : Nat) (a : Nat) (s s' : State), s' = s.at t ∧ (s'.chan i).sigOn = some a ∧
    a + us 65534 ≤ s'.now :=
  ⟨3, 20000000, 5, up.setChan 3 { up.chan 3 with sigOn := some 5 }, State.at (up.setChan 3 { up.chan 3 with sigOn := some 5 }) 20000000,
    rfl, by decide⟩

theorem wit_tlHold : ∃ (i : Fin 152) (t : Nat) (energy : Nat) (a : Nat) (s s' : State), s' = s.at t ∧ (s'.chan i).hold = none ∧
    s'.armed i ∧ (s'.tlOf i).onMax ≠ 0 ∧ (s'.chan i).since = some a ∧ a + ms (s'.tlOf i).onMax ≤ s'.now :=
  ⟨3, 100000000, 0, 5, upArmed, State.at (upArmed) 100000000, rfl, by decide⟩

theorem wit_tlHoldEnd : ∃ (i : Fin 152) (t : Nat) (energy : Nat) (s s' : State), s' = s.at t ∧ (s'.chan i).hold = some .onTime ∧
    (s'.chan i).holdFrom + ms (s'.tlOf i).offMin ≤ s'.now :=
  ⟨3, 100000000, 0, up.setChan 3 { up.chan 3 with hold := some .onTime },
    State.at (up.setChan 3 { up.chan 3 with hold := some .onTime }) 100000000, rfl, by decide⟩

theorem wit_pairGapEnd : ∃ (i : Fin 152) (t : Nat) (s s' : State), s' = s.at t ∧ (s'.chan i).withheld ∧ s'.pairClear i :=
  ⟨3, 1, up.setChan 3 { up.chan 3 with withheld := true }, State.at (up.setChan 3 { up.chan 3 with withheld := true }) 1, rfl, by decide⟩

/-! ### Witnesses: `DieCommands` -/

theorem wit_limpDiff : ∃ (n : Fin 8) (t : Nat) (j k : Fin 4) (s s' : State), s' = s.at t ∧ s'.limpLevel j n = true ∧
    s'.limpLevel k n = false :=
  ⟨2, 1, 1, 0, up.modDie 1 (fun d => { d with limp := 4 }), State.at (up.modDie 1 (fun d => { d with limp := 4 })) 1, rfl, by decide⟩

theorem wit_serialWatchdogExpiry : ∃ (k : Fin 4) (t : Nat) (s s' : State), s' = s.at t ∧ s'.dieMode k = 1 ∧
    10 * ((s'.die k).wdAt + s'.wdTime k) ≤ 10 * s'.now + s'.wdTime k :=
  ⟨1, 20000000, upWith [(CHT_DIE_STAT_MODE 1, 1)], State.at (upWith [(CHT_DIE_STAT_MODE 1, 1)]) 20000000, rfl, by decide⟩

theorem wit_dieHealth : ∃ (k : Fin 4) (t : Nat) (mA : Nat) (s s' : State), s' = s.at t ∧ 24000 < mA :=
  ⟨1, 5, 24001, up, State.at (up) 5, rfl, by decide⟩

theorem wit_resume : ∃ (k : Fin 4) (s : State), s.resumeOk k :=
  ⟨1, (upWith [(CHT_DIE_STAT_MODE 1, 2)]).modDie 1 (fun d => { d with valid := 64 }), by decide⟩

theorem wit_therm : ∃ (i : BitVec 9) (s : State), i.toNat ≤ 423 :=
  ⟨5, up, by decide⟩

theorem wit_latchClr : ∃ (i : BitVec 9) (s : State), i.toNat ≤ 423 :=
  ⟨5, up, by decide⟩

theorem wit_fltClr : ∃ (i : BitVec 9) (s : State), i.toNat ≤ 423 :=
  ⟨5, up, by decide⟩

theorem wit_chtPost : ∃ (i : BitVec 9) (s : State), i.toNat ≤ 423 ∧ s.chtPosts.contains i.toNat = false :=
  ⟨5, up, by decide⟩

/-! ### Witnesses: `ChainAndLampCommands` -/

theorem wit_chainLatch : ∃ (t : Nat) (bad : BitVec 4) (retBad : BitVec 4) (hdrOk : Bool) (s : State), s.chainRuns ∧ s.latchNow t :=
  ⟨400, 0, 0, true, upWith [(PCHN_CTL_CHAIN_EN, 1)], by decide⟩

theorem wit_configurationFrame : ∃ (t : Nat) (k : Fin 4) (target : Fin 4) (block : Nat) (data : List (BitVec 8)) (s : State),
    s.chainRuns ∧ s.latchNow t ∧ s.cfgAllowed t ∧ target.val ≠ 3 :=
  ⟨400, 1, 0, 0, [], upWith [(PCHN_CTL_CHAIN_EN, 1)], by decide⟩

theorem wit_liveAdvance : ∃ (t : Nat) (s : State), s.chainRuns ∧ t % 6400 = 0 ∧ s.chain.liveAt < t :=
  ⟨6400, upWith [(PCHN_CTL_CHAIN_EN, 1)], by decide⟩

theorem wit_liveStall : ∃ (t : Nat) (s s' : State), s' = s.at t ∧ s'.chainRuns ∧ max s'.chain.liveAt s'.chain.stallAt + us 64 ≤ s'.now :=
  ⟨12800, upWith [(PCHN_CTL_CHAIN_EN, 1)], State.at (upWith [(PCHN_CTL_CHAIN_EN, 1)]) 12800, rfl, by decide⟩

theorem wit_chainEn : ∃ (s : State), s.alive ∧ s.on PCHN_CTL_CHAIN_EN = false :=
  ⟨up, by decide⟩

theorem wit_ledLatch : ∃ (p : Fin 2) (t : Nat) (hdrOk : Bool) (nret : Fin 17) (codes : List (Fin 4)) (s : State), s.ledRuns p ∧
    t % 6400 = 0 ∧ codes.any (fun c => c != 0) = false :=
  ⟨0, 6400, true, 0, [], upWith [(LCP_STAT_STATE 0, 1)], by decide⟩

theorem wit_lcpEn : ∃ (p : Fin 2) (s : State), s.alive ∧ s.get (LCP_CTL_NDRV p) ≠ 0 :=
  ⟨0, upWith [(LCP_CTL_NDRV 0, 3)], by decide⟩

theorem wit_lcpSubReq : ∃ (p : Fin 2) (drv : Fin 16) (tmo : BitVec 8) (t : Nat) (s s' : State), s' = s.at t ∧ s'.alive :=
  ⟨0, 1, 2, 5, up, State.at (up) 5, rfl, by decide⟩

theorem wit_lcpSubTimeout : ∃ (p : Fin 2) (t : Nat) (s s' : State), s' = s.at t ∧ s'.get (LCP_STAT_STATE p) = 3 ∧
    (s'.led p).reqAt + sec (orOne (s'.get (LCP_SUB_TMO_S p))) ≤ s'.now :=
  ⟨0, 200000000, upWith [(LCP_STAT_STATE 0, 3)], State.at (upWith [(LCP_STAT_STATE 0, 3)]) 200000000, rfl, by decide⟩

/-! ### Witnesses: `FieldDieCommands` -/

theorem wit_fldEn : ∃ (s : State), s.alive :=
  ⟨up, by decide⟩

theorem wit_barrierSupplyFault : ∃ (t : Nat) (s s' : State), s' = s.at t ∧ s'.field.powered :=
  ⟨1, upField, State.at (upField) 1, rfl, by decide⟩

theorem wit_fldHealth : ∃ (t : Nat) (c : Int) (s s' : State), s' = s.at t ∧ 160 ≤ c :=
  ⟨5, 160, up, State.at (up) 5, rfl, by decide⟩

theorem wit_downlinkFrame : ∃ (t : Nat) (s s' : State), s' = s.at t ∧ s'.clocks ∧ s'.field.powered :=
  ⟨1, upField, State.at (upField) 1, rfl, by decide⟩

theorem wit_uplinkFrame : ∃ (t : Nat) (n : Fin 16) (mA : Nat) (tj : Int) (v : Nat) (s s' : State), s' = s.at t ∧ s'.clocks ∧
    s'.field.powered :=
  ⟨1, 0, 0, 0, 0, upField, State.at (upField) 1, rfl, by decide⟩

theorem wit_fieldLatch : ∃ (t : Nat) (take : BitVec 16) (s : State), s.field.powered ∧ t % 4000 = 0 :=
  ⟨4000, 0, upField, by decide⟩

theorem wit_fldArming : ∃ (t : Nat) (s s' : State), s' = s.at t ∧ s'.field.powered ∧ s'.fenced 0x040 = false ∧ (s'.fldMode = 1 ∨
    s'.fldMode = 3) :=
  ⟨1, upField, State.at (upField) 1, rfl, by decide⟩

theorem wit_fldTmo : ∃ (t : Nat) (s s' : State), s' = s.at t ∧ s'.field.powered ∧ s'.fldMode = 0 ∧ s'.field.safe = false ∧
    s'.field.tmoAt + s'.fldTimeout < s'.now :=
  ⟨1000000000, upFieldOn, State.at (upFieldOn) 1000000000, rfl, by decide⟩

theorem wit_modeMax : ∃ (t : Nat) (s s' : State), s' = s.at t ∧ s'.field.powered ∧ s'.field.modeAt + s'.fldModeMax ≤ s'.now ∧
    s'.field.told = false ∧ s'.fldMode = 1 :=
  ⟨1000000000, upField, State.at (upField) 1000000000, rfl, by decide⟩

theorem wit_fldResume : ∃ (s : State), s.field.safe ∧ s.field.safeNext = false ∧ s.field.valid = 64 ∧ s.fenced 0x040 = false ∧
    s.fldMode = 0 :=
  ⟨{ upWith [(FLD_STAT_MODE, 0)] with field := { up.field with safe := true, valid := 64 } }, by decide⟩

theorem wit_testReq : ∃ (sel : BitVec 2) (t : Nat) (s s' : State), s' = s.at t ∧ s'.field.powered ∧
    (s'.put FLD_CTL_TEST_SEL sel.toNat).fldMode = 0 :=
  ⟨1, 1, upFieldOn, State.at (upFieldOn) 1, rfl, by decide⟩

theorem wit_testComplete : ∃ (t : Nat) (inFail : BitVec 16) (notOff : BitVec 16) (openOff : BitVec 16) (shortBat : BitVec 16) (s s' :
    State), s' = s.at t ∧ s'.field.powered ∧ s'.fldMode = 2 :=
  ⟨1, 0, 0, 0, 0, upFieldTest, State.at (upFieldTest) 1, rfl, by decide⟩

theorem wit_fieldInputSample : ∃ (t : Nat) (raw : BitVec 16) (s : State), s.field.powered ∧ t % s.samplePeriod = 0 ∧ s.fldMode = 0 :=
  ⟨0, 1, upFieldOn, by decide⟩

theorem wit_vfieldUndervoltage : ∃ (t : Nat) (s s' : State), s' = s.at t ∧ s'.field.powered ∧ (s'.grp 8).uv = false :=
  ⟨1, upField, State.at (upField) 1, rfl, by decide⟩

theorem wit_vfieldRelease : ∃ (t : Nat) (s s' : State), s' = s.at t ∧ (s'.grp 8).uv :=
  ⟨1, up.setGrp 8 { up.grp 8 with uv := true }, State.at (up.setGrp 8 { up.grp 8 with uv := true }) 1, rfl, by decide⟩

theorem wit_vfieldOv : ∃ (t : Nat) (s s' : State), s' = s.at t ∧ s'.field.powered :=
  ⟨1, upField, State.at (upField) 1, rfl, by decide⟩

/-! ### Witnesses: `PositionScheduler` -/

theorem wit_pschTick : ∃ (t : Nat) (s s' : State), s' = s.at t ∧ s'.pschRuns ∧ t % 20000 = 0 :=
  ⟨20000, upPsch, State.at (upPsch) 20000, rfl, by decide⟩

theorem wit_wheelExclude : ∃ (w : Fin 4) (t : Nat) (s s' : State), s' = s.at t ∧ s'.pschRuns :=
  ⟨1, 1, upPsch, State.at (upPsch) 1, rfl, by decide⟩

theorem wit_wheelReadmit : ∃ (w : Fin 4) (t : Nat) (s s' : State), s' = s.at t ∧ s'.pschRuns :=
  ⟨1, 1, upPsch, State.at (upPsch) 1, rfl, by decide⟩

theorem wit_wheelStop : ∃ (w : Fin 4) (t : Nat) (l : Nat) (s s' : State), s' = s.at t ∧ (s'.wheel w).last = some l ∧
    s'.stopTime < t - l :=
  ⟨1, 1000000000, 0, up.setWheel 1 { up.wheel 1 with last := some 0 },
    State.at (up.setWheel 1 { up.wheel 1 with last := some 0 }) 1000000000, rfl, by decide⟩

theorem wit_yawLost : ∃ (t : Nat) (s s' : State), s' = s.at t ∧ s'.pschRuns ∧ s'.yawFresh t = false :=
  ⟨1, upPsch, State.at (upPsch) 1, rfl, by decide⟩

theorem wit_zeroRateUpdate : ∃ (t : Nat) (code : Nat) (s s' : State), s' = s.at t ∧ s'.pschRuns :=
  ⟨1, 1, upPsch, State.at (upPsch) 1, rfl, by decide⟩

theorem wit_locDr : ∃ (t : Nat) (s s' : State), s' = s.at t ∧ s'.pschRuns :=
  ⟨1, upPsch, State.at (upPsch) 1, rfl, by decide⟩

theorem wit_delta : ∃ (e : Int) (n : Int) (h : Int) (u : Nat) (spread : BitVec 8) (force : Bool) (s : State),
    s.deltaBad e n force = false :=
  ⟨1, 1, 0, 0, 0, true, { up with psch := { up.psch with corrAt := some 0 } }, by decide⟩

theorem wit_apPost : ∃ (i : Fin 256) (s : State), s.psch.posts.contains i.val = false :=
  ⟨3, up, by decide⟩

theorem wit_eventPost : ∃ (slot : Fin 4096) (w0 : Word) (w1 : Word) (w2 : Word) (w3 : Word) (s : State), slot.val < s.fwSlots ∧
    eventBad w0 = false ∧ wbits w0 31 30 = 1 :=
  ⟨5, 0x40000000, 0, 0, 0, upWith [(PSCH_EV_SPLIT_FW_SLOTS, 100)], by decide⟩

theorem wit_eventCancel : ∃ (slot : Fin 4096) (s : State), slot.val < s.fwSlots :=
  ⟨5, upWith [(PSCH_EV_SPLIT_FW_SLOTS, 100)], by decide⟩

theorem wit_applyWindowEntry : ∃ (t : Nat) (s s' : State), s' = s.at t ∧ s'.pschRuns :=
  ⟨1, upPsch, State.at (upPsch) 1, rfl, by decide⟩

/-! ### Witnesses: `CoverageCommands` -/

theorem wit_coverageCycle : ∃ (t : Nat) (us : Nat) (s : State), s.covRuns ∧ t % 200000 = 0 ∧ s.cov.doneAt ≤ t :=
  ⟨200000, 3, upWith [(COV_STAT_STATE, 3)], by decide⟩

theorem wit_cycleOvr : ∃ (t : Nat) (s s' : State), s' = s.at t ∧ s'.cov.told = false ∧ s'.cov.cycleAt + us 900 < s'.cov.doneAt ∧
    s'.cov.cycleAt + us 900 ≤ s'.now :=
  ⟨1000000, { up with cov := { up.cov with doneAt := 500000 } },
    ({ up with cov := { up.cov with doneAt := 500000 } } : State).at 1000000, rfl, by decide⟩

theorem wit_covEn : ∃ (s : State), s.alive :=
  ⟨up, by decide⟩

theorem wit_fieldOpen : ∃ (id : BitVec 16) (r : Nat × Rec) (s : State), s.covState = 1 ∧ s.fieldRec id.toNat = some r :=
  ⟨7, witRec, upFieldRec, by decide⟩

theorem wit_directoryRead : ∃ (t : Nat) (s s' : State), s' = s.at t ∧ s'.covState = 2 :=
  ⟨1, upWith [(COV_STAT_STATE, 2)], State.at (upWith [(COV_STAT_STATE, 2)]) 1, rfl, by decide⟩

theorem wit_fieldClose : ∃ (t : Nat) (s s' : State), s' = s.at t ∧ s'.fieldIsOpen :=
  ⟨1, upWith [(COV_STAT_STATE, 3)], State.at (upWith [(COV_STAT_STATE, 3)]) 1, rfl, by decide⟩

theorem wit_fieldFlush : ∃ (t : Nat) (s s' : State), s' = s.at t ∧ s'.fieldIsOpen :=
  ⟨1, upWith [(COV_STAT_STATE, 3)], State.at (upWith [(COV_STAT_STATE, 3)]) 1, rfl, by decide⟩

theorem wit_fieldErase : ∃ (id : BitVec 16) (s : State), s.covState = 1 :=
  ⟨7, upWith [(COV_STAT_STATE, 1)], by decide⟩

theorem wit_flushComplete : ∃ (t : Nat) (s s' : State), s' = s.at t ∧ s'.on COV_STAT_FLUSH_BUSY ∧ s'.anyDirty = false :=
  ⟨1, upWith [(COV_STAT_FLUSH_BUSY, 1)], State.at (upWith [(COV_STAT_FLUSH_BUSY, 1)]) 1, rfl, by decide⟩

theorem wit_flushLate : ∃ (t : Nat) (s s' : State), s' = s.at t ∧ s'.on COV_STAT_FLUSH_BUSY ∧ s'.cov.flushAt + ms 2200 < s'.now :=
  ⟨1000000000, upWith [(COV_STAT_FLUSH_BUSY, 1)], State.at (upWith [(COV_STAT_FLUSH_BUSY, 1)]) 1000000000, rfl, by decide⟩

theorem wit_fill : ∃ (layer : BitVec 2) (value : BitVec 8) (s : State), s.editBad 1 layer.toNat value.toNat = false :=
  ⟨0, 1, upEdit, by decide⟩

theorem wit_install : ∃ (layer : BitVec 2) (s : State), s.editBad 2 layer.toNat 0 = false :=
  ⟨0, upEdit, by decide⟩

theorem wit_writeBackTile : ∃ (e : Fin 1024) (t : Nat) (fail : Bool) (x : Tile) (s s' : State), s' = s.at t ∧ s'.tile e = some x ∧
    x.dirty ∧ s'.wbAllowed x ∧ s'.fieldIsOpen :=
  ⟨0, 1, false, { layer := 0, tx := 0, ty := 0, dirty := true }, upTile, State.at (upTile) 1, rfl, by decide⟩

/-! ### Witnesses: `TimerCommands` -/

theorem wit_tmrPost : ∃ (c : Fin 32) (s : State), s.tmrPosts.contains c.val = false :=
  ⟨3, up, by decide⟩

theorem wit_timerTick : ∃ (c : Fin 32) (t : Nat) (s s' : State), s' = s.at t ∧ s'.tmrRuns :=
  ⟨3, 1, up, State.at (up) 1, rfl, by decide⟩

theorem wit_filteredEdge : ∃ (c : Fin 32) (t : Nat) (lvl : Bool) (pins : BitVec 12) (s s' : State), s' = s.at t ∧
    ({ s' with captPins := pins.toNat }).tmrRuns ∧ ({ s' with captPins := pins.toNat }).tmrHeld c = false ∧
    ((tmrSync c { s' with captPins := pins.toNat }).tmrChan c).lvl ≠ lvl ∧
    1 < ((tmrSync c { s' with captPins := pins.toNat }).tmrChan c).entry.tMode :=
  ⟨3, 1, true, 0, upTmr, State.at (upTmr) 1, rfl, by decide⟩

theorem wit_swinScan : ∃ (t : Nat) (closed : BitVec 32) (oppose : BitVec 32) (s : State), s.tmrRuns ∧ s.on SWIN_CTL_EN ∧ t % ms (orOne
    (s.get SWIN_CTL_PER_MS)) = 0 :=
  ⟨0, 0, 0, upWith [(SWIN_CTL_EN, 1)], by decide⟩

theorem wit_adcTrigger : ∃ (t : Nat) (s s' : State), s' = s.at t ∧ s'.tmrRuns ∧ s'.on ADC_CTL_EN ∧ s'.adcDue t ∧
    s'.on ADC_STAT_BUSY = false :=
  ⟨0, upWith [(ADC_CTL_EN, 1)], State.at (upWith [(ADC_CTL_EN, 1)]) 0, rfl, by decide⟩

theorem wit_adcScanComplete : ∃ (t : Nat) (codes : List (BitVec 12)) (a : Nat) (s s' : State), s' = s.at t ∧ s'.scan.adcAt = some a ∧
    s'.tmrRuns ∧ a + us (s'.adcInputs.length + 2) ≤ s'.now :=
  ⟨1000000, [], 5, { up with scan := { up.scan with adcAt := some 5 } },
    ({ up with scan := { up.scan with adcAt := some 5 } } : State).at 1000000, rfl, by decide⟩

/-! ### Witnesses: `CanControllers` -/

theorem wit_initClear : ∃ (n : Fin 13) (s : State), s.canRuns n ∧ s.canState n = 0 ∧ s.on (CAN_CTL_INIT n) ∧ s.timingOk n :=
  ⟨2, upWith [(CAN_NBT_NBRP 2, 1), (CAN_NBT_NTSEG1 2, 60), (CAN_NBT_NTSEG2 2, 17), (CAN_NBT_NSJW 2, 9), (CAN_CTL_INIT 2, 1)], by decide⟩

theorem wit_initSet : ∃ (n : Fin 13) (s : State), s.canRuns n :=
  ⟨2, up, by decide⟩

theorem wit_romSet : ∃ (n : Fin 13) (s : State), s.canRuns n :=
  ⟨2, up, by decide⟩

theorem wit_romClear : ∃ (n : Fin 13) (s : State), s.canRuns n :=
  ⟨2, up, by decide⟩

theorem wit_busIdle : ∃ (n : Fin 13) (t : Nat) (s s' : State), s' = s.at t ∧ s'.canRuns n :=
  ⟨2, 1, up, State.at (up) 1, rfl, by decide⟩

theorem wit_recover : ∃ (n : Fin 13) (s : State), s.canRuns n ∧ s.canState n = 4 :=
  ⟨2, upWith [(CAN_STAT_STATE 2, 4)], by decide⟩

theorem wit_integrationComplete : ∃ (n : Fin 13) (t : Nat) (s s' : State), s' = s.at t ∧ s'.canRuns n :=
  ⟨2, 1, up, State.at (up) 1, rfl, by decide⟩

theorem wit_recoveryComplete : ∃ (n : Fin 13) (t : Nat) (s s' : State), s' = s.at t ∧ s'.canRuns n ∧ s'.canState n = 5 :=
  ⟨2, 1, upWith [(CAN_STAT_STATE 2, 5)], State.at (upWith [(CAN_STAT_STATE 2, 5)]) 1, rfl, by decide⟩

theorem wit_frameReceive : ∃ (n : Fin 13) (t : Nat) (f : BusFrame) (s s' : State), s' = s.at t ∧ s'.canHears n ∧ f.fdf = false :=
  ⟨2, 1, {}, upWith [(CAN_STAT_STATE 2, 2)], State.at (upWith [(CAN_STAT_STATE 2, 2)]) 1, rfl, by decide⟩

theorem wit_transmitStart : ∃ (n : Fin 13) (t : Nat) (o : TxFrom) (s s' : State), s' = s.at t ∧ s'.onBus n ∧ s'.pwr.mute = false ∧
    s'.canState n ≠ 6 ∧ (s'.can n).sending = none ∧ (s'.can n).pxWait = false ∧ s'.rateHeld n = false ∧ s'.gateHeld n = false ∧
    s'.offer n false = some o :=
  ⟨2, 1, .fifo, (upWith [(CAN_STAT_STATE 2, 2)]).setCan 2 { up.can 2 with fifo := [{}] },
    State.at ((upWith [(CAN_STAT_STATE 2, 2)]).setCan 2 { up.can 2 with fifo := [{}] }) 1, rfl, by decide⟩

theorem wit_frameSent : ∃ (n : Fin 13) (t : Nat) (tdcv : BitVec 7) (f : TxFrame) (s s' : State), s' = s.at t ∧ s'.onBus n ∧
    (s'.can n).current = some f ∧ (s'.can n).sending = some .fifo ∧ f.fdf = false :=
  ⟨2, 1, 0, {}, (upWith [(CAN_STAT_STATE 2, 2)]).setCan 2 { up.can 2 with fifo := [{}], sending := some .fifo },
    State.at ((upWith [(CAN_STAT_STATE 2, 2)]).setCan 2 { up.can 2 with fifo := [{}], sending := some .fifo }) 1, rfl, by decide⟩

theorem wit_arbitrationLost : ∃ (n : Fin 13) (t : Nat) (s s' : State), s' = s.at t ∧ s'.onBus n ∧ (s'.can n).sending.isSome :=
  ⟨2, 1, (upWith [(CAN_STAT_STATE 2, 2)]).setCan 2 { up.can 2 with fifo := [{}], sending := some .fifo },
    State.at ((upWith [(CAN_STAT_STATE 2, 2)]).setCan 2 { up.can 2 with fifo := [{}], sending := some .fifo }) 1, rfl, by decide⟩

theorem wit_busError : ∃ (n : Fin 13) (t : Nat) (code : Fin 7) (dataPhase : Bool) (weight : Fin 3) (s s' : State), s' = s.at t ∧
    s'.onBus n ∧ code ≠ 0 :=
  ⟨2, 1, 3, false, 1, upWith [(CAN_STAT_STATE 2, 2)], State.at (upWith [(CAN_STAT_STATE 2, 2)]) 1, rfl, by decide⟩

theorem wit_push : ∃ (n : Fin 13) (s : State), s.bit PRISM_GATE_CAN n = false :=
  ⟨2, up, by decide⟩

theorem wit_urgent : ∃ (n : Fin 13) (s : State), s.bit PRISM_GATE_CAN n = false :=
  ⟨2, up, by decide⟩

theorem wit_fifoFlush : ∃ (n : Fin 13) (s : State), s.bit PRISM_GATE_CAN n = false :=
  ⟨2, up, by decide⟩

theorem wit_urgAbort : ∃ (n : Fin 13) (s : State), s.bit PRISM_GATE_CAN n = false :=
  ⟨2, up, by decide⟩

theorem wit_mbPost : ∃ (n : Fin 13) (b : Fin 128) (s : State), s.bit PRISM_GATE_CAN n = false :=
  ⟨2, 5, up, by decide⟩

theorem wit_rxAck : ∃ (n : Fin 13) (b : Fin 128) (s : State), s.bit PRISM_GATE_CAN n = false :=
  ⟨2, 5, up, by decide⟩

theorem wit_referenceSlot : ∃ (n : Fin 13) (t : Nat) (s : State), (s.at t).canRuns n ∧ s.get (CAN_STAT_ROLE n) = 2 ∧ t % s.refPer n = 0 :=
  ⟨2, 0, upWith [(CAN_STAT_ROLE 2, 2)], by decide⟩

theorem wit_refMiss : ∃ (n : Fin 13) (t : Nat) (s s' : State), s' = s.at t ∧ s'.canRuns n ∧ s'.on (CAN_REF_CTL_EN n) ∧
    (s'.can n).refTold = false ∧ 2 * (s'.can n).refAt + 3 * s'.refPer n ≤ 2 * s'.now :=
  ⟨2, 1000000000, upWith [(CAN_REF_CTL_EN 2, 1)], State.at (upWith [(CAN_REF_CTL_EN 2, 1)]) 1000000000, rfl, by decide⟩

theorem wit_txdDominantTimeout : ∃ (n : Fin 13) (t : Nat) (s s' : State), s' = s.at t ∧ s'.canRuns n :=
  ⟨2, 1, up, State.at (up) 1, rfl, by decide⟩

/-! ### Witnesses: `NetworkManagement` -/

theorem wit_nmEn : ∃ (n : Fin 13) (en : Bool) (t : Nat) (s s' : State), s' = s.at t ∧ s'.nmRuns :=
  ⟨2, true, 1, up, State.at (up) 1, rfl, by decide⟩

theorem wit_nmReq : ∃ (n : Fin 13) (req : Bool) (t : Nat) (s s' : State), s' = s.at t ∧ s'.nmRuns :=
  ⟨2, true, 1, up, State.at (up) 1, rfl, by decide⟩

theorem wit_rallyTimer : ∃ (n : Fin 13) (t : Nat) (s s' : State), s' = s.at t ∧ s'.nmRuns ∧ s'.nmState n = 2 ∧
    (s'.nm n).rallyAt + ms (orOne (s'.get (NM_CTL_RALLY_MS n))) ≤ s'.now :=
  ⟨2, 1000000000, upWith [(NM_STAT_STATE 2, 2)], State.at (upWith [(NM_STAT_STATE 2, 2)]) 1000000000, rfl, by decide⟩

theorem wit_networkTimerExpiry : ∃ (n : Fin 13) (t : Nat) (s s' : State), s' = s.at t ∧ s'.nmRuns ∧ s'.nmState n = 3 ∧
    (s'.nm n).fwAt = none ∧ (s'.nm n).tmoAt + ms (s'.get (NM_TMR_TMO_MS n)) ≤ s'.now :=
  ⟨2, 1000000000, upWith [(NM_STAT_STATE 2, 3)], State.at (upWith [(NM_STAT_STATE 2, 3)]) 1000000000, rfl, by decide⟩

theorem wit_prepareSleepExpiry : ∃ (n : Fin 13) (t : Nat) (s s' : State), s' = s.at t ∧ s'.nmRuns ∧ s'.nmState n = 4 ∧
    (s'.nm n).prepAt + ms (s'.get (NM_TMR_WAIT_MS n)) ≤ s'.now :=
  ⟨2, 1000000000, upWith [(NM_STAT_STATE 2, 4)], State.at (upWith [(NM_STAT_STATE 2, 4)]) 1000000000, rfl, by decide⟩

theorem wit_busLeave : ∃ (n : Fin 13) (t : Nat) (s s' : State), s' = s.at t ∧ s'.nmRuns ∧ s'.nmState n = 4 ∧ (s'.nm n).leaving ∧
    (s'.can n).sending = none :=
  ⟨2, 1, (upWith [(NM_STAT_STATE 2, 4)]).modNm 2 (fun y => { y with leaving := true }),
    State.at ((upWith [(NM_STAT_STATE 2, 4)]).modNm 2 (fun y => { y with leaving := true })) 1, rfl, by decide⟩

theorem wit_busWake : ∃ (n : Fin 13) (k : WakeKind) (t : Nat) (s s' : State), s' = s.at t ∧ s'.alive ∧ s'.power ≠ .off :=
  ⟨2, .pattern, 1, up, State.at (up) 1, rfl, by decide⟩

theorem wit_wakeUpFrame : ∃ (n : Fin 6) (t : Nat) (f : BusFrame) (s s' : State), s' = s.at t ∧ s'.alive ∧ s'.power ≠ .off ∧
    s'.on (NM_SW_ID_EN n) ∧ s'.nmState n = 1 ∧ f.fdf = false :=
  ⟨2, 1, {}, upWith [(NM_SW_ID_EN 2, 1), (NM_STAT_STATE 2, 1)], State.at (upWith [(NM_SW_ID_EN 2, 1), (NM_STAT_STATE 2, 1)]) 1, rfl,
    by decide⟩

theorem wit_falseWake : ∃ (n : Fin 13) (t : Nat) (a : Nat) (s s' : State), s' = s.at t ∧ s'.nmRuns ∧ s'.nmState n = 3 ∧
    (s'.nm n).fwAt = some a ∧ a + ms (s'.get (NM_FW_FW_TMO_MS n)) ≤ s'.now ∧ s'.get (NM_FW_FW_LIM n) = 0 :=
  ⟨2, 1000000000, 0, (upWith [(NM_STAT_STATE 2, 3), (NM_FW_FW_LIM 2, 0)]).modNm 2 (fun y => { y with fwAt := some 0 }),
    State.at ((upWith [(NM_STAT_STATE 2, 3), (NM_FW_FW_LIM 2, 0)]).modNm 2 (fun y => { y with fwAt := some 0 })) 1000000000, rfl,
    by decide⟩

/-! ### Witnesses: `OtherLinks` -/

theorem wit_linSlot : ∃ (m : Fin 6) (t : Nat) (s s' : State), s' = s.at t ∧ s'.linksRun ∧ s'.linState m = 1 ∧ s'.on (LIN_CTL_CMDR m) ∧
    (s'.lin m).slotAt + (s'.lin m).slotLen ≤ s'.now ∧ (s'.lin m).frame = none ∧ 64 * s'.get (LIN_SCHED_BASE m) = (s'.lin m).base ∧
    (s'.linSlot (s'.lin m).base (s'.lin m).slot).1 = 1 :=
  ⟨1, 1, upLin, State.at (upLin) 1, rfl, by decide⟩

theorem wit_linFrame : ∃ (m : Fin 6) (t : Nat) (result : Fin 8) (data : List Byte) (id : Nat) (s s' : State), s' = s.at t ∧
    (s'.lin m).frame = some id ∧ s'.linksRun ∧ s'.pwr.mute = false ∧ s'.linState m = 1 ∧ (s'.lin m).sleepCmd = false ∧ result ≠ 0 :=
  ⟨1, 1, 3, [], 5, (upWith [(LIN_STAT_STATE 1, 1)]).setLin 1 { up.lin 1 with frame := some 5 },
    State.at ((upWith [(LIN_STAT_STATE 1, 1)]).setLin 1 { up.lin 1 with frame := some 5 }) 1, rfl, by decide⟩

theorem wit_linBreak : ∃ (m : Fin 6) (t : Nat) (dominant : Nat) (rate : Nat) (id : BitVec 6) (s s' : State), s' = s.at t ∧ s'.linksRun ∧
    s'.pwr.mute = false ∧ s'.linState m = 1 ∧ s'.on (LIN_CTL_CMDR m) = false ∧ 11 ≤ dominant :=
  ⟨1, 1, 13, 19200, 5, upWith [(LIN_STAT_STATE 1, 1)], State.at (upWith [(LIN_STAT_STATE 1, 1)]) 1, rfl, by decide⟩

theorem wit_linInactivity : ∃ (m : Fin 6) (t : Nat) (s s' : State), s' = s.at t ∧ s'.linksRun ∧ s'.linState m = 1 ∧
    (s'.lin m).actAt + sec 4 ≤ s'.now :=
  ⟨1, 1000000000, upWith [(LIN_STAT_STATE 1, 1)], State.at (upWith [(LIN_STAT_STATE 1, 1)]) 1000000000, rfl, by decide⟩

theorem wit_linWake : ∃ (m : Fin 6) (t : Nat) (s s' : State), s' = s.at t ∧ s'.linksRun ∧ s'.linState m = 2 :=
  ⟨1, 1, upWith [(LIN_STAT_STATE 1, 2)], State.at (upWith [(LIN_STAT_STATE 1, 2)]) 1, rfl, by decide⟩

theorem wit_wakeRx : ∃ (m : Fin 6) (t : Nat) (dur : Nat) (s s' : State), s' = s.at t ∧ s'.linksRun ∧ s'.alive ∧ s'.linState m = 2 ∧
    us 150 ≤ dur :=
  ⟨1, 1, 40000, upWith [(LIN_STAT_STATE 1, 2)], State.at (upWith [(LIN_STAT_STATE 1, 2)]) 1, rfl, by decide⟩

theorem wit_linDominantTimeout : ∃ (m : Fin 6) (t : Nat) (s s' : State), s' = s.at t ∧ s'.linksRun ∧ s'.on (LIN_CTL_EN m) :=
  ⟨1, 1, upWith [(LIN_CTL_EN 1, 1)], State.at (upWith [(LIN_CTL_EN 1, 1)]) 1, rfl, by decide⟩

theorem wit_ethTxPush : ∃ (e : Fin 2) (s : State), s.ethRuns e :=
  ⟨1, upWith [(PRISM_STAT_SRC, 0), (ETH_CTL_EN 1, 1)], by decide⟩

theorem wit_ethFrameSent : ∃ (e : Fin 2) (t : Nat) (ts : Nat) (s s' : State), s' = s.at t ∧ s'.ethRuns e ∧ (s'.eth e).sending ∧
    inShared (s'.ethTxDesc e) ∧ (s'.wordN (s'.ethTxDesc e + 4)).testBit 31 :=
  ⟨1, 1, 1, upEth, State.at (upEth) 1, rfl, by decide⟩

theorem wit_ethFrameReceive : ∃ (e : Fin 2) (t : Nat) (ts : Nat) (bytes : List Byte) (s s' : State), s' = s.at t ∧ s'.ethRuns e ∧
    s'.on (ETH_STAT_LINK e) ∧ ethSupported bytes ∧ s'.ethAccepts e bytes :=
  ⟨1, 1, 1, (List.replicate 60 0xFF), upWith [(PRISM_STAT_SRC, 0), (ETH_CTL_EN 1, 1), (ETH_STAT_LINK 1, 1)],
    State.at (upWith [(PRISM_STAT_SRC, 0), (ETH_CTL_EN 1, 1), (ETH_STAT_LINK 1, 1)]) 1, rfl, by decide⟩

theorem wit_ethLinkLost : ∃ (e : Fin 2) (t : Nat) (s s' : State), s' = s.at t ∧ s'.on (ETH_STAT_LINK e) ∧ (ethDown e s').alive ∧
    (ethDown e s').power = .run :=
  ⟨1, 1, upWith [(ETH_STAT_LINK 1, 1)], State.at (upWith [(ETH_STAT_LINK 1, 1)]) 1, rfl, by decide⟩

theorem wit_ethLinkUp : ∃ (e : Fin 2) (t : Nat) (sqi : BitVec 3) (s s' : State), s' = s.at t ∧ s'.ethRuns e :=
  ⟨1, 1, 5, upWith [(PRISM_STAT_SRC, 0), (ETH_CTL_EN 1, 1)], State.at (upWith [(PRISM_STAT_SRC, 0), (ETH_CTL_EN 1, 1)]) 1, rfl, by decide⟩

theorem wit_sentFrame : ∃ (r : Fin 10) (t : Nat) (edge : Nat) (cal : Nat) (nibs : List Nat) (crc : Bool) (s s' : State), s' = s.at t ∧
    s'.sentRuns r ∧ s'.sentCheck r cal nibs crc = 0 :=
  ⟨1, 1, 1, 16800, [12, 12, 12, 12, 12, 12, 12], true, upSent, State.at (upSent) 1, rfl, by decide⟩

theorem wit_sentSilence : ∃ (r : Fin 10) (t : Nat) (s s' : State), s' = s.at t ∧ s'.sentRuns r ∧ (s'.sent r).heardAt + ms 100 ≤ s'.now :=
  ⟨1, 1000000000, upWith [(SENT_CFG_EN 1, 1)], State.at (upWith [(SENT_CFG_EN 1, 1)]) 1000000000, rfl, by decide⟩

theorem wit_uartRxByte : ∃ (u : Fin 4) (t : Nat) (b : Byte) (s s' : State), s' = s.at t ∧ s'.uartRuns u ∧ (s'.uart u).rx.length < 512 ∧
    s'.on (UART_CTL_DATA7 u) = false :=
  ⟨1, 1, 5, upWith [(UART_CTL_EN 1, 1)], State.at (upWith [(UART_CTL_EN 1, 1)]) 1, rfl, by decide⟩

theorem wit_uartIdle : ∃ (u : Fin 4) (t : Nat) (a : Nat) (s s' : State), s' = s.at t ∧ (s'.uart u).stopAt = some a ∧ s'.uartRuns u ∧
    a + s'.uartTime u (orOne (s'.get (UART_CTL_IDLE_BITS u))) ≤ s'.now :=
  ⟨1, 1000000000, 0, (upWith [(UART_CTL_EN 1, 1)]).setUart 1 { up.uart 1 with stopAt := some 0 },
    State.at ((upWith [(UART_CTL_EN 1, 1)]).setUart 1 { up.uart 1 with stopAt := some 0 }) 1000000000, rfl, by decide⟩

theorem wit_uartPps : ∃ (u : Fin 4) (t : Nat) (s s' : State), s' = s.at t ∧ s'.uartRuns u ∧ s'.on (UART_CTL_PPS_EN u) ∧
    s'.get (UART_CTL_PPS u) ≤ 11 :=
  ⟨1, 1, upWith [(UART_CTL_EN 1, 1), (UART_CTL_PPS_EN 1, 1)], State.at (upWith [(UART_CTL_EN 1, 1), (UART_CTL_PPS_EN 1, 1)]) 1, rfl,
    by decide⟩

/-! ### Witnesses: `AccessCommands` -/

theorem wit_touch : ∃ (e : Fin 4) (t : Nat) (over' : List Nat) (s s' : State), s' = s.at t ∧ s'.accOn ∧ s'.capOn e ∧ s'.power = .run ∧
    s'.bit ACC_CAP_STAT_SUSP e = false ∧ 3 ≤ (over'.take 4).countP (fun x => decide (s'.capTh e < x)) ∧
    (s'.putBit ACC_CAP_STAT_TOUCH e true).asleep = false :=
  ⟨1, 1, [99, 99, 99], upAccCap, State.at (upAccCap) 1, rfl, by decide⟩

theorem wit_touchSuspendEnd : ∃ (e : Fin 4) (t : Nat) (a : Nat) (s s' : State), s' = s.at t ∧ (s'.pad e).suspEnd = some a ∧ a ≤ s'.now :=
  ⟨1, 5, 5, up.setPad 1 { up.pad 1 with suspEnd := some 5 }, State.at (up.setPad 1 { up.pad 1 with suspEnd := some 5 }) 5, rfl, by decide⟩

theorem wit_go : ∃ (zone : Fin 4) (t : Nat) (s s' : State), s' = s.at t ∧ s'.accOn :=
  ⟨1, 1, upAcc, State.at (upAcc) 1, rfl, by decide⟩

theorem wit_replySlotEnd : ∃ (t : Nat) (c : SlotClass) (x : Exchange) (s s' : State), s' = s.at t ∧ s'.acc.exch = some x ∧ s'.accOn ∧
    x.rechal = none ∧ x.next < 7 ∧ x.window + ms (11 * x.next + 10) ≤ s'.now :=
  ⟨1000000000, .silent, { zone := 0 }, upAcc.setExch (some { zone := 0 }), State.at (upAcc.setExch (some { zone := 0 })) 1000000000, rfl,
    by decide⟩

theorem wit_keeperVerdict : ∃ (t : Nat) (x : Exchange) (r : Reply) (l : List Reply) (s s' : State), s' = s.at t ∧ s'.acc.exch = some x ∧
    s'.accOn ∧ x.wait = r :: l ∧ ¬((x.judge r (s'.verdict r)).rechal = none ∧ 8 ≤ (x.judge r (s'.verdict r)).next ∧
    (x.judge r (s'.verdict r)).wait = []) :=
  ⟨1, { zone := 0, wait := [witReply] }, witReply, [], upAcc.setExch (some { zone := 0, wait := [witReply] }),
    State.at (upAcc.setExch (some { zone := 0, wait := [witReply] })) 1, rfl, by decide⟩

theorem wit_keeperTmo : ∃ (t : Nat) (x : Exchange) (r : Reply) (l : List Reply) (s s' : State), s' = s.at t ∧ s'.acc.exch = some x ∧
    s'.accOn ∧ x.wait = r :: l ∧ r.at_ + ms 2 < s'.now :=
  ⟨1000000000, { zone := 0, wait := [witReply] }, witReply, [], upAcc.setExch (some { zone := 0, wait := [witReply] }),
    State.at (upAcc.setExch (some { zone := 0, wait := [witReply] })) 1000000000, rfl, by decide⟩

theorem wit_lockoutEnd : ∃ (t : Nat) (a : Nat) (s s' : State), s' = s.at t ∧ s'.acc.lockEnd = some a ∧ a ≤ s'.now :=
  ⟨5, 5, { up with acc := { up.acc with lockEnd := some 5 } }, ({ up with acc := { up.acc with lockEnd := some 5 } } : State).at 5, rfl,
    by decide⟩

theorem wit_lockoutSave : ∃ (t : Nat) (s s' : State), s' = s.at t ∧ s'.alive ∧ s'.locked :=
  ⟨1, { up with acc := { up.acc with lockEnd := some 5 } }, ({ up with acc := { up.acc with lockEnd := some 5 } } : State).at 1, rfl,
    by decide⟩

theorem wit_authHoldExpiry : ∃ (t : Nat) (a : Nat) (s s' : State), s' = s.at t ∧ s'.acc.authAt = some a ∧
    a + ms (s'.get ACC_TIMING_AUTH_HOLD_MS) ≤ s'.now :=
  ⟨100000000000, 5, { up with acc := { up.acc with authAt := some 5 } },
    ({ up with acc := { up.acc with authAt := some 5 } } : State).at 100000000000, rfl, by decide⟩

theorem wit_immoHoldExpiry : ∃ (t : Nat) (a : Nat) (s s' : State), s' = s.at t ∧ s'.immoOk ∧ s'.pwr.ignLow = some a ∧
    a + ms (s'.get ACC_TIMING_IMMO_HOLD_MS) ≤ s'.now :=
  ⟨100000000000, 5, { up with immoOk := true, pwr := { up.pwr with ignLow := some 5 } },
    ({ up with immoOk := true, pwr := { up.pwr with ignLow := some 5 } } : State).at 100000000000, rfl, by decide⟩

theorem wit_accEn : ∃ (s : State), s.alive :=
  ⟨up, by decide⟩

theorem wit_accHealth : ∃ (c : Int) (t : Nat) (s s' : State), s' = s.at t ∧ s'.alive ∧ 150 ≤ c :=
  ⟨150, 1, up, State.at (up) 1, rfl, by decide⟩

theorem wit_lfDrv : ∃ (i : Fin 6) (bad : Bool) (mA : Nat) (t : Nat) (s s' : State), s' = s.at t ∧ s'.accOn ∧ s'.bit ACC_CTL_LF_EN i ∧
    1500 < mA :=
  ⟨0, false, 1501, 1, upWith [(ACC_CTL_EN, 1), (ACC_CTL_LF_EN, 1)], State.at (upWith [(ACC_CTL_EN, 1), (ACC_CTL_LF_EN, 1)]) 1, rfl,
    by decide⟩

theorem wit_uhfSynthesiserUnlock : ∃ (t : Nat) (s s' : State), s' = s.at t ∧ s'.accOn :=
  ⟨1, upAcc, State.at (upAcc) 1, rfl, by decide⟩

theorem wit_electrodeShort : ∃ (e : Fin 5) (t : Nat) (s s' : State), s' = s.at t ∧ s'.accOn ∧ e ≠ 4 :=
  ⟨1, 1, upAcc, State.at (upAcc) 1, rfl, by decide⟩

theorem wit_lfDriveSupply : ∃ (t : Nat) (s s' : State), s' = s.at t ∧ s'.power = .run :=
  ⟨1, up, State.at (up) 1, rfl, by decide⟩

/-! ### Witnesses: `UmpireCommands` -/

theorem wit_quietExpiry : ∃ (n : Fin 512) (t : Nat) (s s' : State), s' = s.at t ∧ (s'.src n).state = .active ∧
    (s'.src n).last + s'.quiet n ≤ s'.now :=
  ⟨5, 1000000000, up.setSrc 5 { up.src 5 with state := .active, code := 2 },
    State.at (up.setSrc 5 { up.src 5 with state := .active, code := 2 }) 1000000000, rfl, by decide⟩

theorem wit_recCntForget : ∃ (n : Fin 512) (t : Nat) (s s' : State), s' = s.at t ∧ s'.get UMP_CFG_FORGET_MIN ≠ 0 ∧
    (s'.src n).last + sec (60 * s'.get UMP_CFG_FORGET_MIN) ≤ s'.now :=
  ⟨5, 100000000000000, upWith [(UMP_CFG_FORGET_MIN, 1)], State.at (upWith [(UMP_CFG_FORGET_MIN, 1)]) 100000000000000, rfl, by decide⟩

theorem wit_safeReq : ∃ (s : State), s.alive :=
  ⟨up, by decide⟩

/-! ### Witnesses: `KeeperMailbox` -/

theorem wit_getIdentity : ∃ (t : Nat) (s s' : State), s' = s.at t ∧ s'.keeperOn ∧ s'.on KMB_STAT_BUSY = false :=
  ⟨1, up, State.at (up) 1, rfl, by decide⟩

theorem wit_getRandom : ∃ (t : Nat) (count : BitVec 32) (s s' : State), s' = s.at t ∧ s'.keeperOn ∧ s'.on KMB_STAT_BUSY = false :=
  ⟨1, 8, up, State.at (up) 1, rfl, by decide⟩

theorem wit_tokenEnrol : ∃ (t : Nat) (idx : BitVec 8) (zone : BitVec 8) (token : BitVec 32) (epoch : BitVec 32) (count : BitVec 32) (sig
    : Bool) (s s' : State), s' = s.at t ∧ s'.keeperOn ∧ s'.on KMB_STAT_BUSY = false :=
  ⟨1, 1, 1, 1, 1, 1, true, up, State.at (up) 1, rfl, by decide⟩

theorem wit_tokenRevoke : ∃ (t : Nat) (idx : BitVec 8) (token : BitVec 32) (epoch : BitVec 32) (sig : Bool) (s s' : State), s' = s.at t ∧
    s'.keeperOn ∧ s'.on KMB_STAT_BUSY = false :=
  ⟨1, 1, 1, 1, true, up, State.at (up) 1, rfl, by decide⟩

theorem wit_confirm : ∃ (t : Nat) (s s' : State), s' = s.at t ∧ s'.keeperOn ∧ s'.on KMB_STAT_BUSY = false :=
  ⟨1, up, State.at (up) 1, rfl, by decide⟩

theorem wit_abandon : ∃ (t : Nat) (s s' : State), s' = s.at t ∧ s'.keeperOn ∧ s'.on KMB_STAT_BUSY = false :=
  ⟨1, up, State.at (up) 1, rfl, by decide⟩

theorem wit_mailboxComplete : ∃ (t : Nat) (valid : Bool) (codes : BitVec 48) (q : KmbReq × Nat) (s s' : State), s' = s.at t ∧
    s'.keeper.cmd = some q ∧ s'.keeperOn ∧ s'.keeper.trngOff = false :=
  ⟨1, true, 0, (.identity, 0), up.setKeeper { up.keeper with cmd := some (.identity, 0) },
    State.at (up.setKeeper { up.keeper with cmd := some (.identity, 0) }) 1, rfl, by decide⟩

theorem wit_portToken : ∃ (t : Nat) (tok : DebugToken) (s s' : State), s' = s.at t ∧ s'.keeperOn :=
  ⟨1, { machine := 0, nonce := 0, epoch := 0, perms := 0, life := 0, sig := false }, up, State.at (up) 1, rfl, by decide⟩

theorem wit_tokenEnd : ∃ (t : Nat) (a : Nat) (s s' : State), s' = s.at t ∧ s'.keeper.tokenEnd = some a ∧ a ≤ s'.now :=
  ⟨5, 5, up.setKeeper { up.keeper with tokenEnd := some 5 }, State.at (up.setKeeper { up.keeper with tokenEnd := some 5 }) 5, rfl,
    by decide⟩

theorem wit_sessionTimeout : ∃ (t : Nat) (x : Session) (s s' : State), s' = s.at t ∧ s'.keeper.session = some x ∧
    x.heard + sec 10 ≤ s'.now :=
  ⟨10000000000, { tool := 5, nonce := 0, heard := 0 },
    up.setKeeper { up.keeper with session := some { tool := 5, nonce := 0, heard := 0 } },
    State.at (up.setKeeper { up.keeper with session := some { tool := 5, nonce := 0, heard := 0 } }) 10000000000, rfl, by decide⟩

theorem wit_trngFailure : ∃ (t : Nat) (s s' : State), s' = s.at t ∧ s'.keeperOn :=
  ⟨1, up, State.at (up) 1, rfl, by decide⟩

theorem wit_trngResume : ∃ (t : Nat) (s s' : State), s' = s.at t ∧ s'.keeperOn ∧ s'.keeper.trngOff :=
  ⟨1, up.setKeeper { up.keeper with trngOff := true }, State.at (up.setKeeper { up.keeper with trngOff := true }) 1, rfl, by decide⟩

theorem wit_entropy : ∃ (t : Nat) (q : KmbReq × Nat) (s s' : State), s' = s.at t ∧ s'.keeper.cmd = some q ∧ needsRandom q.1 ∧
    s'.keeper.trngOff ∧ q.2 + ms 50 ≤ s'.now :=
  ⟨1000000000, (.random 8, 0), up.setKeeper { up.keeper with trngOff := true, cmd := some (.random 8, 0) },
    State.at (up.setKeeper { up.keeper with trngOff := true, cmd := some (.random 8, 0) }) 1000000000, rfl, by decide⟩

/-! ### Witnesses: `KeeperService` -/

theorem wit_hello : ∃ (tool : Fin 128) (seq : BitVec 8) (t : Nat) (s s' : State), s' = s.at t ∧ s'.svcHears ∧ s'.session = none :=
  ⟨5, 1, 1, upSvc, State.at (upSvc) 1, rfl, by decide⟩

theorem wit_attest : ∃ (tool : Fin 128) (seq : BitVec 8) (t : Nat) (nonce : BitVec 128) (x : Session) (s s' : State), s' = s.at t ∧
    s'.svcHears ∧ s'.session = some x ∧ x.tool = tool.val :=
  ⟨5, 1, 1, 7, { tool := 5, nonce := 0, heard := 0 }, upSes, State.at (upSes) 1, rfl, by decide⟩

theorem wit_serviceGetIdentity : ∃ (tool : Fin 128) (seq : BitVec 8) (t : Nat) (x : Session) (s s' : State), s' = s.at t ∧ s'.svcHears ∧
    s'.session = some x ∧ x.tool = tool.val :=
  ⟨5, 1, 1, { tool := 5, nonce := 0, heard := 0 }, upSes, State.at (upSes) 1, rfl, by decide⟩

theorem wit_enrolOwner : ∃ (tool : Fin 128) (seq : BitVec 8) (t : Nat) (key : BitVec 512) (x : Session) (s s' : State), s' = s.at t ∧
    s'.svcHears ∧ s'.session = some x ∧ x.tool = tool.val ∧ s'.vault.owner = none ∧ s'.vault.damaged = false :=
  ⟨5, 1, 1, 9, { tool := 5, nonce := 0, heard := 0 }, upSes, State.at (upSes) 1, rfl, by decide⟩

theorem wit_transfer : ∃ (tool : Fin 128) (seq : BitVec 8) (t : Nat) (key : BitVec 512) (epoch : BitVec 32) (x : Session) (s s' : State),
    s' = s.at t ∧ s'.svcHears ∧ s'.session = some x ∧ x.tool = tool.val ∧ s'.vault.owner.isSome ∧ s'.vault.phase = 0 ∧
    epoch.toNat = s'.vault.epoch + 1 :=
  ⟨5, 1, 1, 9, 1, { tool := 5, nonce := 0, heard := 0 }, { upSes with vault := { upSes.vault with owner := some 3 } },
    ({ upSes with vault := { upSes.vault with owner := some 3 } } : State).at 1, rfl, by decide⟩

theorem wit_dlStart : ∃ (tool : Fin 128) (seq : BitVec 8) (t : Nat) (len : BitVec 32) (x : Session) (s s' : State), s' = s.at t ∧
    s'.svcHears ∧ s'.session = some x ∧ x.tool = tool.val ∧ s'.vault.phase < 3 ∧ s'.sub.op = 0 ∧ len.toNat ≤ 17 * 1048576 :=
  ⟨5, 1, 1, 100, { tool := 5, nonce := 0, heard := 0 }, upSes, State.at (upSes) 1, rfl, by decide⟩

theorem wit_dlData : ∃ (tool : Fin 128) (seq : BitVec 8) (t : Nat) (off : BitVec 32) (data : List Byte) (x : Session) (s s' : State),
    s' = s.at t ∧ s'.svcHears ∧ s'.session = some x ∧ x.tool = tool.val ∧ s'.vault.phase = 1 ∧ s'.vault.dlDone = false ∧
    s'.keeper.dlOpen ∧ data.length = 56 ∧ off.toNat = s'.vault.dlNext :=
  ⟨5, 1, 1, 0, (List.replicate 56 1), { tool := 5, nonce := 0, heard := 0 },
    { upSes with vault := { upSes.vault with phase := 1, dlLen := 1000 }, keeper := { upSes.keeper with dlOpen := true } },
    ({ upSes with vault := { upSes.vault with phase := 1, dlLen := 1000 }, keeper := { upSes.keeper with dlOpen := true } } : State).at
    1, rfl, by decide⟩

theorem wit_verify : ∃ (tool : Fin 128) (seq : BitVec 8) (t : Nat) (x : Session) (s s' : State), s' = s.at t ∧ s'.svcHears ∧
    s'.session = some x ∧ x.tool = tool.val ∧ s'.vault.phase = 1 ∧ s'.vault.dlDone :=
  ⟨5, 1, 1, { tool := 5, nonce := 0, heard := 0 }, { upSes with vault := { upSes.vault with phase := 1, dlDone := true } },
    ({ upSes with vault := { upSes.vault with phase := 1, dlDone := true } } : State).at 1, rfl, by decide⟩

set_option maxRecDepth 100000 in
theorem wit_verifyComplete : ∃ (t : Nat) (sig : Bool) (digests : Bool) (tlSet : Bool) (s s' : State), s' = s.at t ∧ s'.keeperOn ∧
    s'.keeper.verifying ∧ s'.vault.phase = 1 ∧ s'.vault.dlDone ∧ s'.containerOk sig digests tlSet :=
  ⟨1, true, true, true, upStaged, State.at (upStaged) 1, rfl, by decide⟩

theorem wit_activate : ∃ (tool : Fin 128) (seq : BitVec 8) (t : Nat) (x : Session) (s s' : State), s' = s.at t ∧ s'.svcHears ∧
    s'.session = some x ∧ x.tool = tool.val ∧ s'.vault.phase = 2 :=
  ⟨5, 1, 1, { tool := 5, nonce := 0, heard := 0 }, { upSes with vault := { upSes.vault with phase := 2 } },
    ({ upSes with vault := { upSes.vault with phase := 2 } } : State).at 1, rfl, by decide⟩

theorem wit_rollback : ∃ (tool : Fin 128) (seq : BitVec 8) (t : Nat) (x : Session) (s s' : State), s' = s.at t ∧ s'.svcHears ∧
    s'.session = some x ∧ x.tool = tool.val ∧ s'.vault.phase = 4 :=
  ⟨5, 1, 1, { tool := 5, nonce := 0, heard := 0 }, { upSes with vault := { upSes.vault with phase := 4 } },
    ({ upSes with vault := { upSes.vault with phase := 4 } } : State).at 1, rfl, by decide⟩

theorem wit_serviceConfirm : ∃ (tool : Fin 128) (seq : BitVec 8) (t : Nat) (x : Session) (s s' : State), s' = s.at t ∧ s'.svcHears ∧
    s'.session = some x ∧ x.tool = tool.val ∧ s'.mayConfirm :=
  ⟨5, 1, 1, { tool := 5, nonce := 0, heard := 0 },
    { upSes with vault := { upSes.vault with phase := 4 }, frame := { upSes.frame with started := true } },
    ({ upSes with vault := { upSes.vault with phase := 4 }, frame := { upSes.frame with started := true } } : State).at 1, rfl, by decide⟩

theorem wit_dbgNonce : ∃ (tool : Fin 128) (seq : BitVec 8) (t : Nat) (x : Session) (s s' : State), s' = s.at t ∧ s'.svcHears ∧
    s'.session = some x ∧ x.tool = tool.val :=
  ⟨5, 1, 1, { tool := 5, nonce := 0, heard := 0 }, upSes, State.at (upSes) 1, rfl, by decide⟩

theorem wit_dbgToken : ∃ (tool : Fin 128) (seq : BitVec 8) (t : Nat) (tok : DebugToken) (x : Session) (s s' : State), s' = s.at t ∧
    s'.svcHears ∧ s'.session = some x ∧ x.tool = tool.val :=
  ⟨5, 1, 1, { machine := 0, nonce := 0, epoch := 0, perms := 0, life := 0, sig := false }, { tool := 5, nonce := 0, heard := 0 }, upSes,
    State.at (upSes) 1, rfl, by decide⟩

/-! ### Witnesses: `JournalCommands` -/

theorem wit_submit : ∃ (t : Nat) (s s' : State), s' = s.at t ∧ s'.alive ∧ s'.on JRNL_CTL_EN ∧ s'.on JRNL_STAT_FENCED = false ∧
    s'.on JRNL_STAT_READY ∧ s'.jrnl.queue.length < 64 ∧ s'.on (JRNL_SRC_CFG_EN (s'.get JRNL_SUB_HDR_SRC)) ∧
    s'.get JRNL_SUB_HDR_KIND ≠ 0 ∧ s'.jrnl.hdrBad = false ∧ s'.get JRNL_SUB_SEQ_SEQ = (s'.jrec (s'.get JRNL_SUB_HDR_SRC)).next ∧
    s'.openItems < 49088 ∧ s'.openOf (s'.get JRNL_SUB_HDR_SRC) < orOne (s'.get (JRNL_SRC_CFG_MAX_OPEN (s'.get JRNL_SUB_HDR_SRC))) :=
  ⟨1, upWith [(JRNL_CTL_EN, 1), (JRNL_STAT_READY, 1), (JRNL_SRC_CFG_EN 0, 1), (JRNL_SUB_HDR_KIND, 1), (JRNL_SUB_SEQ_SEQ, 1),
    (JRNL_SRC_CFG_MAX_OPEN 0, 4)], State.at (upWith [(JRNL_CTL_EN, 1), (JRNL_STAT_READY, 1), (JRNL_SRC_CFG_EN 0, 1),
    (JRNL_SUB_HDR_KIND, 1), (JRNL_SUB_SEQ_SEQ, 1), (JRNL_SRC_CFG_MAX_OPEN 0, 4)]) 1, rfl, by decide⟩

theorem wit_claim : ∃ (i : BitVec 16) (task : BitVec 8) (t : Nat) (s s' : State), s' = s.at t ∧ s'.alive ∧ s'.on JRNL_CTL_EN ∧
    s'.on JRNL_STAT_FENCED = false ∧ s'.on JRNL_STAT_READY ∧ s'.jrnl.queue.length < 64 ∧ (s'.item i.toNat).state = 1 ∧
    (s'.item i.toNat).seq = s'.get JRNL_ARG_ARG :=
  ⟨3, 1, 1, upJrnl 1, State.at (upJrnl 1) 1, rfl, by decide⟩

theorem wit_done : ∃ (i : BitVec 16) (outcome : BitVec 4) (task : BitVec 8) (t : Nat) (s s' : State), s' = s.at t ∧ s'.alive ∧
    s'.on JRNL_CTL_EN ∧ s'.on JRNL_STAT_FENCED = false ∧ s'.on JRNL_STAT_READY ∧ s'.jrnl.queue.length < 64 ∧
    (s'.item i.toNat).state = 2 ∧ (s'.item i.toNat).seq = s'.get JRNL_ARG_ARG ∧ (s'.item i.toNat).claimant = task.toNat ∧
    1 ≤ outcome.toNat ∧ outcome.toNat ≤ 3 :=
  ⟨3, 1, 1, 1, upJrnl 2, State.at (upJrnl 2) 1, rfl, by decide⟩

theorem wit_journalCancel : ∃ (i : BitVec 16) (t : Nat) (s s' : State), s' = s.at t ∧ s'.alive ∧ s'.on JRNL_CTL_EN ∧
    s'.on JRNL_STAT_FENCED = false ∧ s'.on JRNL_STAT_READY ∧ s'.jrnl.queue.length < 64 ∧ (s'.item i.toNat).state = 1 ∧
    (s'.item i.toNat).seq = s'.get JRNL_ARG_ARG :=
  ⟨3, 1, upJrnl 1, State.at (upJrnl 1) 1, rfl, by decide⟩

theorem wit_rptAck : ∃ (q : Fin 64) (t : Nat) (x : Nat × Item) (s s' : State), s' = s.at t ∧ s'.alive ∧ s'.on JRNL_CTL_EN ∧
    s'.on JRNL_STAT_FENCED = false ∧ s'.on JRNL_STAT_READY ∧ s'.jrnl.queue.length < 64 ∧
    s'.jrnl.view.find q.val (s'.get JRNL_ARG_ARG) = some x ∧ s'.get JRNL_ARG_ARG = seqNext (s'.jrec q.val).rpt ∧ x.2.state = 3 :=
  ⟨0, 1, (3, { state := 3, seq := 1, outcome := 1 }), upAck, State.at (upAck) 1, rfl, by decide⟩

theorem wit_replay : ∃ (q : Fin 64) (t : Nat) (s s' : State), s' = s.at t ∧ s'.alive ∧ s'.on JRNL_CTL_EN ∧
    s'.on JRNL_STAT_FENCED = false ∧ s'.on JRNL_STAT_READY ∧ s'.jrnl.queue.length < 64 :=
  ⟨0, 1, upJrnl 1, State.at (upJrnl 1) 1, rfl, by decide⟩

theorem wit_journalDurable : ∃ (t : Nat) (w : JWork) (l : List JWork) (s s' : State), s' = s.at t ∧ s'.clocks ∧
    s'.on JRNL_STAT_FENCED = false ∧ s'.jrnl.queue = w :: l :=
  ⟨1, {}, [], { up with jrnl := { up.jrnl with queue := [{}] } }, ({ up with jrnl := { up.jrnl with queue := [{}] } } : State).at 1, rfl,
    by decide⟩

theorem wit_claimHoldExpiry : ∃ (task : Fin 64) (t : Nat) (s s' : State), s' = s.at t ∧
    tget 0 s'.jrnl.commits task + ms (s'.get JRNL_CTL_HOLD_MS) ≤ s'.now ∧ s'.on JRNL_STAT_READY :=
  ⟨1, 1000000000000, upJrnl 2, State.at (upJrnl 2) 1000000000000, rfl, by decide⟩

theorem wit_ttlExpiry : ∃ (i : BitVec 16) (t : Nat) (s s' : State), s' = s.at t ∧ s'.on JRNL_STAT_READY ∧ (s'.item i.toNat).state = 1 ∧
    (s'.item i.toNat).ttl ≠ 0 ∧ (s'.item i.toNat).since + sec (s'.item i.toNat).ttl ≤ s'.now :=
  ⟨3, 1000000000000, upTtl, State.at (upTtl) 1000000000000, rfl, by decide⟩

theorem wit_journalRecoveryComplete : ∃ (t : Nat) (bad : List Nat) (s s' : State), s' = s.at t ∧ s'.clocks ∧
    s'.on JRNL_STAT_READY = false ∧ s'.on JRNL_STAT_FENCED = false :=
  ⟨1, [], up, State.at (up) 1, rfl, by decide⟩

/-! ### Witnesses: `MaintenanceActivities` -/

theorem wit_mntRequest : ∃ (kind : Fin 16) (unit : BitVec 20) (t : Nat) (k : Nat) (s s' : State), s' = s.at t ∧ s'.alive ∧
    unitOk kind unit.toNat ∧ s'.liveSlot kind unit.toNat = none ∧ s'.freeSlot = some k :=
  ⟨1, 1, 1, 0, up, State.at (up) 1, rfl, by decide⟩

theorem wit_mntCancel : ∃ (slot : Fin 64) (t : Nat) (s s' : State), s' = s.at t ∧ (s'.slot slot).state = 1 :=
  ⟨0, 1, upQueued, State.at (upQueued) 1, rfl, by decide⟩

theorem wit_activityExpired : ∃ (slot : Fin 64) (t : Nat) (s s' : State), s' = s.at t ∧ s'.clocks ∧ (s'.slot slot).state = 1 ∧
    s'.get MNT_WAIT_WAIT_S ≠ 0 ∧ (s'.slot slot).reqAt + sec (s'.get MNT_WAIT_WAIT_S) ≤ s'.now :=
  ⟨0, 1000000000, upQueued.put MNT_WAIT_WAIT_S 1, State.at (upQueued.put MNT_WAIT_WAIT_S 1) 1000000000, rfl, by decide⟩

theorem wit_eraseBlock : ∃ (u : Fin 7680) (t : Nat) (k : Nat) (s s' : State), s' = s.at t ∧ s'.runningSlot 3 u = some k ∧ s'.clocks :=
  ⟨1, 1, 0, upSlot 3 1, State.at (upSlot 3 1) 1, rfl, by decide⟩

theorem wit_page : ∃ (layer : Fin 3) (tx : BitVec 8) (ty : BitVec 8) (t : Nat) (k : Nat) (s s' : State), s' = s.at t ∧
    s'.runningSlot 5 (layer * 65536 + tx.toNat * 256 + ty.toNat) = some k ∧ s'.clocks :=
  ⟨0, 0, 1, 1, 0, upSlot 5 1, State.at (upSlot 5 1) 1, rfl, by decide⟩

theorem wit_telemetry : ∃ (t : Nat) (k : Nat) (s s' : State), s' = s.at t ∧ s'.runningSlot 7 0 = some k ∧ s'.clocks ∧
    inShared (4096 * s'.get MNT_TEL_SRC_ADDR) :=
  ⟨1, 0, (upSlot 7 0).put MNT_TEL_SRC_ADDR 0x20000, State.at ((upSlot 7 0).put MNT_TEL_SRC_ADDR 0x20000) 1, rfl, by decide⟩

theorem wit_logCopy : ∃ (t : Nat) (k : Nat) (s s' : State), s' = s.at t ∧ s'.runningSlot 6 0 = some k ∧ s'.clocks :=
  ⟨1, 0, upSlot 6 0, State.at (upSlot 6 0) 1, rfl, by decide⟩

theorem wit_diagOff : ∃ (i : Fin 152) (t : Nat) (down : Bool) (up : Bool) (k : Nat) (s s' : State), s' = s.at t ∧
    s'.runningSlot 9 i = some k ∧ s'.clocks ∧ (s'.chan i).out = false :=
  ⟨1, 1, true, false, 0, upSlot 9 1, State.at (upSlot 9 1) 1, rfl, by decide⟩

theorem wit_calOn : ∃ (i : Fin 152) (t : Nat) (off : Nat) (gain : BitVec 16) (k : Nat) (s s' : State), s' = s.at t ∧
    s'.runningSlot 8 i = some k ∧ s'.clocks ∧ off ≤ 50 :=
  ⟨1, 1, 50, 0, 0, upSlot 8 1, State.at (upSlot 8 1) 1, rfl, by decide⟩

theorem wit_scrubFlash : ∃ (u : Fin 1024) (t : Nat) (corr : List (Nat × Nat)) (k : Nat) (s s' : State), s' = s.at t ∧
    s'.runningSlot 1 u = some k ∧ s'.clocks ∧ s'.scrubDue u = false :=
  ⟨1, 1, [], 0, upSlot 1 1, State.at (upSlot 1 1) 1, rfl, by decide⟩

theorem wit_scrubSram : ∃ (u : Fin 384) (t : Nat) (k : Nat) (s s' : State), s' = s.at t ∧ s'.runningSlot 2 u = some k ∧ s'.clocks ∧
    s'.now < tget 0 s'.mnt.bankAt u + sec (orOne (s'.get MNT_CTL_SRAM_S)) :=
  ⟨1, 1, 0, upSlot 2 1, State.at (upSlot 2 1) 1, rfl, by decide⟩

theorem wit_wearReloc : ∃ (u : Fin 7680) (t : Nat) (k : Nat) (s s' : State), s' = s.at t ∧ s'.runningSlot 4 u = some k ∧ s'.clocks ∧
    tget 0 s'.mnt.corrected u < 4 :=
  ⟨1, 1, 0, upSlot 4 1, State.at (upSlot 4 1) 1, rfl, by decide⟩

theorem wit_coreTest : ∃ (c : Fin 4) (t : Nat) (k : Nat) (s s' : State), s' = s.at t ∧ s'.runningSlot 10 c = some k ∧ s'.clocks ∧
    s'.sub.op ≠ 7 :=
  ⟨1, 1, 0, upSlot 10 1, State.at (upSlot 10 1) 1, rfl, by decide⟩

/-! ### Witnesses: `SubstitutionCommands` -/

theorem wit_subSeq : ∃ (k : Fin 4) (t : Nat) (s s' : State), s' = s.at t ∧ s'.alive ∧ s'.on SUB_CTL_EN ∧ s'.sub.op = 0 ∧
    s'.dieMode k = 1 :=
  ⟨1, 1, upWith [(SUB_CTL_EN, 1), (CHT_DIE_STAT_MODE 1, 1)], State.at (upWith [(SUB_CTL_EN, 1), (CHT_DIE_STAT_MODE 1, 1)]) 1, rfl,
    by decide⟩

set_option maxRecDepth 100000 in
theorem wit_subTl : ∃ (t : Nat) (s s' : State), s' = s.at t ∧ s'.alive ∧ s'.on SUB_CTL_EN ∧ s'.sub.op = 0 ∧ s'.subContainer ∧
    s'.vault.staged.tl.isSome ∧ s'.tlSame :=
  ⟨1, upSubTl, State.at (upSubTl) 1, rfl, by decide⟩

theorem wit_subCal : ∃ (t : Nat) (s s' : State), s' = s.at t ∧ s'.alive ∧ s'.on SUB_CTL_EN ∧ s'.sub.op = 0 ∧ s'.subContainer ∧
    s'.vault.staged.cal :=
  ⟨1, upSubCal, State.at (upSubCal) 1, rfl, by decide⟩

theorem wit_segMap : ∃ (w : Fin 16) (t : Nat) (s s' : State), s' = s.at t ∧ s'.alive ∧ s'.on SUB_CTL_EN ∧ s'.sub.op = 0 ∧
    s'.vault.phase = 0 :=
  ⟨1, 1, upWith [(SUB_CTL_EN, 1)], State.at (upWith [(SUB_CTL_EN, 1)]) 1, rfl, by decide⟩

theorem wit_segUnmap : ∃ (w : Fin 16) (t : Nat) (s s' : State), s' = s.at t ∧ s'.alive ∧ s'.on SUB_CTL_EN ∧ s'.sub.op = 0 :=
  ⟨1, 1, upWith [(SUB_CTL_EN, 1)], State.at (upWith [(SUB_CTL_EN, 1)]) 1, rfl, by decide⟩

theorem wit_coreOutCmd : ∃ (c : Fin 4) (t : Nat) (s s' : State), s' = s.at t ∧ s'.alive ∧ s'.on SUB_CTL_EN ∧ s'.sub.op = 0 ∧
    s'.stranded c = false :=
  ⟨1, 1, upWith [(SUB_CTL_EN, 1)], State.at (upWith [(SUB_CTL_EN, 1)]) 1, rfl, by decide⟩

theorem wit_coreIn : ∃ (c : Fin 4) (t : Nat) (s s' : State), s' = s.at t ∧ s'.alive ∧ s'.on SUB_CTL_EN ∧ s'.sub.op = 0 :=
  ⟨1, 1, upWith [(SUB_CTL_EN, 1)], State.at (upWith [(SUB_CTL_EN, 1)]) 1, rfl, by decide⟩

/-! ### Witnesses: `ClockCommands` -/

theorem wit_prismReturn : ∃ (t : Nat) (s s' : State), s' = s.at t ∧ s'.prismRuns ∧ s'.on PRISM_STAT_PLL_Q ∧ s'.get PRISM_STAT_SRC = 1 :=
  ⟨1, upWith [(PRISM_STAT_PLL_Q, 1), (PRISM_STAT_SRC, 1)], State.at (upWith [(PRISM_STAT_PLL_Q, 1), (PRISM_STAT_SRC, 1)]) 1, rfl,
    by decide⟩

theorem wit_clockMonitorTrip : ∃ (t : Nat) (s s' : State), s' = s.at t ∧ s'.prismRuns ∧ s'.on PRISM_STAT_XIN_Q :=
  ⟨1, upWith [(PRISM_STAT_XIN_Q, 1)], State.at (upWith [(PRISM_STAT_XIN_Q, 1)]) 1, rfl, by decide⟩

theorem wit_sourceQualified : ∃ (t : Nat) (s s' : State), s' = s.at t ∧ s'.prismRuns ∧ s'.on PRISM_STAT_HFRC_Q :=
  ⟨1, upWith [(PRISM_STAT_HFRC_Q, 1)], State.at (upWith [(PRISM_STAT_HFRC_Q, 1)]) 1, rfl, by decide⟩

theorem wit_lfcalMeasure : ∃ (t : Nat) (cal : BitVec 32) (s s' : State), s' = s.at t ∧ s'.prismRuns ∧ s'.get PRISM_STAT_SRC = 0 :=
  ⟨1, 7, upWith [(PRISM_STAT_SRC, 0)], State.at (upWith [(PRISM_STAT_SRC, 0)]) 1, rfl, by decide⟩

theorem wit_clockRereport : ∃ (n : Fin 16) (t : Nat) (a : Nat) (s s' : State), s' = s.at t ∧ tget none s'.prism.causes n = some a ∧
    s'.prismRuns ∧ a + ms 100 ≤ s'.now :=
  ⟨1, 1000000000, 5, { up with prism := { up.prism with causes := [(1, some 5)] } },
    ({ up with prism := { up.prism with causes := [(1, some 5)] } } : State).at 1000000000, rfl, by decide⟩

theorem wit_prismGate : ∃ (v : BitVec 15) (s : State), s.alive :=
  ⟨3, up, by decide⟩

/-! ### Witnesses: `PowerStates` -/

theorem wit_idleRequest : ∃ (t : Nat) (s s' : State), s' = s.at t ∧ s'.clocks ∧ s'.get PWR_STAT_ENTRY = 0 :=
  ⟨1, up, State.at (up) 1, rfl, by decide⟩

theorem wit_sleepRequest : ∃ (t : Nat) (s s' : State), s' = s.at t ∧ s'.clocks ∧ s'.get PWR_STAT_ENTRY = 0 :=
  ⟨1, up, State.at (up) 1, rfl, by decide⟩

theorem wit_deepRequest : ∃ (t : Nat) (s s' : State), s' = s.at t ∧ s'.clocks ∧ s'.get PWR_STAT_ENTRY = 0 :=
  ⟨1, up, State.at (up) 1, rfl, by decide⟩

theorem wit_offRequest : ∃ (t : Nat) (s s' : State), s' = s.at t ∧ s'.clocks ∧ s'.get PWR_STAT_ENTRY = 0 :=
  ⟨1, up, State.at (up) 1, rfl, by decide⟩

theorem wit_entryTmo : ∃ (t : Nat) (s s' : State), s' = s.at t ∧ s'.get PWR_STAT_PHASE = 1 ∧
    s'.pwr.waitAt + sec (orOne (s'.get PWR_ENTRY_TMO_TMO_S)) < s'.now :=
  ⟨100000000000, upWith [(PWR_STAT_PHASE, 1)], State.at (upWith [(PWR_STAT_PHASE, 1)]) 100000000000, rfl, by decide⟩

theorem wit_targetStateReached : ∃ (t : Nat) (plan : BootPlan) (s s' : State), s' = s.at t ∧ s'.get PWR_STAT_PHASE = 2 ∧
    (reachTarget s').waking (reachTarget s').power.code = 0 :=
  ⟨1, {}, upWith [(PWR_STAT_PHASE, 2), (PWR_STAT_ENTRY, 2)], State.at (upWith [(PWR_STAT_PHASE, 2), (PWR_STAT_ENTRY, 2)]) 1, rfl,
    by decide⟩

theorem wit_alarm : ∃ (t : Nat) (plan : BootPlan) (s s' : State), s' = s.at t ∧ s'.get64 PWR_ALARM_LO_T PWR_ALARM_HI_T ≤ s'.now :=
  ⟨1, {}, up, State.at (up) 1, rfl, by decide⟩

theorem wit_idleFrames : ∃ (t : Nat) (s s' : State), s' = s.at t ∧ s'.get PWR_IDLE_FRAMES ≠ 0 ∧ s'.get PWR_IDLE_FRAMES ≤ s'.pwr.frames ∧
    s'.power = .idle :=
  ⟨1, { upWith [(PWR_IDLE_FRAMES, 2)] with power := .idle, pwr := { up.pwr with frames := 2 } },
    ({ upWith [(PWR_IDLE_FRAMES, 2)] with power := .idle, pwr := { up.pwr with frames := 2 } } : State).at 1, rfl, by decide⟩

theorem wit_machReq : ∃ (v : BitVec 2) (s : State), s.alive ∧ s.get PWR_STAT_PHASE = 0 ∧ (v.toNat ≠ 2 ∨ s.pwr.ign) :=
  ⟨1, up, by decide⟩

end Sys2Proof.Tests
end

/-!
PROOFS. The accesses of a pass that go to the record of its task: a captured store enters the commit lane (R81), the k-th `AGREE` of the
mirror pass takes the k-th logged value (R95). First what each of these operations does to the record and what it leaves alone; then a
write of `FRAME_LEN`; then the obligations.
-/
namespace Sys2Proof.Machine

section
variable {c : Nat} {s t u : State}

/-! ### The record of a task -/

@[simp] theorem State.run_setRun (s : State) (i : Nat) (x : TaskRun) : (s.setRun i x).run i = x := Tab.get_set_self ..

@[simp] theorem State.begun_run (s : State) (c i : Nat) : (s.begun c).run i = s.run i := rfl

/-! ### What `OnlyCore` says of memory, register fields and the records of tasks -/

theorem OnlyCore.run_eq (h : OnlyCore c s t) (i : Nat) : t.run i = s.run i := by rw [h.1]; rfl

theorem OnlyCore.memoryKept (h : OnlyCore c s t) : MemoryKept s t := fun _ => by rw [h.1]; rfl

theorem OnlyCore.fieldsKept (h : OnlyCore c s t) : FieldsKept [] s t := fun _ _ => by rw [h.1]; rfl

/-! ### The end of an access -/

/-- The end of an instruction without a taken branch writes no general register. -/
theorem advance_regs (c n : Nat) (s : State) :
    ∃ u, advance c n s = deliver c u ∧ OnlyCore c s u ∧ (∀ r, u.reg c r = s.reg c r) ∧ (u.bank c).fl = (s.bank c).fl := by
  obtain ⟨u, hu, honly, hkept, hfl, hg⟩ := advance_frame (c := c) (d := 0) (s := s) n
  exact ⟨u, hu, honly, fun r => by simp only [State.reg, hkept.mirror, hg], hfl⟩

/-! ### A captured store (R81) -/

theorem exec_sw_ready {core : Fin 4} {gd ga : Fin 32} {imm : BitVec 16} (h : s.coreReady core = true)
    (hexc : (s.begun core).accessExc core true ((s.begun core).address core ga imm) 4 = none) :
    exec (.sw core gd ga imm) s =
      .next (storeWord core ((s.begun core).address core ga imm) 4 ((s.begun core).reg core gd) (s.begun core)) := by
  rw [show exec (.sw core gd ga imm) s = storeOp core gd ga imm 4 s from rfl, storeOp, xob_ready h hexc]

/-- The entry stands at the end of the commit lane of its pass; the signature goes to a lane of its own. -/
theorem run_captureStore_signStore (i : Nat) (m : Bool) (a n : Nat) (w : Word) (s : State) :
    ((captureStore i m a w (signStore i m a n w s)).run i).primCmt = (s.run i).primCmt ++ (if m then [] else [(a, w)]) ∧
      ((captureStore i m a w (signStore i m a n w s)).run i).mirrCmt = (s.run i).mirrCmt ++ (if m then [(a, w)] else []) := by
  cases m <;> simp [captureStore, signStore]

/-- All that a captured store does to memory, register fields, general registers and the commit lanes of its task. -/
theorem storeWord_captured {p : Pass} {a w : Word} {n : Nat} (hp : (s.core c).pass = some p)
    (hc : s.place c true a.toNat = .capture) (hf : s.cmtFull p.task p.mirror = false) :
    ∃ u, storeWord c a n w s = deliver c u ∧
      (u.run p.task).primCmt = (s.run p.task).primCmt ++ (if p.mirror then [] else [(a.toNat, w)]) ∧
      (u.run p.task).mirrCmt = (s.run p.task).mirrCmt ++ (if p.mirror then [(a.toNat, w)] else []) ∧
      MemoryKept s u ∧ FieldsKept [] s u ∧ ∀ r, u.reg c r = s.reg c r := by
  have heff : storeWord c a n w s =
      advance c 1 (captureStore p.task p.mirror a.toNat w (signStore p.task p.mirror a.toNat 4 w s)) := by
    simp [storeWord, hp, passStore, hc, hf]
  obtain ⟨u, hu, honly, hregs, -⟩ :=
    advance_regs c 1 (captureStore p.task p.mirror a.toNat w (signStore p.task p.mirror a.toNat 4 w s))
  obtain ⟨hprim, hmirr⟩ := run_captureStore_signStore p.task p.mirror a.toNat 4 w s
  exact ⟨u, heff.trans hu, by rw [honly.run_eq, hprim], by rw [honly.run_eq, hmirr], honly.memoryKept, honly.fieldsKept, hregs⟩

/-! ### `AGREE` in the mirror pass (R95) -/

theorem exec_agree_mirror {core : Fin 4} {gd ga : Fin 32} {imm : BitVec 16} {p : Pass} (h : s.coreReady core = true)
    (hp : (s.core core).pass = some p) (hm : p.mirror = true)
    (hexc : (s.begun core).agreeExc core p ((s.begun core).address core ga imm) = none) :
    exec (.agree core gd ga imm) s =
      .next (agreeMirr core gd p.task ((s.begun core).address core ga imm) (s.begun core)) := by
  rw [show exec (.agree core gd ga imm) s = agreeOp core gd ga imm s from rfl, agreeOp, hp]
  simp only [hm, if_true]
  exact xob_ready h hexc

/-- The record of a task after its mirror pass has taken its next logged value at an address. -/
def TaskRun.agreed (r : TaskRun) (a : Nat) : TaskRun :=
  { r with logUsed := r.logUsed + 1, agreeBad := r.agreeBad || (r.log[r.logUsed]?).all (fun e => e.1 != a) }

theorem TaskRun.agreed_agreeBad {r : TaskRun} {a b : Nat} {w : Word} (h : r.log[r.logUsed]? = some (b, w)) :
    (r.agreed a).agreeBad = true ↔ r.agreeBad = true ∨ b ≠ a := by
  simp [TaskRun.agreed, h]

/-- All that the `AGREE` of a mirror pass does when the log holds a value for it. -/
theorem agreeMirr_logged {gd i : Nat} {a w : Word} {b : Nat} (h : (s.run i).log[(s.run i).logUsed]? = some (b, w)) :
    ∃ u, agreeMirr c gd i a s = deliver c u ∧ (gd ≠ 0 → u.reg c gd = ~~~w) ∧ u.run i = (s.run i).agreed a.toNat ∧
      MemoryKept s u ∧ FieldsKept [] s u ∧ (∀ r, r ≠ gd → u.reg c r = s.reg c r) ∧ (u.bank c).fl = (s.bank c).fl := by
  have heff : agreeMirr c gd i a s = advance c 1 ((s.setRun i ((s.run i).agreed a.toNat)).setReg c gd (~~~w)) := by
    simp [agreeMirr, TaskRun.agreed, h]
  obtain ⟨u, hu, honly, hregs, hfl⟩ := advance_regs c 1 ((s.setRun i ((s.run i).agreed a.toNat)).setReg c gd (~~~w))
  have htaken : OnlyCore c (s.setRun i ((s.run i).agreed a.toNat)) u := (State.setReg_only _ _).trans honly
  refine ⟨u, heff.trans hu, fun hgd => ?_, ?_, htaken.memoryKept, htaken.fieldsKept, fun r hr => ?_, ?_⟩
  · rw [hregs, State.reg_setReg _ hgd]
  · rw [htaken.run_eq, State.run_setRun]
  · rw [hregs]
    exact (State.setReg_kept _).reg r hr
  · rw [hfl, State.setReg_fl]
    rfl

/-! ### A write of `FRAME_LEN` (R50, R62, R64) -/

theorem timingOk_len {len margin res : Nat} (h : timingOk len margin res = true) : 2 ≤ len ∧ len ≤ 80 := by
  simp only [timingOk, Bool.and_eq_true, decide_eq_true_eq] at h
  omega

theorem exec_frameLenWrite {v : BitVec 7} (h : s.clocks = true) : exec (.frameLenWrite v) s = .next (frameLen v.toNat s) := by
  rw [show exec (.frameLenWrite v) s = execFrameLenWrite v s from rfl, execFrameLenWrite, if_pos h]

/-- A length that breaks R62 is refused, whatever the margin and the cut reserve. -/
theorem frameLen_refused {v : Nat} (h : v < 2 ∨ 80 < v) : frameLen v s = report 34 s := by
  have hbad : timingOk v (s.get FRAME_MARGIN_MARGIN_US) (s.get FRAME_CUTRES_RES_US) = false :=
    Bool.eq_false_iff.2 fun hok => by have := timingOk_len hok; omega
  simp [frameLen, frameTiming, hbad]

/-- A length that R62 and R64 allow is stored; with the lock off nothing more is checked. -/
theorem frameLen_stored {v : Nat} (hlock : s.lockSrc = 0)
    (htiming : timingOk v (s.get FRAME_MARGIN_MARGIN_US) (s.get FRAME_CUTRES_RES_US) = true)
    (hbudget : budgetOk s.taskList v (s.get FRAME_MARGIN_MARGIN_US) (s.get FRAME_CUTRES_RES_US) = true) :
    frameLen v s = s.put FRAME_LEN_LEN v := by
  have hsrc : (s.put FRAME_LEN_LEN v).lockSrc = 0 := by
    rw [State.lockSrc, State.get_put_ne _ _ _ _ (by decide), ← State.lockSrc, hlock]
  simp [frameLen, frameTiming, htiming, hbudget, hsrc]

end

/-! ### The obligations -/

/-- Settles O23: the store is its signature and its commit entry, and the end of the instruction changes the core alone. -/
theorem capturedStore : Obligations.CapturedStore := by
  unfold Obligations.CapturedStore
  intro core gd ga imm s p hready hpass hexc hplace hroom
  obtain ⟨u, hu, hprim, hmirr, hmem, hfields, hregs⟩ :=
    storeWord_captured (p := p) (n := 4) (w := (s.begun core).reg core gd) (by simpa using hpass) hplace hroom
  rw [State.begun_reg, State.begun_run] at hprim hmirr
  refine ⟨u, by rw [exec_sw_ready hready hexc, hu], fun hm => ⟨?_, ?_⟩, fun hm => ⟨?_, ?_⟩, hmem, hfields, fun r => ?_⟩
  · simpa [hm] using hprim
  · simpa [hm] using hmirr
  · simpa [hm] using hmirr
  · simpa [hm] using hprim
  · rw [hregs, State.begun_reg]

/-- Settles O24: the instruction is the record's next step and the write of `gd`, and its end changes the core alone. -/
theorem agreeInMirrorPass : Obligations.AgreeInMirrorPass := by
  unfold Obligations.AgreeInMirrorPass
  intro core gd ga imm s p b w hready hpass hmirror hexc hlog
  obtain ⟨u, hu, hgd, hrun, hmem, hfields, hregs, hfl⟩ := agreeMirr_logged (c := core) (s := s.begun core) (gd := gd)
    (a := (s.begun core).address core ga imm) hlog
  refine ⟨u, by rw [exec_agree_mirror hready hpass hmirror hexc, hu], fun h => hgd h, by rw [hrun]; rfl, by rw [hrun]; rfl, ?_, hmem,
    hfields, fun r hr => ?_, ?_⟩
  · rw [hrun]
    exact TaskRun.agreed_agreeBad hlog
  · rw [hregs r hr, State.begun_reg]
  · rw [hfl, State.begun_bank]

/-- Settles O27: 25000 time-base units of 5 ns are 125 µs; R62 refuses a length outside 2 to 80. -/
theorem frameLength : Obligations.FrameLength := by
  unfold Obligations.FrameLength
  refine ⟨fun x => Nat.mul_comm .., by decide, rfl, rfl, rfl, fun v s hclocks hv => ?_,
    fun v s hclocks hlock htiming hbudget => ?_⟩
  · rw [exec_frameLenWrite hclocks, frameLen_refused hv]
  · rw [exec_frameLenWrite hclocks, frameLen_stored hlock htiming hbudget]

end Sys2Proof.Machine

/-!
PROOFS. What the instruction set says of one core, command by command: true zero, shifts and divisions at their limits, the condition
codes, the loop levels at the end of an instruction, and an exception in S mode. First what each operation gives, case by case; then the
obligations.
-/
namespace Sys2Proof.Machine

section
variable {c : Nat} {s : State}

/-! ### True zero (R120) -/

theorem State.reg_zero (s : State) (c : Nat) : s.reg c 0 = if s.mirror c then 0xFFFFFFFF else 0x00000000 := by
  cases h : s.mirror c <;> simp [State.reg, h]

theorem State.setReg_zero (s : State) (c : Nat) (w : Word) : s.setReg c 0 w = s := if_pos rfl

/-! ### Shifts in the primary sense (R136) -/

/-- A shift by 0 gives the word back and sets neither C nor V. -/
theorem Shift.run_zero (op : Shift) (m : Bool) (a : Word) : op.run m a 0 = Alu.of m a none none := if_pos rfl

theorem Shift.run_r (op : Shift) (a : Word) {k : Nat} (h : k ≠ 0) : (op.run false a k).r = (op.raw false a k).1 := by
  rw [Shift.run, if_neg h]
  rfl

/-- In true sense C is the bit shifted out. -/
theorem Shift.run_carry (op : Shift) (a : Word) (f : Flags) {k : Nat} (h : k ≠ 0) :
    ((op.run false a k).flags f).c = (op.raw false a k).2 := by
  rw [Shift.run, if_neg h]
  exact Bool.xor_false _

theorem shl_carry_of_le (fill : Bool) (a : Word) {k : Nat} (h : k ≤ 32) : (shl fill a k).2 = a.getLsbD (32 - k) := if_pos h

theorem shr_carry_of_le (fill : Bool) (a : Word) {k : Nat} (h : k ≤ 32) : (shr fill a k).2 = a.getLsbD (k - 1) := if_pos h

theorem shl_carry_of_gt (fill : Bool) (a : Word) {k : Nat} (h : 32 < k) : (shl fill a k).2 = fill := if_neg (by omega)

theorem shr_carry_of_gt (fill : Bool) (a : Word) {k : Nat} (h : 32 < k) : (shr fill a k).2 = fill := if_neg (by omega)

/-- Nothing of the word is left after a shift by its width or more. -/
theorem shl_false_of_ge (a : Word) {k : Nat} (h : 32 ≤ k) : (shl false a k).1 = 0 := BitVec.shiftLeft_eq_zero h

theorem shr_false_of_ge (a : Word) {k : Nat} (h : 32 ≤ k) : (shr false a k).1 = 0 := BitVec.ushiftRight_eq_zero h

/-- After an arithmetic shift by the width or more only copies of the sign are left. -/
theorem word_sshiftRight_of_ge (a : Word) {k : Nat} (h : 32 ≤ k) :
    a.sshiftRight k = if a.getLsbD 31 then 0xFFFFFFFF else 0 := by
  have hsign : a.msb = a.getLsbD 31 := BitVec.msb_eq_getLsbD_last a
  cases hbit : a.getLsbD 31
  · rw [BitVec.sshiftRight_eq_of_msb_false (hsign.trans hbit), BitVec.ushiftRight_eq_zero h]
    rfl
  · rw [BitVec.sshiftRight_eq_of_msb_true (hsign.trans hbit), BitVec.ushiftRight_eq_zero h]
    rfl

/-! ### Divisions in the primary sense (R137) -/

theorem Div.value_quoU {a b : Word} (h : b ≠ 0) : Div.quoU.value a b = (a / b, false) := if_neg h

theorem Div.value_remU {a b : Word} (h : b ≠ 0) : Div.remU.value a b = (a % b, false) := if_neg h

theorem Div.value_quoS {a b : Word} (h : b ≠ 0) (hw : ¬(a = 0x80000000 ∧ b = 0xFFFFFFFF)) :
    Div.quoS.value a b = (a.sdiv b, false) := by
  rw [Div.value, if_neg h, if_neg (by simpa using hw)]

theorem Div.value_remS {a b : Word} (h : b ≠ 0) (hw : ¬(a = 0x80000000 ∧ b = 0xFFFFFFFF)) :
    Div.remS.value a b = (a.srem b, false) := by
  rw [Div.value, if_neg h, if_neg (by simpa using hw)]

/-- In the primary pass V is what the table of values says. -/
theorem Div.run_v (op : Div) (a b : Word) (f : Flags) : ((op.run false a b).flags f).v = (op.value a b).2 := rfl

/-- A division whose residue check holds raises nothing of its own, whatever its operands. -/
theorem divOp_ready (op : Div) {gd ga gb : Nat} (h : s.coreReady c = true) : divOp op c gd ga gb true s =
    .next (advance c 18 ((s.begun c).result c gd (op.run ((s.begun c).mirror c) ((s.begun c).reg c ga) ((s.begun c).reg c gb)))) :=
  xob_ready h rfl

/-! ### Code 15 is no condition (R144) -/

theorem exec_br_noCondition {core : Fin 4} {disp : BitVec 22} (h : s.coreReady core = true) :
    exec (.br core 15 disp) s = .next (takeExc core undefExc (s.begun core)) := by
  rw [show exec (.br core 15 disp) s = execBr core 15 disp s from rfl, execBr]
  exact xob_exc h rfl

theorem exec_sel_noCondition {core : Fin 4} {gd ga gb : Fin 32} (h : s.coreReady core = true) :
    exec (.sel core gd ga gb 15) s = .next (takeExc core undefExc (s.begun core)) := by
  rw [show exec (.sel core gd ga gb 15) s = execSel core gd ga gb 15 s from rfl, execSel]
  exact xob_exc h rfl

/-! ### The loop levels (R146) -/

theorem tget_tset (t : Tab Word) (n m : Nat) (w : Word) : tget 0 (tset 0 t n w) m = if m = n then w else tget 0 t m :=
  Tab.get_set ..

/-- The bank behind the check of level `n`, where that level does not continue at its start. -/
def Bank.pastLevel (a : Word) (n : Nat) (b : Bank) : Bank :=
  if tget 0 b.lc n ≠ 0 ∧ tget 0 b.le n = a then { b with lc := tset 0 b.lc n 0 } else b

theorem Bank.pastLevel_le (a : Word) (n : Nat) (b : Bank) : (b.pastLevel a n).le = b.le := by
  unfold Bank.pastLevel
  split <;> rfl

theorem Bank.pastLevel_ls (a : Word) (n : Nat) (b : Bank) : (b.pastLevel a n).ls = b.ls := by
  unfold Bank.pastLevel
  split <;> rfl

theorem Bank.pastLevel_lc (a : Word) (n m : Nat) (b : Bank) :
    tget 0 (b.pastLevel a n).lc m = if m = n ∧ tget 0 b.le m = a then 0 else tget 0 b.lc m := by
  unfold Bank.pastLevel
  split
  · rw [tget_tset]
    grind
  · grind

theorem Bank.pastLevel_lc_ne (a : Word) {n m : Nat} (b : Bank) (h : m ≠ n) : tget 0 (b.pastLevel a n).lc m = tget 0 b.lc m := by
  rw [Bank.pastLevel_lc, if_neg (fun hm => h hm.1)]

/-- A level that does not end at `a`, or ends there with count 1, leaves the decision to the level below it. -/
theorem loopBack_pastLevel {a : Word} {n : Nat} {b : Bank} (h : tget 0 b.lc n ≠ 0 → tget 0 b.le n = a → tget 0 b.lc n = 1) :
    loopBack a (n + 1) b = loopBack a n (b.pastLevel a n) := by
  unfold Bank.pastLevel
  rw [loopBack]
  split
  · next hend => rw [if_pos (h hend.1 hend.2)]
  · rfl

/-- A level that ends at `a` with a count above 1 continues at its start. -/
theorem loopBack_continue {a : Word} {n : Nat} {b : Bank} (h0 : tget 0 b.lc n ≠ 0) (h1 : tget 0 b.lc n ≠ 1) (ha : tget 0 b.le n = a) :
    loopBack a (n + 1) b = ({ b with lc := tset 0 b.lc n (tget 0 b.lc n - 1) }, tget 0 b.ls n) := by
  rw [loopBack, if_pos ⟨h0, ha⟩, if_neg h1]

/-- What the check of the levels below `k` gives when level `n` continues: the levels checked before it that end at `a` have ended. -/
theorem loopBack_of_continue {a : Word} {k n : Nat} (hn : n < k) {b : Bank} (h0 : tget 0 b.lc n ≠ 0) (h1 : tget 0 b.lc n ≠ 1)
    (ha : tget 0 b.le n = a) (habove : ∀ m, n < m → m < k → tget 0 b.lc m ≠ 0 → tget 0 b.le m = a → tget 0 b.lc m = 1) :
    (loopBack a k b).2 = tget 0 b.ls n ∧ ∀ m, tget 0 (loopBack a k b).1.lc m =
      if m = n then tget 0 b.lc n - 1 else if n < m ∧ m < k ∧ tget 0 b.le m = a then 0 else tget 0 b.lc m := by
  induction k generalizing b with
  | zero => omega
  | succ k ih =>
    rcases Nat.lt_succ_iff_lt_or_eq.1 hn with hlt | rfl
    · have hne : n ≠ k := by omega
      rw [loopBack_pastLevel (habove k hlt (by omega))]
      obtain ⟨hto, hlc⟩ := ih hlt (b := b.pastLevel a k) (by rwa [b.pastLevel_lc_ne a hne]) (by rwa [b.pastLevel_lc_ne a hne])
        (by rwa [b.pastLevel_le]) (fun m hnm hmk => by
          rw [b.pastLevel_lc_ne a (by omega), b.pastLevel_le]
          exact habove m hnm (by omega))
      refine ⟨by rw [hto, b.pastLevel_ls], fun m => ?_⟩
      rw [hlc, b.pastLevel_lc_ne a hne, b.pastLevel_le, b.pastLevel_lc]
      grind
    · rw [loopBack_continue h0 h1 ha]
      refine ⟨rfl, fun m => ?_⟩
      have hnone : ¬(n < m ∧ m < n + 1 ∧ tget 0 b.le m = a) := by omega
      rw [if_neg hnone]
      exact tget_tset ..

/-- What the check of the levels below `k` gives when none of them continues: each of them that ends at `a` has ended. -/
theorem loopBack_of_fallThrough {a : Word} {k : Nat} {b : Bank}
    (h : ∀ m, m < k → tget 0 b.lc m ≠ 0 → tget 0 b.le m = a → tget 0 b.lc m = 1) :
    (loopBack a k b).2 = a + 4 ∧
      ∀ m, tget 0 (loopBack a k b).1.lc m = if m < k ∧ tget 0 b.le m = a then 0 else tget 0 b.lc m := by
  induction k generalizing b with
  | zero => exact ⟨rfl, fun m => (if_neg (by omega)).symm⟩
  | succ k ih =>
    rw [loopBack_pastLevel (h k (by omega))]
    obtain ⟨hto, hlc⟩ := ih (b := b.pastLevel a k) (fun m hm => by
      rw [b.pastLevel_lc_ne a (by omega), b.pastLevel_le]
      exact h m (by omega))
    refine ⟨hto, fun m => ?_⟩
    rw [hlc, b.pastLevel_le, b.pastLevel_lc]
    grind

theorem exec_nop_ready {core : Fin 4} (h : s.coreReady core = true) : exec (.nop core) s = .next (advance core 1 (s.begun core)) := by
  rw [show exec (.nop core) s = execNop core s from rfl, execNop]
  exact xob_ready h rfl

/-! ### An exception in S mode (R130) -/

/-- The low four bits of a cause word are the cause. -/
theorem causeWord_cause {x : Exc} (s : State) (mp : Bool) (h : x.cause < 16) : (causeWord x mp s).toNat % 16 = x.cause := by
  rw [causeWord, BitVec.toNat_ofNat]
  split <;> omega

/-- A source of its own changes nothing of the entry of an exception. -/
theorem sExcept_src (x : Exc) (r : Option Nat) (c : Nat) (s : State) : sExcept c { x with src := r } s = sExcept c x s := rfl

theorem takeExc_sMode {x : Exc} (ht : s.tMode c = false) (hsrc : x.src = none) : takeExc c x s = sExcept c x s := by
  simp [takeExc, ht, hsrc]

theorem takeExc_sMode_src {x : Exc} {n : Nat} (ht : s.tMode c = false) (hsrc : x.src = some n) :
    takeExc c x s = reportFull n 0 0 false (sExcept c x s) := by
  simp [takeExc, ht, hsrc]

theorem sExcept_stops {x : Exc} (h : (s.core c).exl = true) :
    sExcept c x s = report (64 + c) (s.setCore c { s.core c with stopped := true }) := if_pos h

/-- With `EXL` 0 the core enters the exception at `SVEC`, with its cause and its address. -/
theorem sExcept_core {x : Exc} (h : (s.core c).exl = false) :
    (sExcept c x s).core c = { (s.core c).enter 0 with ecause := causeWord x false s, eaddr := faultAddr x s } := by
  rw [sExcept]
  simp only [h, Bool.false_eq_true, if_false]
  exact State.core_setCore ..

theorem State.pc_sMode (ht : s.tMode c = false) : s.pc c = (s.core c).sPc := by simp [State.pc, ht]

theorem sExcept_pc {x : Exc} (ht : s.tMode c = false) (h : (s.core c).exl = false) : (sExcept c x s).pc c = (s.core c).svec := by
  have ht' : (sExcept c x s).tMode c = false := by rw [State.tMode, sExcept_core h]; exact ht
  rw [State.pc_sMode ht', sExcept_core h]
  exact BitVec.add_zero _

end

/-! ### The obligations -/

/-- Settles O9: `g0` is a case of its own in each access, and the flags are written before the register. -/
theorem trueZero : Obligations.TrueZero := by
  unfold Obligations.TrueZero
  exact ⟨State.reg_zero, State.setReg_zero, fun s c gd x => ⟨State.result_fl x, by rw [State.result_fl, State.result_fl]⟩⟩

/-- Settles O10, row by row of the table of R136. -/
theorem shiftLimits : Obligations.ShiftLimits := by
  unfold Obligations.ShiftLimits
  intro a f op
  refine ⟨?_, fun k h1 h31 => ?_, ?_, fun k hk => ?_, fun k hk => ?_⟩
  · rw [Shift.run_zero]
    exact ⟨rfl, rfl⟩
  · have h0 : k ≠ 0 := by omega
    simp only [Shift.run_r _ _ h0, Shift.run_carry _ _ _ h0, Shift.raw]
    refine ⟨shl_carry_of_le _ _ (by omega), shr_carry_of_le _ _ (by omega), ?_, ?_, ?_⟩
    · rw [Nat.min_eq_left (by omega)]
    · rw [Nat.mod_eq_of_lt (by omega)]
    · rw [Nat.mod_eq_of_lt (by omega)]
  · have h0 : (32 : Nat) ≠ 0 := by decide
    simp only [Shift.run_r _ _ h0, Shift.run_carry _ _ _ h0, Shift.raw]
    exact ⟨shl_false_of_ge _ le_rfl, shl_carry_of_le _ _ le_rfl, shr_false_of_ge _ le_rfl, shr_carry_of_le _ _ le_rfl⟩
  · have h0 : k ≠ 0 := by omega
    simp only [Shift.run_r _ _ h0, Shift.run_carry _ _ _ h0, Shift.raw]
    exact ⟨shl_false_of_ge _ (by omega), shl_carry_of_gt _ _ hk, shr_false_of_ge _ (by omega), shr_carry_of_gt _ _ hk⟩
  · have h0 : k ≠ 0 := by omega
    refine ⟨(Shift.run_r _ _ h0).trans (word_sshiftRight_of_ge _ hk), ?_, Shift.run_r _ _ h0, Shift.run_carry _ _ _ h0⟩
    rw [Shift.run_carry _ _ _ h0, Shift.raw, Nat.min_eq_right (by omega)]

/-- Settles O15: the checks of the levels one after another, as far as one continues or through all of them. -/
theorem loopLevels : Obligations.LoopLevels := by
  unfold Obligations.LoopLevels
  refine ⟨fun a b n hn h0 h1 ha habove => ?_, fun a b h => loopBack_of_fallThrough h, fun core s h => exec_nop_ready h⟩
  obtain ⟨hto, hlc⟩ := loopBack_of_continue hn h0 h1 ha habove
  refine ⟨hto, ?_, fun m hnm hm _ hma => ?_, fun m hm => ?_⟩
  · rw [hlc, if_pos rfl]
  · rw [hlc, if_neg (by omega), if_pos ⟨hnm, hm, hma⟩]
  · rw [hlc]
    grind

/-- Settles O16: the entry of the exception is one update of the core; a source of its own reports after it. -/
theorem sModeException : Obligations.SModeException := by
  unfold Obligations.SModeException
  refine ⟨fun c x s ht hsrc hcause hexl => ?_, fun c x s ht hsrc hexl => ?_, fun c n x s ht hsrc => ?_⟩
  · rw [takeExc_sMode ht hsrc, sExcept_core hexl, sExcept_pc ht hexl, State.pc_sMode ht]
    refine ⟨rfl, fun a ha => ?_, causeWord_cause s false hcause, rfl, rfl, rfl, rfl⟩
    exact congrArg (Option.getD · _) ha
  · rw [takeExc_sMode ht hsrc, sExcept_stops hexl]
  · rw [takeExc_sMode_src ht hsrc, takeExc_sMode (x := { x with src := none }) ht rfl, sExcept_src x none]

/-- Settles O11: the cases of the table of values, and a division raises nothing for any of them. -/
theorem divisionLimits : Obligations.DivisionLimits := by
  unfold Obligations.DivisionLimits
  refine ⟨fun a f => ⟨rfl, rfl, rfl, rfl, fun op => ?_⟩, fun f => ⟨rfl, rfl, rfl, rfl⟩, fun a b f hb => ⟨?_, ?_, fun hw => ⟨?_, ?_⟩⟩,
    fun core gd ga gb s i op hi h => ?_⟩
  · cases op <;> rfl
  · rw [Div.run_v, Div.value_quoU hb]
  · rw [Div.run_v, Div.value_remU hb]
  · rw [Div.run_v, Div.value_quoS hb hw]
  · rw [Div.run_v, Div.value_remS hb hw]
  · simp only [List.mem_cons, List.not_mem_nil, or_false, Prod.mk.injEq] at hi
    obtain ⟨rfl, rfl⟩ | ⟨rfl, rfl⟩ | ⟨rfl, rfl⟩ | ⟨rfl, rfl⟩ := hi
    · exact divOp_ready .quoS h
    · exact divOp_ready .quoU h
    · exact divOp_ready .remS h
    · exact divOp_ready .remU h

/-- Settles O12: the table of conditions read off, and UNDEF before anything else of the instruction. -/
theorem conditionCodes : Obligations.ConditionCodes := by
  unfold Obligations.ConditionCodes
  refine ⟨fun f => ?_, fun core gd ga gb disp s h => ⟨exec_br_noCondition h, exec_sel_noCondition h⟩⟩
  simp [Flags.holds]

end Sys2Proof.Machine

/-!
PROOFS. Where a capture is stored: the rows of the table of R370, one lemma per state of the channel's window; then the obligation.
-/
namespace Sys2Proof.Machine

section
variable {x : TmrChan}

/-! ### A capture by the state of the window (R370) -/

theorem storeCapture_read (lo hi : Nat) (hfrozen : x.frozen = false) (hnew : x.flags.testBit 5 = false) :
    storeCapture x lo hi = { x with capLo := lo, capHi := hi }.mark 5 := by
  rw [storeCapture, hfrozen, hnew]
  rfl

theorem storeCapture_unread (lo hi : Nat) (hfrozen : x.frozen = false) (hnew : x.flags.testBit 5 = true) :
    storeCapture x lo hi = { x with capLo := lo, capHi := hi }.mark 3 := by
  rw [storeCapture, hfrozen, hnew]
  rfl

theorem storeCapture_frozen_empty (lo hi : Nat) (hfrozen : x.frozen = true) (hbuf : x.buf = none) :
    storeCapture x lo hi = { x with buf := some (lo, hi) } := by
  rw [storeCapture, hfrozen, hbuf]
  rfl

theorem storeCapture_frozen_occupied (lo hi : Nat) (hfrozen : x.frozen = true) (hbuf : x.buf ≠ none) :
    storeCapture x lo hi = { x with buf := some (lo, hi) }.mark 3 := by
  obtain ⟨p, hp⟩ := Option.ne_none_iff_exists'.mp hbuf
  rw [storeCapture, hfrozen, hp]
  rfl

end

/-! ### The obligation -/

/-- Settles O26: the rows of the table of R370; `TmrChan.mark` sets one flag and leaves the rest of the channel. -/
theorem captureWindow : Obligations.CaptureWindow :=
  fun _ lo hi => ⟨storeCapture_read lo hi, storeCapture_unread lo hi, storeCapture_frozen_empty lo hi,
    storeCapture_frozen_occupied lo hi⟩

end Sys2Proof.Machine

/-!
PROOFS. What holds of every command and of every step: what `exec_keeps` says of a command, carried over to a step; then the obligations on
the machine as a whole.
-/
namespace Sys2Proof.Machine

section
variable {s t : State}

/-- What a step keeps of a state, whatever stands in its queue. -/
theorem step_keeps (s : State) : ∃ t, step s = .next t ∧ Keeps false { s with pending := t.pending } t := by
  cases h : s.pending with
  | nil => exact ⟨s, step_nil s h, Keeps.refl⟩
  | cons c l =>
    obtain ⟨t, ht, hk⟩ := (exec_keeps c { s with pending := l }).of
    have hl : t.pending = l := hk.pending
    exact ⟨t, (step_cons s c l h).trans ht, hl ▸ hk⟩

theorem Keeps.of_step (h : step s = .next t) : Keeps false { s with pending := t.pending } t := by
  obtain ⟨u, hu, hk⟩ := step_keeps s
  obtain rfl : t = u := Host.Outcome.next.inj (h.symm.trans hu)
  exact hk

end

/-! ### The obligations -/

/-- Settles O4: one of the things that `exec_keeps` says of every command. -/
theorem everyCommandCompletes : Obligations.EveryCommandCompletes := by
  unfold Obligations.EveryCommandCompletes
  intro i s
  obtain ⟨t, ht, hk⟩ := (exec_keeps i s).of
  exact ⟨t, ht, hk.pending, hk.drawn⟩

/-- Settles O5: every way of writing memory and registers keeps their canonical form. -/
theorem canonicalKept : Obligations.CanonicalKept := by
  unfold Obligations.CanonicalKept
  rintro s ⟨hmem, hregs⟩
  obtain ⟨t, ht, hk⟩ := step_keeps s
  exact ⟨t, ht, hk.mem hmem, hk.regs hregs⟩

/-- Settles O6: the key is written only where the record holds none, and no operation takes a failure back. -/
theorem identityKept : Obligations.IdentityKept := by
  unfold Obligations.IdentityKept
  intro s t ht
  have hk := Keeps.of_step ht
  refine ⟨fun k hpub => (hk.pub ?_).trans hpub, hk.damaged⟩
  exact Option.isSome_of_eq_some hpub

/-- Settles O1: the two cases of the queue. -/
theorem stepRunsFront : Obligations.StepRunsFront := by
  unfold Obligations.StepRunsFront
  exact ⟨fun c s l h => step_cons s c l h, step_nil⟩

/-- Settles O3: both tables are empty at reset. -/
theorem resetCanonical : Obligations.ResetCanonical := by
  unfold Obligations.ResetCanonical
  exact ⟨Tab.nil_wf memDefault, Tab.nil_wf fieldReset⟩

end Sys2Proof.Machine

/-!
PROOFS. What the data operations compute: sums and differences in the primary sense (R145), and the mirror operations of R154, each of which
gives on complemented operands the complement of the primary result. First one lemma for each operation; then the obligations.
-/
namespace Sys2Proof.Machine

/-! ### The primary sense of a result (R145) -/

/-- Whatever operation gives a primary result, N and Z are those of its word. -/
theorem Bin.run_false_eq_of (op : Bin) (a b : Word) (c : Bool) :
    ∃ co vo, op.run false a b c = Alu.of false (op.run false a b c).r co vo := by
  cases op <;> exact ⟨_, _, rfl⟩

theorem Bin.run_false_add (a b : Word) (c : Bool) : Bin.add.run false a b c = Alu.sum false (addc a b false) := rfl

theorem Bin.run_false_adc (a b : Word) (c : Bool) : Bin.adc.run false a b c = Alu.sum false (addc a b c) := rfl

theorem Bin.run_false_sub (a b : Word) (c : Bool) : Bin.sub.run false a b c = Alu.sum false (addc a (~~~b) true) := rfl

theorem Bin.run_false_sbc (a b : Word) (c : Bool) : Bin.sbc.run false a b c = Alu.sum false (addc a (~~~b) c) := rfl

theorem Bin.run_false_logic {op : Bin} (h : op ∈ [Bin.and, .or, .xor, .andn, .orn, .xnor]) (a b : Word) (c : Bool) :
    op.run false a b c = Alu.of false (op.logic a b) none none := by
  fin_cases h <;> rfl

theorem Alu.of_false_n (r : Word) (co vo : Option Bool) (f : Flags) : ((Alu.of false r co vo).flags f).n = r.getLsbD 31 :=
  Bool.xor_false _

theorem Alu.of_false_z (r : Word) (co vo : Option Bool) (f : Flags) : ((Alu.of false r co vo).flags f).z = (r == 0) := rfl

theorem Alu.sum_false_c (x : Word × Bool × Bool) (f : Flags) : ((Alu.sum false x).flags f).c = x.2.1 := Bool.xor_false _

theorem Alu.sum_false_v (x : Word × Bool × Bool) (f : Flags) : ((Alu.sum false x).flags f).v = x.2.2 := rfl

/-! ### The mirror sense of a result (R154, R155) -/

/-- The complement of a result in the mirror pass stands for the same true value, with the same N and Z. -/
theorem Alu.of_true_not (r : Word) (c v : Option Bool) : Alu.of true (~~~r) c v = (Alu.of false r c v).complemented := by
  have hn : ((~~~r).getLsbD 31 != true) = (r.getLsbD 31 != false) := by simp
  have hz : (~~~r == ~~~(0 : Word)) = (r == 0) := by rw [Bool.eq_iff_iff, beq_iff_eq, beq_iff_eq, BitVec.not_inj]
  simp only [Alu.of, Alu.complemented, hn, if_true, hz]
  rfl

theorem word_toInt_not (x : Word) : (~~~x).toInt = -x.toInt - 1 := by
  have hx := x.isLt
  rw [word_toInt, word_toInt, word_top, word_top, word_toNat_not]
  by_cases h : 2 ^ 31 ≤ x.toNat <;> simp <;> split <;> omega

theorem addc_not_sum (a b : Word) (c : Bool) : (addc (~~~a) (~~~b) (!c)).1 = ~~~(addc a b c).1 := by
  have ha := a.isLt
  have hb := b.isLt
  rw [addc_r, addc_r]
  cases c <;> simp <;> bv_omega

/-- The adder on complemented operands and carry: sum and carry out are complemented, the overflow is the same. -/
theorem addc_not (a b : Word) (c : Bool) :
    addc (~~~a) (~~~b) (!c) = (~~~(addc a b c).1, !(addc a b c).2.1, (addc a b c).2.2) := by
  have ha := a.isLt
  have hb := b.isLt
  refine Prod.ext ?_ (Prod.ext ?_ ?_)
  · exact addc_not_sum a b c
  · simp only [addc, word_toNat_not, ← decide_not, decide_eq_decide]
    cases c <;> simp <;> omega
  · show (addc (~~~a) (~~~b) (!c)).2.2 = (addc a b c).2.2
    rw [Bool.eq_iff_iff, addc_v, addc_v, word_toInt_not, word_toInt_not]
    cases c <;> simp <;> omega

theorem Alu.sum_addc_not (a b : Word) (c : Bool) :
    Alu.sum true (addc (~~~a) (~~~b) (!c)) = (Alu.sum false (addc a b c)).complemented := by
  rw [addc_not, Alu.sum, Alu.of_true_not, Alu.sum]
  simp

theorem word_not_xor_not (a b : Word) : ~~~a ^^^ ~~~b = a ^^^ b := by
  ext i hi
  simp

theorem Bin.run_true_not (op : Bin) (a b : Word) (c : Bool) : op.run true (~~~a) (~~~b) c = (op.run false a b c).complemented := by
  cases op with
  | add => exact Alu.sum_addc_not a b false
  | sub => exact Alu.sum_addc_not a (~~~b) true
  | adc => exact Alu.sum_addc_not a b c
  | sbc => exact Alu.sum_addc_not a (~~~b) c
  | and => exact (congrArg (Alu.of true · none none) BitVec.not_and.symm).trans (Alu.of_true_not ..)
  | or => exact (congrArg (Alu.of true · none none) BitVec.not_or.symm).trans (Alu.of_true_not ..)
  | andn => exact (congrArg (Alu.of true · none none) BitVec.not_and.symm).trans (Alu.of_true_not ..)
  | orn => exact (congrArg (Alu.of true · none none) BitVec.not_or.symm).trans (Alu.of_true_not ..)
  | xor => exact (congrArg (fun x => Alu.of true (~~~x) none none) (word_not_xor_not a b)).trans (Alu.of_true_not ..)
  | xnor => exact (congrArg (Alu.of true · none none) ((word_not_xor_not a b).trans BitVec.not_not.symm)).trans (Alu.of_true_not ..)

theorem shl_not (a : Word) (k : Nat) (h : k ≠ 0) : shl true (~~~a) k = (~~~(shl false a k).1, !(shl false a k).2) := by
  refine Prod.ext ?_ ?_
  · simp [shl]
  · simp only [shl]
    split <;> simp
    omega

theorem shr_not (a : Word) (k : Nat)   : shr true (~~~a) k = (~~~(shr false a k).1, !(shr false a k).2) := by
  refine Prod.ext ?_ ?_
  · simp [shr]
  · simp only [shr]
    split <;> simp
    omega

theorem word_rotateRight_not (a : Word) (k : Nat) : (~~~a).rotateRight k = ~~~(a.rotateRight k) := by
  ext i hi
  simp only [BitVec.getElem_rotateRight, BitVec.getElem_not]
  split <;> rfl


theorem Shift.raw_not (op : Shift) (a : Word) {k : Nat} (h : k ≠ 0) :
    op.raw true (~~~a) k = (~~~(op.raw false a k).1, !(op.raw false a k).2) := by
  cases op with
  | lsl => exact shl_not a k h
  | lsr => exact shr_not a k
  | asr =>
    have hk : min (k - 1) 31 < 32 := by omega
    refine Prod.ext BitVec.not_sshiftRight.symm ?_
    simp [Shift.raw]
  | ror =>
    refine Prod.ext (word_rotateRight_not a _) ?_
    simp [Shift.raw, word_rotateRight_not]

theorem Shift.run_true_not (op : Shift) (a : Word) (k : Nat) : op.run true (~~~a) k = (op.run false a k).complemented := by
  by_cases h : k = 0
  · simp only [Shift.run, if_pos h, Alu.of_true_not]
  · simp only [Shift.run, if_neg h, Shift.raw_not op a h, Alu.of_true_not]
    simp

theorem Mul.value_comm (op : Mul) (a b : Word) : op.value a b = op.value b a := by
  cases op <;> simp only [Mul.value, BitVec.mul_comm]

theorem Mul.run_true_not (op : Mul) (a b : Word) : op.run true (~~~a) (~~~b) = (op.run false a b).complemented := by
  cases op with
  | lo =>
    have h : (~~~a + 1) * (~~~b + 1) = a * b := by
      rw [show ~~~a + 1 = -a from (BitVec.neg_eq_not_add a).symm, show ~~~b + 1 = -b from (BitVec.neg_eq_not_add b).symm,
        BitVec.neg_mul_neg]
    refine (congrArg (fun x => Alu.of true (~~~x) none none) h).trans (Alu.of_true_not ..)
  | hs | hu =>
    refine Eq.trans ?_ (Alu.of_true_not ..)
    simp only [Mul.run, if_true, BitVec.not_not, Mul.value_comm _ b a]

theorem Div.run_true_not (op : Div) (a b : Word) : op.run true (~~~a) (~~~b) = (op.run false a b).complemented := by
  refine Eq.trans ?_ (Alu.of_true_not ..)
  simp only [Div.run, if_true, BitVec.not_not]
  rfl

theorem clzRun_true_not (a : Word) : clzRun true (~~~a) = (clzRun false a).complemented := by
  refine Eq.trans ?_ (Alu.of_true_not ..)
  simp only [clzRun, if_true, BitVec.not_not]
  rfl

/-! ### Fields of a word (R138) -/

theorem getElem_onesLow (w : Nat) {i : Nat} (h : i < 32) : (onesLow w)[i] = decide (i < w) := by
  simp only [onesLow, BitVec.getElem_not, BitVec.getElem_shiftLeft]
  by_cases hw : i < w <;> simp [hw]

theorem bfxRun_true_not (a : Word) {pos w : Nat} (h : pos + w ≤ 32) :
    bfxRun true (~~~a) pos w = (bfxRun false a pos w).complemented := by
  refine Eq.trans (congrArg (Alu.of true · none none) ?_) (Alu.of_true_not ..)
  ext i hi
  by_cases hw : i < w <;> simp [getElem_onesLow, hw]
  omega

theorem bfxsRun_true_not (a : Word) {pos w : Nat} (h : pos + w ≤ 32) :
    bfxsRun true (~~~a) pos w = (bfxsRun false a pos w).complemented := by
  refine Eq.trans (congrArg (Alu.of true · none none) ?_) (Alu.of_true_not ..)
  have hs : (~~~a).getLsbD (pos + w - 1) = !a.getLsbD (pos + w - 1) := by
    rw [BitVec.getLsbD_not, decide_eq_true (by omega), Bool.true_and]
  rw [hs]
  ext i hi
  cases a.getLsbD (pos + w - 1) <;> by_cases hw : i < w <;> simp [getElem_onesLow, hw] <;> omega

theorem bfiRun_true_not (d a : Word) (pos w : Nat) : bfiRun true (~~~d) (~~~a) pos w = (bfiRun false d a pos w).complemented := by
  refine Eq.trans (congrArg (Alu.of true · none none) ?_) (Alu.of_true_not ..)
  ext i hi
  by_cases hp : i < pos
  · simp [hp]
  · by_cases hw : i - pos < w <;> simp [getElem_onesLow, hp, hw]

/-! ### Bytes of a word (R139) -/

theorem wbyte_not (a : Word) {i : Nat} (h : i < 4) : wbyte (~~~a) i = ~~~(wbyte a i) := by
  ext j hj
  simp [wbyte]
  omega

theorem permByte_true_not (d a : Word) {n : Nat} (h : n < 14) : permByte true (~~~d) (~~~a) n = ~~~(permByte false d a n) := by
  unfold permByte
  split
  · exact wbyte_not a ‹_›
  split
  · exact wbyte_not d (by omega)
  split
  · rfl
  split
  · rfl
  have hs : (wbyte (~~~a) (n - 10)).getLsbD 7 = !(wbyte a (n - 10)).getLsbD 7 := by
    rw [wbyte_not a (by omega), BitVec.getLsbD_not]
    rfl
  rw [hs]
  cases (wbyte a (n - 10)).getLsbD 7 <;> rfl

theorem permRun_true_not (d a : Word) {sel : BitVec 16} (h : permOk sel = true) :
    permRun true (~~~d) (~~~a) sel = (permRun false d a sel).complemented := by
  have hb : ∀ k < 4, permByte true (~~~d) (~~~a) (sel.extractLsb' (4 * k) 4).toNat =
      ~~~(permByte false d a (sel.extractLsb' (4 * k) 4).toNat) := by
    intro k hk
    rw [permOk, List.all_eq_true] at h
    exact permByte_true_not d a (of_decide_eq_true (h k (List.mem_range.2 hk)))
  refine Eq.trans (congrArg (Alu.of true · none none) ?_) (Alu.of_true_not ..)
  simp only [hb _ (by decide : 0 < 4), hb _ (by decide : 1 < 4), hb _ (by decide : 2 < 4), hb _ (by decide : 3 < 4)]
  rw [BitVec.not_append, BitVec.not_append, BitVec.not_append]

/-! ### The obligations -/

/-- Settles O13: the adder of `Laws/Alu` in the primary sense; a logic operation sets neither C nor V. -/
theorem adderResults : Obligations.AdderResults := by
  unfold Obligations.AdderResults
  intro a b c f
  refine ⟨fun op => ?_, ⟨?_, ?_, ?_⟩, ⟨addc_r a b c, ?_, addc_v a b c⟩, ⟨?_, ?_, ?_⟩,
    ⟨addc_not_r a b c, ?_, addc_not_v a b c⟩,
    fun op hop => ?_, rfl, rfl, rfl, rfl, rfl, rfl⟩
  · obtain ⟨co, vo, h⟩ := op.run_false_eq_of a b c
    rw [h]
    exact ⟨Alu.of_false_n .., Alu.of_false_z ..⟩
  · exact (addc_r a b false).trans (BitVec.add_zero _)
  · rw [Bin.run_false_add, Alu.sum_false_c, addc_c]
    rfl
  · rw [Bin.run_false_add, Alu.sum_false_v, addc_v]
    simp
  · rw [Bin.run_false_adc, Alu.sum_false_c, addc_c]
  · exact (addc_not_r a b true).trans (BitVec.sub_zero _)
  · rw [Bin.run_false_sub, Alu.sum_false_c, addc_not_c]
    rfl
  · rw [Bin.run_false_sub, Alu.sum_false_v, addc_not_v]
    simp
  · rw [Bin.run_false_sbc, Alu.sum_false_c, addc_not_c]
  · rw [Bin.run_false_logic hop]
    exact ⟨rfl, rfl⟩

/-- Settles O14: operation by operation. -/
theorem mirrorComplements : Obligations.MirrorComplements := by
  unfold Obligations.MirrorComplements
  exact ⟨Bin.run_true_not, Shift.run_true_not, Mul.run_true_not, Div.run_true_not, clzRun_true_not,
    fun d a pos w _ h => ⟨bfxRun_true_not a h, bfxsRun_true_not a h, bfiRun_true_not d a pos w⟩,
    fun d a sel h => permRun_true_not d a h⟩

end Sys2Proof.Machine

/-!
PROOFS. Memory and registers read after a write, the level of the Umpire as the highest of its contributions (R536, R539), the machine
state (R655, R680), and what commands that only store something leave alone. First what each of these operations does; then the obligations.
-/
namespace Sys2Proof.Machine

section
variable {s t u : State}

/-! ### Register fields and words of memory -/

theorem FieldsKept.refl (l : List Fld) (s : State) : FieldsKept l s s := fun _ _ => rfl

/-- A write of one of the fields of the list. -/
theorem FieldsKept.put {l : List Fld} {f : Fld} (h : FieldsKept l s t) (hf : f ∈ l) (v : Nat) : FieldsKept l s (t.put f v) :=
  fun g hg => (t.get_put_ne f g v fun he => hg (he.symm ▸ List.mem_map_of_mem hf)).trans (h g hg)

theorem FieldsKept.of_fields_eq {l : List Fld} (h : t.fields = s.fields) : FieldsKept l s t :=
  fun f _ => by rw [State.get, h, State.get]

/-- A word is stored as its four bytes. -/
theorem State.setWord_eq_setBytes (s : State) (k : Nat) (w : Word) :
    s.setWord k w = s.setBytes k [w.extractLsb' 0 8, w.extractLsb' 8 8, w.extractLsb' 16 8, w.extractLsb' 24 8] := rfl

theorem State.byte_setWord (s : State) (k : Nat) (w : Word) {j : Nat} (h : j < 4) :
    (s.setWord k w).byte (k + j) = w.extractLsb' (8 * j) 8 := by
  rw [State.setWord_eq_setBytes, State.byte_setBytes_in _ _ _ _ h]
  obtain rfl | rfl | rfl | rfl : j = 0 ∨ j = 1 ∨ j = 2 ∨ j = 3 := by omega
  all_goals rfl

theorem word_eq_append_bytes (w : Word) :
    w.extractLsb' 24 8 ++ w.extractLsb' 16 8 ++ w.extractLsb' 8 8 ++ w.extractLsb' 0 8 = w := by
  rw [BitVec.extractLsb'_append_extractLsb'_eq_extractLsb' (by decide : 24 = 16 + 8)]
  rw [BitVec.extractLsb'_append_extractLsb'_eq_extractLsb' (by decide : 16 = 8 + 8)]
  rw [BitVec.extractLsb'_append_extractLsb'_eq_extractLsb' (by decide : 8 = 0 + 8)]
  exact BitVec.extractLsb'_eq_self

theorem State.word_setWord (s : State) (k : Nat) (w : Word) : (s.setWord k w).word k = w := by
  rw [State.word, s.byte_setWord k w (by decide : 3 < 4), s.byte_setWord k w (by decide : 2 < 4), s.byte_setWord k w (by decide : 1 < 4),
    show (s.setWord k w).byte k = _ from s.byte_setWord k w (by decide : 0 < 4)]
  exact word_eq_append_bytes w

/-! ### The level of the Umpire (R536, R539) -/

/-- What a source adds to the level: nothing while it is CLEAR. -/
def Source.contribution (e : Source) : Nat := if e.state = .clear then 0 else codeLevel e.code

theorem Source.contribution_of_ne {e : Source} (h : e.state ≠ .clear) : e.contribution = codeLevel e.code := if_neg h

/-- In SAFE the level is 4; outside SAFE, in a device whose frames have started, it is the highest of the floor and the contributions. -/
theorem State.level_safe (h : s.ump.safe = true) : s.level = 4 := if_pos h

theorem State.level_eq (hs : s.ump.safe = false) (hf : s.frame.started = true) :
    s.level = s.ump.srcs.foldl (fun a e => max a e.2.contribution) (s.get UMP_CTL_FLOOR) := by
  rw [State.level, hs, hf]
  show List.foldl _ _ _ = _
  congr 1
  funext a e
  rw [Source.contribution]
  split
  · exact (Nat.max_zero a).symm
  · rfl

theorem le_foldl_contribution (l : Tab Source) (n : Nat) : n ≤ l.foldl (fun a e => max a e.2.contribution) n := by
  induction l generalizing n with
  | nil => exact Nat.le_refl n
  | cons e l ih => exact Nat.le_trans (Nat.le_max_left _ _) (ih _)

theorem contribution_le_foldl {l : Tab Source} {e : Nat × Source} (h : e ∈ l) (n : Nat) :
    e.2.contribution ≤ l.foldl (fun a e => max a e.2.contribution) n := by
  induction l generalizing n with
  | nil => simp at h
  | cons x l ih =>
    obtain rfl | h := List.mem_cons.1 h
    · exact Nat.le_trans (Nat.le_max_right _ _) (le_foldl_contribution l _)
    · exact ih h _

theorem foldl_contribution_attained (l : Tab Source) (n : Nat) :
    l.foldl (fun a e => max a e.2.contribution) n = n ∨
      ∃ e ∈ l, l.foldl (fun a e => max a e.2.contribution) n = e.2.contribution := by
  induction l generalizing n with
  | nil => exact .inl rfl
  | cons x l ih =>
    obtain h | ⟨e, he, h⟩ := ih (max n x.2.contribution)
    · rcases Nat.le_total n x.2.contribution with hle | hle
      · exact .inr ⟨x, List.mem_cons_self, h.trans (Nat.max_eq_right hle)⟩
      · exact .inl (h.trans (Nat.max_eq_left hle))
    · exact .inr ⟨e, List.mem_cons_of_mem _ he, h⟩

/-- A unit whose record is not the default one is listed. -/
theorem tget_mem {α : Type} {d : α} {m : Tab α} {k : Nat} (h : tget d m k ≠ d) : ∃ e ∈ m, e.2 = tget d m k := by
  induction m with
  | nil => exact absurd rfl h
  | cons x m ih =>
    by_cases hk : k = x.1
    · exact ⟨x, List.mem_cons_self, by simp [tget, Tab.get, hk]⟩
    · have hx : tget d (x :: m) k = tget d m k := by simp [tget, Tab.get, hk]
      obtain ⟨e, he, hv⟩ := ih (hx ▸ h)
      exact ⟨e, List.mem_cons_of_mem _ he, hv.trans hx.symm⟩

theorem State.contribution_le_level (hs : s.ump.safe = false) (hf : s.frame.started = true) {n : Nat} (h : (s.src n).state ≠ .clear) :
    codeLevel (s.src n).code ≤ s.level := by
  obtain ⟨e, he, hv⟩ := tget_mem (d := ({} : Source)) (m := s.ump.srcs) (k := n) (fun hd => h (by rw [State.src, hd]))
  rw [← Source.contribution_of_ne h, State.level_eq hs hf, State.src, ← hv]
  exact contribution_le_foldl he _

theorem State.floor_le_level (hs : s.ump.safe = false) (hf : s.frame.started = true) : s.get UMP_CTL_FLOOR ≤ s.level :=
  State.level_eq hs hf ▸ le_foldl_contribution _ _

theorem codeLevel_eq_of_pos {code : Nat} (h : codeLevel code ≠ 0) :
    (code = 3 ∧ codeLevel code = 1) ∨ (code = 4 ∧ codeLevel code = 2) ∨ (code = 5 ∧ codeLevel code = 3) := by
  unfold codeLevel at h ⊢
  split_ifs at h ⊢ <;> simp_all

theorem State.level_attained (hs : s.ump.safe = false) (hf : s.frame.started = true) :
    s.level = s.get UMP_CTL_FLOOR ∨ ∃ e ∈ s.ump.srcs, e.2.state ≠ .clear ∧
      ((e.2.code = 3 ∧ s.level = 1) ∨ (e.2.code = 4 ∧ s.level = 2) ∨ (e.2.code = 5 ∧ s.level = 3)) := by
  have hfloor := State.floor_le_level hs hf
  rw [State.level_eq hs hf] at hfloor ⊢
  obtain h | ⟨e, he, h⟩ := foldl_contribution_attained s.ump.srcs (s.get UMP_CTL_FLOOR)
  · exact .inl h
  by_cases hz : e.2.contribution = 0
  · exact .inl (by omega)
  have hc : e.2.state ≠ .clear := fun hclear => hz (if_pos hclear)
  rw [Source.contribution_of_ne hc] at h hz
  rw [h]
  exact .inr ⟨e, he, hc, codeLevel_eq_of_pos hz⟩

theorem exec_floorLevel (v : BitVec 2) (s : State) : exec (.floorLevel v) s = .next (s.put UMP_CTL_FLOOR v.toNat) := rfl

/-! ### The machine state (R655, R680) -/

theorem exec_machReq (v : BitVec 2) (h : s.alive = true) : exec (.machReq v) s = .next (machReq v.toNat s) := if_pos h

theorem machReq_ignored (h : s.pwr.ign = false) : machReq 2 s = s := if_pos (.inr ⟨rfl, h⟩)

theorem machReq_stored {v : Nat} (hphase : s.get PWR_STAT_PHASE = 0) (hign : v = 2 → s.pwr.ign = true) :
    machReq v s = (s.put PWR_MACH_REQ v).put PWR_MACH_STATE (if v = 3 then 0 else v) := by
  refine if_neg (not_or.2 ⟨fun h => h hphase, fun ⟨h2, hlow⟩ => ?_⟩)
  rw [hign h2] at hlow
  exact absurd hlow (by decide)

/-- The last act of a fall of `IGN_OK`: a machine that is RUNNING is PARKED, and its request with it. -/
def notRunning (s : State) : State := if s.get PWR_MACH_STATE = 2 then (s.put PWR_MACH_STATE 0).put PWR_MACH_REQ 0 else s

theorem notRunning_state (s : State) : (notRunning s).get PWR_MACH_STATE ≠ 2 := by
  unfold notRunning
  split
  · rw [State.get_put_ne _ _ _ _ (by decide), State.get_put]
    decide
  · assumption

theorem exec_ignOkFall {n : Nat} (h : s.power ≠ .off) : ∃ x, exec (.ignOkFall n) s = .next (notRunning x) := ⟨_, if_neg h⟩

/-! ### Commands that only store something -/

/-- The states that a command with one condition can answer. -/
theorem eq_of_next_ite {c : Prop} [Decidable c] (h : (if c then .next s else .next t : Res) = .next u) : u = s ∨ u = t := by
  split at h
  · exact .inl (Host.Outcome.next.inj h).symm
  · exact .inr (Host.Outcome.next.inj h).symm

theorem ttPost_frame (i : Nat) (s : State) : { ttPost i s with frame := { (ttPost i s).frame with posts := s.frame.posts } } = s := by
  unfold ttPost
  split <;> rfl

theorem tmrPost_frame (c : Nat) (s : State) : { tmrPost c s with tmrPosts := s.tmrPosts } = s := by
  unfold tmrPost
  split <;> rfl

theorem exec_chtPost_frame {i : BitVec 9} (h : exec (.chtPost i) s = .next t) :
    FieldsKept [CHT_POST_STAT_IDX_ERR] s t ∧ { t with chtPosts := s.chtPosts, fields := s.fields } = s := by
  rw [show exec (.chtPost i) s = execChtPost i s from rfl, execChtPost] at h
  split at h
  · obtain rfl := Host.Outcome.next.inj h
    exact ⟨(FieldsKept.refl _ s).put List.mem_cons_self _, rfl⟩
  · obtain rfl | rfl := eq_of_next_ite h
    · exact ⟨FieldsKept.refl _ _, rfl⟩
    · exact ⟨FieldsKept.refl _ _, rfl⟩

theorem State.modDie_frame (s : State) (k : Nat) (f : Die → Die) :
    { s.modDie k f with dies := s.dies } = s ∧ ∀ j, j ≠ k → (s.modDie k f).die j = s.die j :=
  ⟨rfl, fun _ hj => Tab.get_set_ne _ _ _ hj⟩

/-- Only the fields of `l` and the record of the chain differ. -/
def OnlySetting (l : List Fld) (s t : State) : Prop := FieldsKept l s t ∧ { t with fields := s.fields, chain := s.chain } = s

theorem OnlySetting.refl (l : List Fld) (s : State) : OnlySetting l s s := ⟨FieldsKept.refl l s, rfl⟩

theorem OnlySetting.put {l : List Fld} {f : Fld} (h : OnlySetting l s t) (hf : f ∈ l) (v : Nat) : OnlySetting l s (t.put f v) :=
  ⟨h.1.put hf v, h.2⟩

theorem OnlySetting.chain {l : List Fld} (h : OnlySetting l s t) (x : Chain) : OnlySetting l s { t with chain := x } := h

/-- A setting that is taken under a condition. -/
theorem OnlySetting.of_next_ite {l : List Fld} {c : Prop} [Decidable c] (ht : OnlySetting l s t)
    (h : (if c then .next t else .next s : Res) = .next u) : OnlySetting l s u := by
  obtain rfl | rfl := eq_of_next_ite h
  · exact ht
  · exact OnlySetting.refl l _

theorem chainStart_setting (s : State) : OnlySetting [PCHN_CTL_CHAIN_EN, PCHN_STAT_STATE] s (chainStart s) := by
  unfold chainStart
  split
  · exact OnlySetting.refl _ s
  · exact (((OnlySetting.refl _ s).put (by decide) _).put (by decide) _).chain _

theorem exec_covEn_setting (h : exec .covEn s = .next t) : OnlySetting [COV_CTL_EN, COV_STAT_STATE] s t := by
  have hen : OnlySetting [COV_CTL_EN, COV_STAT_STATE] s (s.flag COV_CTL_EN true) := (OnlySetting.refl _ s).put (by decide) _
  obtain rfl | rfl := eq_of_next_ite h
  · exact OnlySetting.refl _ _
  · split
    · exact hen.put (by decide) _
    · exact hen

theorem exec_lfcalMeasure_frame {n : Nat} {cal : BitVec 32} (h : exec (.lfcalMeasure n cal) s = .next t) :
    FieldsKept [TBASE_LFCAL_INT, TBASE_LFCAL_FRAC] s t ∧ { t with fields := s.fields, now := s.now } = s := by
  have hat : FieldsKept [TBASE_LFCAL_INT, TBASE_LFCAL_FRAC] s (s.at n) := FieldsKept.of_fields_eq rfl
  obtain rfl | rfl := eq_of_next_ite h
  · exact ⟨(hat.put (by decide) _).put (by decide) _, rfl⟩
  · exact ⟨hat, rfl⟩

/-- Only channel `k` and the time base differ. -/
def OnlyChan (k : Nat) (s t : State) : Prop := { t with chans := s.chans, now := s.now } = s ∧ ∀ j, j ≠ k → t.chan j = s.chan j

theorem OnlyChan.at (k : Nat) (s : State) (n : Nat) : OnlyChan k s (s.at n) := ⟨rfl, fun _ _ => rfl⟩

theorem OnlyChan.setChan {k : Nat} (h : OnlyChan k s t) (x : Chan) : OnlyChan k s (t.setChan k x) :=
  ⟨h.1, fun j hj => (t.chan_setChan_ne k j x hj).trans (h.2 j hj)⟩

/-- A record of the channel that is written under a condition. -/
theorem OnlyChan.of_next_ite {k : Nat} {x : Chan} {c : Prop} [Decidable c] (ht : OnlyChan k s t)
    (h : (if c then .next (t.setChan k x) else .next t : Res) = .next u) : OnlyChan k s u := by
  obtain rfl | rfl := eq_of_next_ite h
  · exact ht.setChan x
  · exact ht

theorem exec_inrushWindowEnd_frame {i : Fin 152} {n : Nat} (h : exec (.inrushWindowEnd i n) s = .next t) : OnlyChan i s t := by
  rw [show exec (.inrushWindowEnd i n) s = execInrushWindowEnd i n s from rfl, execInrushWindowEnd] at h
  split at h
  · exact (OnlyChan.at i s n).of_next_ite h
  · obtain rfl := Host.Outcome.next.inj h
    exact OnlyChan.at i s n

theorem exec_retryCntReset_frame {i : Fin 152} {n : Nat} (h : exec (.retryCntReset i n) s = .next t) : OnlyChan i s t := by
  rw [show exec (.retryCntReset i n) s = execRetryCntReset i n s from rfl, execRetryCntReset] at h
  split at h
  · exact (OnlyChan.at i s n).of_next_ite h
  · obtain rfl := Host.Outcome.next.inj h
    exact OnlyChan.at i s n

theorem exec_ripple_frame {b : Fin 4} {n : Nat} (h : exec (.ripple b n) s = .next t) : OnlyChan (2 * b) s t :=
  (OnlyChan.at _ s n).of_next_ite h

end

/-! ### The obligations -/

/-- Settles O29: bytes are written one by one, a word as four bytes, a field in a table. -/
theorem memoryReadsBack : Obligations.MemoryReadsBack := by
  unfold Obligations.MemoryReadsBack
  refine ⟨fun s k l => ⟨fun j hj => s.byte_setBytes_in k j l hj, fun a ha => s.byte_setBytes_out k a l ha⟩,
    fun s k w => ⟨s.word_setWord k w, fun a => s.byte_setBytes_out k a [_, _, _, _]⟩,
    fun s f v => ⟨s.get_put f v, (FieldsKept.refl _ s).put List.mem_cons_self v, rfl⟩⟩

/-- Settles O25: the level is the maximum over the floor and the contributions of the sources; a write of the floor changes nothing else. -/
theorem degradationLevel : Obligations.DegradationLevel := by
  unfold Obligations.DegradationLevel
  refine ⟨fun s => State.level_safe, fun s hs hf => ⟨State.floor_le_level hs hf, fun n hn => ?_, State.level_attained hs hf⟩,
    fun v s t ht hs hf => ?_⟩
  · have h := State.contribution_le_level hs hf hn
    exact ⟨fun hc => by rwa [hc] at h, fun hc => by rwa [hc] at h, fun hc => by rwa [hc] at h⟩
  · obtain rfl : t = s.put UMP_CTL_FLOOR v.toNat := (Host.Outcome.next.inj ((exec_floorLevel v s).symm.trans ht)).symm
    have hfloor : (s.put UMP_CTL_FLOOR v.toNat).get UMP_CTL_FLOOR = v.toNat := (s.get_put _ _).trans (Nat.mod_eq_of_lt v.isLt)
    exact ⟨hfloor.ge.trans (State.floor_le_level hs hf), (FieldsKept.refl _ s).put List.mem_cons_self _, rfl⟩

/-- Settles O28: `PWR_MACH.REQ` and `PWR_MACH.STATE` are two fields; after `IGN_OK` has fallen the state is overwritten if it is RUNNING. -/
theorem machineState : Obligations.MachineState := by
  unfold Obligations.MachineState
  refine ⟨fun s hs hign => ?_, fun v s t hs hphase hign ht => ?_, fun t s u hs hu => ?_, by decide, by decide⟩
  · rw [exec_machReq _ hs]
    exact congrArg _ (machReq_ignored hign)
  · rw [exec_machReq _ hs, machReq_stored hphase hign] at ht
    obtain rfl := Host.Outcome.next.inj ht
    refine ⟨?_, ?_, ((FieldsKept.refl _ s).put (by decide) _).put (by decide) _, rfl⟩
    · rw [State.get_put_ne _ _ _ _ (by decide), State.get_put]
      exact Nat.mod_eq_of_lt v.isLt
    · rw [State.get_put]
      refine Nat.mod_eq_of_lt ?_
      have hv := v.isLt
      split
      · decide
      · exact hv
  · obtain ⟨x, hx⟩ := exec_ignOkFall (n := t) hs
    obtain rfl := Host.Outcome.next.inj (hx.symm.trans hu)
    exact notRunning_state x

/-- Settles O30: each command answers its state as it was, or with one update of the part that is its own. -/
theorem commandFrames : Obligations.CommandFrames := by
  unfold Obligations.CommandFrames
  refine ⟨fun i s t h => ?_, fun c s t h => ?_, fun i s t h => ?_, fun i s t h => exec_chtPost_frame h, fun k s t i hi h => ?_,
    fun n s t i l hi h => ?_, fun t cal s u h => exec_lfcalMeasure_frame h, fun i b t s u c k hi h => ?_⟩
  · obtain rfl | rfl := eq_of_next_ite h
    · exact ttPost_frame i s
    · rfl
  · obtain rfl := Host.Outcome.next.inj h
    exact tmrPost_frame c s
  · obtain rfl := Host.Outcome.next.inj h
    rfl
  · simp only [List.mem_cons, List.not_mem_nil, or_false] at hi
    obtain rfl | rfl := hi
    · obtain rfl := Host.Outcome.next.inj h
      exact s.modDie_frame k _
    · obtain rfl | rfl := eq_of_next_ite h
      · exact s.modDie_frame k _
      · exact ⟨rfl, fun _ _ => rfl⟩
  · have henable : ∀ f, OnlySetting [f] s (s.flag f true) := fun f => (OnlySetting.refl _ s).put List.mem_cons_self _
    simp only [List.mem_cons, List.not_mem_nil, or_false, Prod.mk.injEq] at hi
    obtain ⟨rfl, rfl⟩ | ⟨rfl, rfl⟩ | ⟨rfl, rfl⟩ | ⟨rfl, rfl⟩ | ⟨rfl, rfl⟩ | ⟨rfl, rfl⟩ | ⟨rfl, rfl⟩ := hi
    · exact (henable _).of_next_ite h
    · exact (henable _).of_next_ite h
    · exact (henable _).of_next_ite h
    · obtain rfl := Host.Outcome.next.inj h
      exact henable _
    · exact (henable _).of_next_ite h
    · exact exec_covEn_setting h
    · exact (chainStart_setting s).of_next_ite h
  · simp only [List.mem_cons, List.not_mem_nil, or_false, Prod.mk.injEq] at hi
    obtain ⟨rfl, rfl⟩ | ⟨rfl, rfl⟩ | ⟨rfl, rfl⟩ := hi
    · exact exec_inrushWindowEnd_frame h
    · exact exec_retryCntReset_frame h
    · exact exec_ripple_frame h

end Sys2Proof.Machine

/-!
PROOFS. The data and system instructions on a ready core: what each shape of instruction answers (R128, R136-R139, R144), which of them
takes an exception instead, and what it leaves alone. First one lemma for each shape; then the obligations.
-/
namespace Sys2Proof.Machine

section
variable {c gd ga gb : Nat} {s : State}

/-! ### What an instruction answers, shape by shape -/

/-- An instruction whose fetch is refused takes the exception of the fetch, whatever it is. -/
theorem xob_fetchExc {chk : State → Option Exc} {eff : State → State} {x : Exc} (h : s.coreRuns c = true)
    (hx : (s.begun c).fetchExc c ((s.begun c).pc c) = some x) : xob c chk eff s = .next (takeExc c x (s.begun c)) := by
  unfold xob
  rw [if_pos h]
  simp only [State.begun] at hx ⊢
  rw [hx]

theorem binOp_fetchExc (op : Bin) {x : Exc} (h : s.coreRuns c = true) (hx : (s.begun c).fetchExc c ((s.begun c).pc c) = some x) :
    binOp op c gd ga gb s = .next (takeExc c x (s.begun c)) := by
  rw [binOp, dataOp, xob_fetchExc h hx]

theorem immOp_fetchExc (op : Bin) {imm : Word} {x : Exc} (h : s.coreRuns c = true)
    (hx : (s.begun c).fetchExc c ((s.begun c).pc c) = some x) : immOp op c gd ga imm s = .next (takeExc c x (s.begun c)) := by
  rw [immOp, dataOp, xob_fetchExc h hx]

theorem mulOp_fetchExc (op : Mul) {x : Exc} (h : s.coreRuns c = true) (hx : (s.begun c).fetchExc c ((s.begun c).pc c) = some x) :
    mulOp op c gd ga gb s = .next (takeExc c x (s.begun c)) := by
  rw [mulOp, dataOp, xob_fetchExc h hx]

theorem coreReady_runs (h : s.coreReady c = true) : s.coreRuns c = true := by
  rw [State.coreReady, Bool.and_eq_true] at h
  exact h.1

theorem excIf_eq_none {b : Bool} {x : Exc} {o : Option Exc} (hb : b = false) (ho : o = none) : excIf b x o = none := by
  rw [excIf, hb, ho]
  rfl

theorem excIf_eq_some {b : Bool} {x : Exc} (o : Option Exc) (hb : b = true) : excIf b x o = some x := if_pos hb

theorem binOp_ready (op : Bin) (h : s.coreReady c = true) : binOp op c gd ga gb s = .next (advance c 1 ((s.begun c).result c gd
    (op.run ((s.begun c).mirror c) ((s.begun c).reg c ga) ((s.begun c).reg c gb) ((s.begun c).bank c).fl.c))) := dataOp_ready h

theorem immOp_ready (op : Bin) (imm : Word) (h : s.coreReady c = true) : immOp op c gd ga imm s = .next (advance c 1
    ((s.begun c).result c gd
      (op.run ((s.begun c).mirror c) ((s.begun c).reg c ga) ((s.begun c).sense c imm) ((s.begun c).bank c).fl.c))) := dataOp_ready h

theorem shiftOp_ready (op : Shift) (h : s.coreReady c = true) : shiftOp op c gd ga gb s = .next (advance c 1 ((s.begun c).result c gd
    (op.run ((s.begun c).mirror c) ((s.begun c).reg c ga) (((s.begun c).steer c gb).toNat % 256)))) := dataOp_ready h

theorem shiftImm_ready (op : Shift) {sh : Nat} (h : s.coreReady c = true) : shiftImm op c gd ga sh s = .next (advance c 1
    ((s.begun c).result c gd (op.run ((s.begun c).mirror c) ((s.begun c).reg c ga) sh))) := dataOp_ready h

theorem mulOp_ready (op : Mul) (h : s.coreReady c = true) : mulOp op c gd ga gb s = .next (advance c 1 ((s.begun c).result c gd
    (op.run ((s.begun c).mirror c) ((s.begun c).reg c ga) ((s.begun c).reg c gb)))) := dataOp_ready h

/-- A failed residue check raises DPCHECK and names its source (R157). -/
theorem divOp_dpcheck (op : Div) (h : s.coreReady c = true) :
    divOp op c gd ga gb false s = .next (takeExc c { cause := 10, src := some (72 + c) } (s.begun c)) := xob_exc h rfl

theorem fieldOp_ready {pos w1 : Nat} (f : State → Nat → Alu) (h : s.coreReady c = true) (hw : pos + w1 + 1 ≤ 32) :
    fieldOp c gd pos w1 f s = .next (advance c 1 ((s.begun c).result c gd (f (s.begun c) (w1 + 1)))) :=
  xob_ready h (excIf_eq_none (decide_eq_false (Nat.not_lt.2 hw)) rfl)

theorem fieldOp_undef {pos w1 : Nat} (f : State → Nat → Alu) (h : s.coreReady c = true) (hw : 32 < pos + w1 + 1) :
    fieldOp c gd pos w1 f s = .next (takeExc c undefExc (s.begun c)) :=
  xob_exc h (excIf_eq_some _ (decide_eq_true hw))

theorem execBfx_ready {core : Fin 4} {gd ga pos w1 : Fin 32} (h : s.coreReady core = true) (hw : pos.val + w1.val + 1 ≤ 32) :
    execBfx core gd ga pos w1 s = .next (advance core 1 ((s.begun core).result core gd
      (bfxRun ((s.begun core).mirror core) ((s.begun core).reg core ga) pos (w1 + 1)))) := fieldOp_ready _ h hw

theorem execBfxs_ready {core : Fin 4} {gd ga pos w1 : Fin 32} (h : s.coreReady core = true) (hw : pos.val + w1.val + 1 ≤ 32) :
    execBfxs core gd ga pos w1 s = .next (advance core 1 ((s.begun core).result core gd
      (bfxsRun ((s.begun core).mirror core) ((s.begun core).reg core ga) pos (w1 + 1)))) := fieldOp_ready _ h hw

theorem execBfi_ready {core : Fin 4} {gd ga pos w1 : Fin 32} (h : s.coreReady core = true) (hw : pos.val + w1.val + 1 ≤ 32) :
    execBfi core gd ga pos w1 s = .next (advance core 1 ((s.begun core).result core gd
      (bfiRun ((s.begun core).mirror core) ((s.begun core).reg core gd) ((s.begun core).reg core ga) pos (w1 + 1)))) :=
  fieldOp_ready _ h hw

theorem execPerm_ready {core : Fin 4} {gd ga : Fin 32} {sl : BitVec 16} (h : s.coreReady core = true) (hs : permOk sl = true) :
    execPerm core gd ga sl s = .next (advance core 1 ((s.begun core).result core gd
      (permRun ((s.begun core).mirror core) ((s.begun core).reg core gd) ((s.begun core).reg core ga) sl))) :=
  xob_ready h (excIf_eq_none (by rw [hs]; rfl) rfl)

theorem execPerm_undef {core : Fin 4} {gd ga : Fin 32} {sl : BitVec 16} (h : s.coreReady core = true) (hs : permOk sl = false) :
    execPerm core gd ga sl s = .next (takeExc core undefExc (s.begun core)) :=
  xob_exc h (excIf_eq_some _ (by rw [hs]; rfl))

theorem execMovhi_ready {core : Fin 4} {gd : Fin 32} {imm : BitVec 16} (h : s.coreReady core = true) :
    execMovhi core gd imm s = .next (advance core 1 ((s.begun core).result core gd
      (Alu.of ((s.begun core).mirror core) ((s.begun core).sense core (imm ++ (0 : BitVec 16))) none none))) := dataOp_ready h

theorem execClz_ready {core : Fin 4} {gd ga : Fin 32} (h : s.coreReady core = true) :
    execClz core gd ga s = .next (advance core 1 ((s.begun core).result core gd
      (clzRun ((s.begun core).mirror core) ((s.begun core).reg core ga)))) := dataOp_ready h

theorem execSel_ready {core : Fin 4} {gd ga gb : Fin 32} {cond : Fin 16} (h : s.coreReady core = true) (hc : cond ≠ 15) :
    execSel core gd ga gb cond s = .next (advance core 1 ((s.begun core).setReg core gd
      (if ((s.begun core).bank core).fl.holds cond then (s.begun core).reg core ga else (s.begun core).reg core gb))) :=
  xob_ready h (excIf_eq_none (beq_eq_false_iff_ne.2 hc) rfl)

theorem execMfc_ready {core : Fin 4} {gd : Fin 32} {cr : Fin 1024} (h : s.coreReady core = true)
    (hc : s.tMode core = false ∨ tReads cr = true) : execMfc core gd cr s = .next (advance core 1
      ((ctrlRead core cr (s.begun core)).setReg core gd ((s.begun core).sense core ((s.begun core).ctrl core cr)))) :=
  xob_ready h (excIf_eq_none (by rw [State.begun_tMode]; obtain hc | hc := hc <;> simp [hc]) rfl)

theorem execMfc_priv {core : Fin 4} {gd : Fin 32} {cr : Fin 1024} (h : s.coreReady core = true) (ht : s.tMode core = true)
    (hc : tReads cr = false) : execMfc core gd cr s = .next (takeExc core privExc (s.begun core)) :=
  xob_exc h (excIf_eq_some _ (by rw [State.begun_tMode, ht, hc]; rfl))

theorem execMtc_ready {core : Fin 4} {ga : Fin 32} {cr : Fin 1024} (h : s.coreReady core = true)
    (hc : s.tMode core = false ∨ tWrites cr = true) : execMtc core cr ga s =
      .next (advance core 1 ((s.begun core).setCtrl core cr ((s.begun core).steer core ga))) :=
  xob_ready h (excIf_eq_none (by rw [State.begun_tMode]; obtain hc | hc := hc <;> simp [hc]) rfl)

theorem execMtc_priv {core : Fin 4} {ga : Fin 32} {cr : Fin 1024} (h : s.coreReady core = true) (ht : s.tMode core = true)
    (hc : tWrites cr = false) : execMtc core cr ga s = .next (takeExc core privExc (s.begun core)) :=
  xob_exc h (excIf_eq_some _ (by rw [State.begun_tMode, ht, hc]; rfl))

theorem execEret_priv {core : Fin 4} (h : s.coreReady core = true) (ht : s.tMode core = true) :
    execEret core s = .next (takeExc core privExc (s.begun core)) := xob_exc h (excIf_eq_some _ (by rw [State.begun_tMode, ht]))

theorem execWfi_priv {core : Fin 4} (h : s.coreReady core = true) (ht : s.tMode core = true) :
    execWfi core s = .next (takeExc core privExc (s.begun core)) := xob_exc h (excIf_eq_some _ (by rw [State.begun_tMode, ht]))

theorem loadOp_fetchExc {imm : BitVec 16} {n : Nat} {sgn : Bool} {x : Exc} (h : s.coreRuns c = true)
    (hx : (s.begun c).fetchExc c ((s.begun c).pc c) = some x) : loadOp c gd ga imm n sgn s = .next (takeExc c x (s.begun c)) := by
  rw [loadOp, xob_fetchExc h hx]

theorem storeOp_fetchExc {imm : BitVec 16} {n : Nat} {x : Exc} (h : s.coreRuns c = true)
    (hx : (s.begun c).fetchExc c ((s.begun c).pc c) = some x) : storeOp c gd ga imm n s = .next (takeExc c x (s.begun c)) := by
  rw [storeOp, xob_fetchExc h hx]

theorem loadOp_exc {imm : BitVec 16} {n : Nat} {sgn : Bool} {x : Exc} (h : s.coreReady c = true)
    (hx : (s.begun c).accessExc c false ((s.begun c).address c ga imm) n = some x) :
    loadOp c gd ga imm n sgn s = .next (takeExc c x (s.begun c)) := xob_exc h hx

theorem storeOp_exc {imm : BitVec 16} {n : Nat} {x : Exc} (h : s.coreReady c = true)
    (hx : (s.begun c).accessExc c true ((s.begun c).address c ga imm) n = some x) :
    storeOp c gd ga imm n s = .next (takeExc c x (s.begun c)) := xob_exc h hx

theorem loadOp_ready {imm : BitVec 16} {n : Nat} {sgn : Bool} (h : s.coreReady c = true)
    (hx : (s.begun c).accessExc c false ((s.begun c).address c ga imm) n = none) :
    loadOp c gd ga imm n sgn s = .next (advance c 1 (((s.begun c).load c ((s.begun c).address c ga imm) n sgn).2.setReg c gd
      ((s.begun c).load c ((s.begun c).address c ga imm) n sgn).1)) := xob_ready h hx

theorem storeOp_ready {imm : BitVec 16} {n : Nat} (h : s.coreReady c = true)
    (hx : (s.begun c).accessExc c true ((s.begun c).address c ga imm) n = none) :
    storeOp c gd ga imm n s = .next (storeWord c ((s.begun c).address c ga imm) n ((s.begun c).reg c gd) (s.begun c)) := xob_ready h hx

end

/-! ### The obligations -/

/-- Settles O31: each is a data operation of two registers; SEL tests its condition. -/
theorem coreRegisterOperations : Obligations.CoreRegisterOperations := by
  unfold Obligations.CoreRegisterOperations
  exact ⟨fun _ _ _ _ _ => binOp_ready .add, fun _ _ _ _ _ => binOp_ready .sub, fun _ _ _ _ _ => binOp_ready .adc,
    fun _ _ _ _ _ => binOp_ready .sbc, fun _ _ _ _ _ => binOp_ready .and, fun _ _ _ _ _ => binOp_ready .or,
    fun _ _ _ _ _ => binOp_ready .xor, fun _ _ _ _ _ => binOp_ready .andn, fun _ _ _ _ _ => binOp_ready .orn,
    fun _ _ _ _ _ => binOp_ready .xnor, fun _ _ _ _ => binOp_ready .sub, fun _ _ _ _ => binOp_ready .and,
    fun _ _ _ _ _ _ h => execSel_ready h.1 h.2⟩

/-- Settles O32: each is a shift, a product, or a division whose residue check holds. -/
theorem coreShiftMultiplyDivide : Obligations.CoreShiftMultiplyDivide := by
  unfold Obligations.CoreShiftMultiplyDivide
  exact ⟨fun _ _ _ _ _ => shiftOp_ready .lsl, fun _ _ _ _ _ => shiftImm_ready .lsl, fun _ _ _ _ _ => shiftOp_ready .lsr,
    fun _ _ _ _ _ => shiftImm_ready .lsr, fun _ _ _ _ _ => shiftOp_ready .asr, fun _ _ _ _ _ => shiftImm_ready .asr,
    fun _ _ _ _ _ => shiftOp_ready .ror, fun _ _ _ _ _ => shiftImm_ready .ror, fun _ _ _ _ _ => mulOp_ready .lo,
    fun _ _ _ _ _ => mulOp_ready .hs, fun _ _ _ _ _ => mulOp_ready .hu, fun _ _ _ _ _ => divOp_ready .quoS,
    fun _ _ _ _ _ => divOp_ready .quoU, fun _ _ _ _ _ => divOp_ready .remS, fun _ _ _ _ _ => divOp_ready .remU⟩

/-- Settles O33: an immediate enters extended; MOVHI and CLZ are data operations of their own; a field or a selector is checked first. -/
theorem coreImmediateAndFieldOperations : Obligations.CoreImmediateAndFieldOperations := by
  unfold Obligations.CoreImmediateAndFieldOperations
  exact ⟨fun _ _ _ _ _ => immOp_ready .add _, fun _ _ _ _ _ => immOp_ready .xor _, fun _ _ _ _ _ => immOp_ready .and _,
    fun _ _ _ _ _ => immOp_ready .or _, fun _ _ _ _ => immOp_ready .sub _, fun _ _ _ _ => immOp_ready .and _,
    fun _ _ _ _ => execMovhi_ready, fun _ _ _ _ => execClz_ready, fun _ _ _ _ _ _ h => execBfx_ready h.1 h.2,
    fun _ _ _ _ _ _ h => execBfxs_ready h.1 h.2, fun _ _ _ _ _ _ h => execBfi_ready h.1 h.2,
    fun _ _ _ _ _ h => execPerm_ready h.1 h.2⟩

/-- Settles O17: the fetch is checked before anything of the instruction, then the instruction's own exceptions. -/
theorem instructionExceptions : Obligations.InstructionExceptions := by
  unfold Obligations.InstructionExceptions
  refine ⟨fun core gd ga gb imm x s i hi hruns hx => ?_, fun core gd ga imm x s i st n hi hready hx => ?_,
    fun core gd ga pos w1 sl s hready => ⟨fun hw => ⟨?_, ?_, ?_⟩, fun hs => ?_⟩, fun core gd ga gb s i hi hready => ?_,
    fun core gd ga cr s hready ht => ⟨fun hc => ?_, fun hc => ?_, ?_, ?_⟩⟩
  · simp only [List.mem_cons, List.not_mem_nil, or_false] at hi
    obtain rfl | rfl | rfl | rfl | rfl | rfl | rfl | rfl | rfl | rfl | rfl | rfl | hi := hi
    iterate 12 exact binOp_fetchExc _ hruns hx
    obtain rfl | rfl | rfl | rfl | rfl | rfl | rfl | rfl | rfl | rfl | rfl := hi
    iterate 3 exact mulOp_fetchExc _ hruns hx
    · exact immOp_fetchExc _ hruns hx
    · exact loadOp_fetchExc hruns hx
    · exact storeOp_fetchExc hruns hx
    · exact (show execJr core ga s = _ from xob_fetchExc hruns hx)
    · exact (show execNop core s = _ from xob_fetchExc hruns hx)
    · exact (show execSync core s = _ from xob_fetchExc hruns hx)
    · exact (show execEret core s = _ from xob_fetchExc hruns hx)
    · exact (show execWfi core s = _ from xob_fetchExc hruns hx)
  · simp only [List.mem_cons, List.not_mem_nil, or_false, Prod.mk.injEq] at hi
    obtain ⟨rfl, rfl, rfl⟩ | ⟨rfl, rfl, rfl⟩ | ⟨rfl, rfl, rfl⟩ | ⟨rfl, rfl, rfl⟩ |
      ⟨rfl, rfl, rfl⟩ | ⟨rfl, rfl, rfl⟩ | ⟨rfl, rfl, rfl⟩ | ⟨rfl, rfl, rfl⟩ := hi
    iterate 5 exact loadOp_exc hready hx
    iterate 3 exact storeOp_exc hready hx
  · exact (show execBfx core gd ga pos w1 s = _ from fieldOp_undef _ hready hw)
  · exact (show execBfxs core gd ga pos w1 s = _ from fieldOp_undef _ hready hw)
  · exact (show execBfi core gd ga pos w1 s = _ from fieldOp_undef _ hready hw)
  · exact execPerm_undef hready hs
  · fin_cases hi
    · exact divOp_dpcheck (gd := gd) (ga := ga) (gb := gb) .quoS hready
    · exact divOp_dpcheck (gd := gd) (ga := ga) (gb := gb) .quoU hready
    · exact divOp_dpcheck (gd := gd) (ga := ga) (gb := gb) .remS hready
    · exact divOp_dpcheck (gd := gd) (ga := ga) (gb := gb) .remU hready
  · exact execMfc_priv hready ht hc
  · exact execMtc_priv hready ht hc
  · exact execEret_priv hready ht
  · exact execWfi_priv hready ht

end Sys2Proof.Machine

/-!
PROOFS. Branches, jumps, loops, loads, stores and system instructions on a ready core (R140-R152): what each of them answers; then the
obligations on them.
-/
namespace Sys2Proof.Machine

section
variable {core : Fin 4} {gd ga : Fin 32} {imm : BitVec 16} {s : State}

/-! ### Branches and jumps -/

/-- A branch or a system instruction that is not the last of an active loop body raises no LOOP. -/
theorem loopExc_none (h : (s.begun core).atLoopEnd core = false) : excIf ((s.begun core).atLoopEnd core) loopExc none = none :=
  excIf_eq_none h rfl

theorem execBr_ready {cond : Fin 16} {disp : BitVec 22} (h : s.coreReady core = true) (hc : cond ≠ 15)
    (hl : (s.begun core).atLoopEnd core = false) : execBr core cond disp s = .next
      (if ((s.begun core).bank core).fl.holds cond then
        branchTo core 2 (dispTo ((s.begun core).pc core) (disp.signExtend 32)) (s.begun core)
      else advance core 1 (s.begun core)) :=
  xob_ready h (excIf_eq_none (beq_eq_false_iff_ne.2 hc) (loopExc_none hl))

theorem execBl_ready {disp : BitVec 26} (h : s.coreReady core = true) (hl : (s.begun core).atLoopEnd core = false) :
    execBl core disp s = .next (branchTo core 2 (dispTo ((s.begun core).pc core) (disp.signExtend 32))
      ((s.begun core).setReg core 31 ((s.begun core).sense core ((s.begun core).pc core + 4)))) := xob_ready h (loopExc_none hl)

theorem execJr_ready (h : s.coreReady core = true) (hj : (s.begun core).jumpExc core ga = none) :
    execJr core ga s = .next (branchTo core 3 ((s.begun core).steer core ga) (s.begun core)) := xob_ready h hj

theorem execJalr_ready (h : s.coreReady core = true) (hj : (s.begun core).jumpExc core ga = none) :
    execJalr core gd ga s = .next (branchTo core 3 ((s.begun core).steer core ga)
      ((s.begun core).setReg core gd ((s.begun core).sense core ((s.begun core).pc core + 4)))) := xob_ready h hj

theorem execLoopR_ready {lvl : Fin 4} {off : BitVec 19} (h : s.coreReady core = true)
    (hl : (s.begun core).loopExcs core lvl false (off.zeroExtend 32) = none) : execLoopR core lvl ga off s =
      .next (loopStart core lvl ((s.begun core).steer core ga) (off.zeroExtend 32) (s.begun core)) := xob_ready h hl

theorem execLoopi_ready {lvl : Fin 4} {cnt off : BitVec 12} (h : s.coreReady core = true)
    (hl : (s.begun core).loopExcs core lvl (cnt == 0) (off.zeroExtend 32) = none) : execLoopi core lvl cnt off s =
      .next (loopStart core lvl (cnt.zeroExtend 32) (off.zeroExtend 32) (s.begun core)) := xob_ready h hl

/-! ### System instructions -/

theorem execSync_ready (h : s.coreReady core = true) : execSync core s = .next (advance core 1 (s.begun core)) := xob_ready h rfl

theorem execTrap_ready {num : BitVec 10} (h : s.coreReady core = true) (hl : (s.begun core).atLoopEnd core = false) :
    execTrap core num s = .next (takeExc core { cause := 9, info := some num.toNat } (s.begun core)) := xob_exc h (if_neg (by simp [hl]))

/-- The instructions of S mode raise no PRIV there. -/
theorem privExc_none (ht : s.tMode core = false) (hl : (s.begun core).atLoopEnd core = false) :
    excIf ((s.begun core).tMode core) privExc (excIf ((s.begun core).atLoopEnd core) loopExc none) = none :=
  excIf_eq_none ((s.begun_tMode core).trans ht) (loopExc_none hl)

theorem execEret_ready (h : s.coreReady core = true) (ht : s.tMode core = false) (hl : (s.begun core).atLoopEnd core = false) :
    execEret core s = .next (retired core (spend core 1 ((s.begun core).setCore core
      { ((s.begun core).core core).setPsr ((s.begun core).core core).epsr with sPc := ((s.begun core).core core).epc }))) :=
  xob_ready h (privExc_none ht hl)

theorem execWfi_ready (h : s.coreReady core = true) (ht : s.tMode core = false) (hl : (s.begun core).atLoopEnd core = false) :
    execWfi core s = .next ((advance core 1 (s.begun core)).setCore core
      { (advance core 1 (s.begun core)).core core with waiting := true }) := xob_ready h (privExc_none ht hl)

theorem execInterrupt_due (hr : s.coreRuns core = true) (hp : (s.core core).pass = none) (hi : (s.core core).ie = true)
    (he : (s.core core).exl = false) (hm : (s.core core).ipend.zeroExtend 32 &&& (s.core core).imask ≠ 0) :
    execInterrupt core s = .next (s.setCore core { (s.core core).enter 0x40 with waiting := false }) :=
  if_pos (by simpa [hr, hp, hi, he] using hm)

theorem execUndef_ready {w : Word} (h : s.coreReady core = true) (hw : legalWord w = false) :
    execUndef core w s = .next (takeExc core undefExc (s.begun core)) := by
  rw [execUndef, hw]
  exact xob_exc (chk := fun _ => some undefExc) (eff := id) h rfl

/-! ### `AGREE` in a pass -/

theorem execAgree_ready {p : Pass} (h : s.coreReady core = true) (hp : (s.core core).pass = some p)
    (hx : (s.begun core).agreeExc core p ((s.begun core).address core ga imm) = none) : execAgree core gd ga imm s = .next
      (if p.mirror then agreeMirr core gd p.task ((s.begun core).address core ga imm) (s.begun core)
      else agreePrim core gd p.task ((s.begun core).address core ga imm) (s.begun core)) := by
  rw [execAgree, agreeOp, hp]
  exact xob_ready h hx

end

/-! ### The obligations on what they answer -/

/-- Settles O34: an access whose checks pass is the load or the store itself; AGREE goes by the pass that runs. -/
theorem coreLoadsAndStores : Obligations.CoreLoadsAndStores := by
  unfold Obligations.CoreLoadsAndStores
  exact ⟨fun _ _ _ _ _ h => loadOp_ready h.1 h.2, fun _ _ _ _ _ h => loadOp_ready h.1 h.2, fun _ _ _ _ _ h => loadOp_ready h.1 h.2,
    fun _ _ _ _ _ h => loadOp_ready h.1 h.2, fun _ _ _ _ _ h => loadOp_ready h.1 h.2, fun _ _ _ _ _ h => storeOp_ready h.1 h.2,
    fun _ _ _ _ _ h => storeOp_ready h.1 h.2, fun _ _ _ _ _ h => storeOp_ready h.1 h.2,
    fun _ _ _ _ _ _ h => execAgree_ready h.1 h.2.1 h.2.2⟩

/-- Settles O35: one lemma for each row. -/
theorem coreFlow : Obligations.CoreFlow := by
  unfold Obligations.CoreFlow
  exact ⟨fun _ _ _ _ ⟨h, hc, hl⟩ => execBr_ready h hc hl, fun _ _ _ ⟨h, hl⟩ => execBl_ready h hl,
    fun _ _ _ ⟨h, hj⟩ => execJr_ready h hj,
    fun _ _ _ _ ⟨h, hj⟩ => execJalr_ready h hj, fun _ _ _ _ _ ⟨h, hl⟩ => execLoopR_ready h hl,
    fun _ _ _ _ _ ⟨h, hl⟩ => execLoopi_ready h hl, fun _ _ h => exec_nop_ready h, fun _ _ h => execSync_ready h,
    fun _ _ _ _ ⟨h, hc⟩ => execMfc_ready h hc, fun _ _ _ _ ⟨h, hc⟩ => execMtc_ready h hc,
    fun _ _ _ ⟨h, hl⟩ => execTrap_ready h hl,
    fun _ _ ⟨h, ht, hl⟩ => execEret_ready h ht hl, fun _ _ ⟨h, ht, hl⟩ => execWfi_ready h ht hl,
    fun _ _ ⟨hr, hp, hi, he, hm⟩ => execInterrupt_due hr hp hi he hm, fun _ _ _ ⟨h, hw⟩ => execUndef_ready h hw⟩

end Sys2Proof.Machine

/-!
PROOFS. What the instructions of a core leave alone: data instructions, branches and jumps, writes of control registers, stores to
memory and loads from memory. First what each operation does to the parts it does write; then the obligations.
-/
namespace Sys2Proof.Machine

section
variable {c : Nat} {core : Fin 4} {s t u : State}

/-! ### Data instructions: the flags that R145 gives them -/

/-- What the statement on data instructions says of one of them: its destination, and whether it leaves N and Z, C, and V. -/
def DataFrame (core : Fin 4) (s : State) (e : Instr × Nat × Bool × Bool × Bool) : Prop :=
  ∃ u, exec e.1 s = .next (deliver core u) ∧ OnlyCore core s u ∧ CoreKept core e.2.1 s u ∧
    (e.2.2.1 → (u.bank core).fl.n = (s.bank core).fl.n ∧ (u.bank core).fl.z = (s.bank core).fl.z) ∧
    (e.2.2.2.1 → (u.bank core).fl.c = (s.bank core).fl.c) ∧ (e.2.2.2.2 → (u.bank core).fl.v = (s.bank core).fl.v)

theorem DataFrame.of_result {i : Instr} {d n : Nat} {x : Alu} {c v : Bool}
    (e : exec i s = .next (advance core n ((s.begun core).result core d x))) (hc : c = true → x.c = none) (hv : v = true → x.v = none) :
    DataFrame core s (i, d, false, c, v) := advance_result e c v hc hv

theorem DataFrame.of_kept {i : Instr} {d n : Nat} (e : exec i s = .next (advance core n t)) (honly : OnlyCore core s t)
    (hkept : CoreKept core d s t) (hfl : (t.bank core).fl = (s.bank core).fl) : DataFrame core s (i, d, true, true, true) :=
  advance_kept e honly hkept hfl

/-- A write of one register keeps every flag. -/
theorem DataFrame.of_setReg {i : Instr} {d n : Nat} {w : Word} (e : exec i s = .next (advance core n ((s.begun core).setReg core d w))) :
    DataFrame core s (i, d, true, true, true) :=
  .of_kept e (State.begun_only.trans (State.setReg_only _ _)) (State.begun_kept.trans (State.setReg_kept _))
    (by rw [State.setReg_fl, State.begun_bank])

/-- The logic operations give neither C nor V, in either pass. -/
theorem Bin.run_logic_cv {op : Bin} (h : op ∈ [Bin.and, .or, .xor, .andn, .orn, .xnor]) (m : Bool) (a b : Word) (cin : Bool) :
    (op.run m a b cin).c = none ∧ (op.run m a b cin).v = none := by
  fin_cases h <;> cases m <;> exact ⟨rfl, rfl⟩

theorem Shift.run_v (op : Shift) (m : Bool) (a : Word) (k : Nat) : (op.run m a k).v = none := by
  unfold Shift.run
  split <;> rfl

theorem Mul.run_cv (op : Mul) (m : Bool) (a b : Word) : (op.run m a b).c = none ∧ (op.run m a b).v = none := by
  cases op <;> cases m <;> exact ⟨rfl, rfl⟩

theorem arith_frame {i : Instr} {d : Nat} {x : Alu} (e : exec i s = .next (advance core 1 ((s.begun core).result core d x))) :
    DataFrame core s (i, d, false, false, false) := .of_result e nofun nofun

theorem logic_frame {i : Instr} {op : Bin} {d : Nat} {m cin : Bool} {a b : Word}
    (e : exec i s = .next (advance core 1 ((s.begun core).result core d (op.run m a b cin))))
    (h : op ∈ [Bin.and, .or, .xor, .andn, .orn, .xnor]) : DataFrame core s (i, d, false, true, true) :=
  .of_result e (fun _ => (Bin.run_logic_cv h m a b cin).1) (fun _ => (Bin.run_logic_cv h m a b cin).2)

theorem shift_frame {i : Instr} {op : Shift} {d k : Nat} {m : Bool} {a : Word}
    (e : exec i s = .next (advance core 1 ((s.begun core).result core d (op.run m a k)))) :
    DataFrame core s (i, d, false, false, true) := .of_result e nofun (fun _ => Shift.run_v op m a k)

theorem mul_frame {i : Instr} {op : Mul} {d : Nat} {m : Bool} {a b : Word}
    (e : exec i s = .next (advance core 1 ((s.begun core).result core d (op.run m a b)))) :
    DataFrame core s (i, d, false, true, true) := .of_result e (fun _ => (op.run_cv m a b).1) (fun _ => (op.run_cv m a b).2)

theorem div_frame {i : Instr} {op : Div} {d : Nat} {m : Bool} {a b : Word}
    (e : exec i s = .next (advance core 18 ((s.begun core).result core d (op.run m a b)))) :
    DataFrame core s (i, d, false, true, false) := .of_result e (fun _ => rfl) nofun

/-- An operation whose result sets N and Z alone. -/
theorem nz_frame {i : Instr} {d : Nat} {m : Bool} {r : Word}
    (e : exec i s = .next (advance core 1 ((s.begun core).result core d (Alu.of m r none none)))) :
    DataFrame core s (i, d, false, true, true) := .of_result e (fun _ => rfl) (fun _ => rfl)

theorem advance_begun_frame {i : Instr} (e : exec i s = .next (advance core 1 (s.begun core))) :
    DataFrame core s (i, 0, true, true, true) :=
  .of_kept e State.begun_only State.begun_kept (by rw [State.begun_bank])

/-- A read of a control register but `CYCLE` changes nothing. -/
theorem ctrlRead_other {n : Nat} (h14 : n ≠ 14) (h15 : n ≠ 15) : ctrlRead c n s = s := by
  rw [ctrlRead, if_neg h14, if_neg h15]

/-! ### Branches and jumps -/

@[simp] theorem State.begun_steer (s : State) (c r : Nat) : (s.begun c).steer c r = s.steer c r := by
  simp [State.steer, State.sense]

theorem atLoopEnd_of_jumpExc {r : Nat} (h : s.jumpExc c r = none) : s.atLoopEnd c = false := by
  rw [State.jumpExc, excIf] at h
  split at h
  · cases h
  · exact Bool.eq_false_iff.2 ‹_›

/-- The registers of a bank whose words and sense are the same. -/
theorem State.reg_eq_of_g (hm : u.mirror c = t.mirror c) (hg : (u.bank c).g = (t.bank c).g) (r : Nat) : u.reg c r = t.reg c r := by
  rw [State.reg, hm, hg, State.reg]

/-- A taken branch after operations that write nothing but a link. -/
theorem branchTo_begun_frame {i : Instr} {d n : Nat} {a : Word} (e : exec i s = .next (branchTo core n a t)) (honly : OnlyCore core s t)
    (hkept : CoreKept core d s t) (hfl : (t.bank core).fl = (s.bank core).fl) (hg : s.tMode core = false ∨ a ≠ passGate) :
    ∃ u, exec i s = .next (deliver core u) ∧ OnlyCore core s u ∧ CoreKept core d s u ∧ (u.bank core).fl = (s.bank core).fl ∧
      u.pc core = a ∧ ∀ r, u.reg core r = t.reg core r := by
  rw [← hkept.tMode] at hg
  obtain ⟨u, hu, huonly, hukept, hufl, hug, hpc⟩ := branch_frame (c := core) (d := d) n a hg
  exact ⟨u, by rw [e, hu], honly.trans huonly, hkept.trans hukept, hufl.trans hfl, hpc, State.reg_eq_of_g hukept.mirror hug⟩

/-! ### Control registers (R123, R152) -/

/-- The bits of a word under a mask that begins at bit `k` and is `n` bits wide. -/
theorem word_and_mask (w : Word) {k n : Nat} (mask : Word) (h : ∀ i < 32, mask.getLsbD i = decide (k ≤ i ∧ i < k + n)) :
    w &&& mask = (w.extractLsb' k n).zeroExtend 32 <<< k := by
  apply BitVec.eq_of_getLsbD_eq
  intro i hi
  rw [BitVec.getLsbD_and, h i hi, BitVec.getLsbD_shiftLeft]
  by_cases hk : i < k
  · simp [hk, show ¬k ≤ i by omega]
  · by_cases hn : i < k + n
    · simp [hk, hn, hi, show i - k < n by omega, show k ≤ i by omega, show k + (i - k) = i by omega, show i - k < 32 by omega]
    · simp [hk, hn, hi, show ¬i - k < n by omega]

/-- `FL` has its four top bits (R123). -/
theorem Flags.word_ofWord (w : Word) : (Flags.ofWord w).word = w &&& 0xF0000000 := by
  have hbits : ∀ x : BitVec 4, ({ n := x.getLsbD 3, z := x.getLsbD 2, c := x.getLsbD 1, v := x.getLsbD 0 } : Flags).word =
      x.zeroExtend 32 <<< 28 := by decide
  rw [word_and_mask w (k := 28) (n := 4) _ (by decide), ← hbits]
  simp [Flags.ofWord]

/-- `PSR` of S mode has its bits 7 to 5 (R124). -/
theorem Core.psr_setPsr (k : Core) (w : Word) : (k.setPsr w).psr = w &&& 0xE0 := by
  have hbits : ∀ x : BitVec 3, BitVec.ofNat 32 ((if x.getLsbD 2 then 128 else 0) + (if x.getLsbD 1 then 64 else 0) +
      (if x.getLsbD 0 then 32 else 0)) = x.zeroExtend 32 <<< 5 := by decide
  rw [word_and_mask w (k := 5) (n := 3) _ (by decide), ← hbits]
  simp [Core.psr, Core.setPsr]

theorem State.setCtrl_only (n : Nat) (w : Word) : OnlyCore c s (s.setCtrl c n w) := by
  unfold State.setCtrl
  dsimp only
  split_ifs
  · exact State.setBank_only _
  · exact State.setBank_only _
  · exact State.setBank_only _
  · exact State.setBank_only _
  · exact OnlyCore.setCore _

theorem State.reg_setCtrl (n : Nat) (w : Word) (r : Nat) : (s.setCtrl c n w).reg c r = s.reg c r := by
  obtain ⟨-, hm, hg⟩ := s.setCtrl_kept (c := c) n w
  exact State.reg_eq_of_g hm hg r

theorem State.begun_ctrl (s : State) (c n : Nat) : (s.begun c).ctrl c n = s.ctrl c n := by
  simp only [State.ctrl, State.begun_bank, State.begun_tMode, State.begun_core]
  rfl

theorem State.ctrl_setCtrl_fl (w : Word) : (s.setCtrl c 0 w).ctrl c 0 = w &&& 0xF0000000 :=
  (s.ctrl_setBank _ 0).trans (Flags.word_ofWord w)

theorem State.ctrl_setCtrl_psr (w : Word) (h : s.tMode c = false) : (s.setCtrl c 1 w).ctrl c 1 = w &&& 0xE0 := by
  have ht : (s.setCtrl c 1 w).tMode c = false := (s.setCtrl_kept (c := c) 1 w).1.trans h
  have hcore : (s.setCtrl c 1 w).core c = (s.core c).setPsr w := State.core_setCore ..
  rw [State.ctrl, if_neg (by decide), if_pos rfl, ht, hcore, Core.psr_setPsr]
  exact BitVec.or_zero

theorem State.ctrl_setCtrl_loop {n : Nat} (w : Word) (h : 16 ≤ n ∧ n < 22) : (s.setCtrl c n w).ctrl c n = w := by
  unfold State.setCtrl
  dsimp only
  by_cases h19 : n < 19
  · rw [if_neg (by omega), if_pos ⟨h.1, h19⟩, State.ctrl_setBank,
      if_neg (by omega), if_neg (by omega), if_neg (by omega), if_pos ⟨h.1, h19⟩,
      tget_tset, if_pos rfl]
  · rw [if_neg (by omega), if_neg (by omega), if_pos ⟨by omega, h.2⟩, State.ctrl_setBank, if_neg (by omega), if_neg (by omega),
      if_neg (by omega), if_neg (by omega), if_pos ⟨by omega, h.2⟩, tget_tset, if_pos rfl]

/-- Control registers that hold the whole word. -/
theorem State.ctrl_setCtrl_whole {n : Nat} (w : Word) (h : n = 2 ∨ n = 4 ∨ n = 5 ∨ n = 6 ∨ n = 10) :
    (s.setCtrl c n w).ctrl c n = w := by
  rw [State.ctrl_setCtrl_sys _ _ _ (by omega) (by omega) (by omega) (by omega)]
  obtain rfl | rfl | rfl | rfl | rfl := h <;> rfl

theorem State.ctrl_setCtrl_readOnly {n : Nat} (w : Word) (h : n = 8 ∨ n = 11 ∨ n = 12 ∨ n = 13) :
    (s.setCtrl c n w).ctrl c n = s.ctrl c n := by
  obtain rfl | hn : n = 8 ∨ (n = 11 ∨ n = 12 ∨ n = 13) := h
  · rfl
  · rw [State.ctrl_setCtrl_sys _ _ _ (by omega) (by omega) (by omega) (by omega)]
    obtain rfl | rfl | rfl := hn <;> rfl

theorem State.ctrl_setCtrl_ecause (w : Word) : (s.setCtrl c 3 w).ctrl c 3 = w &&& 0xFFFF001F :=
  State.ctrl_setCtrl_sys _ _ _ (by decide) (by decide) (by decide) (by decide)

theorem State.ctrl_setCtrl_svec (w : Word) : (s.setCtrl c 7 w).ctrl c 7 = w &&& 0xFFFFFF00 :=
  State.ctrl_setCtrl_sys _ _ _ (by decide) (by decide) (by decide) (by decide)

theorem State.ctrl_setCtrl_ipend (w : Word) : (s.setCtrl c 9 w).ctrl c 9 = s.ctrl c 9 &&& ~~~w := by
  rw [State.ctrl_setCtrl_sys _ _ _ (by decide) (by decide) (by decide) (by decide)]
  show ((s.core c).ipend &&& ~~~(w.extractLsb' 0 8)).zeroExtend 32 = (s.core c).ipend.zeroExtend 32 &&& ~~~w
  ext i hi
  by_cases h8 : i < 8
  · simp [h8, BitVec.getLsbD_eq_getElem hi]
  · simp [h8, BitVec.getLsbD_of_ge (s.core c).ipend i (by omega)]

theorem Core.setSysReg_of_ge {n : Nat} (k : Core) (w : Word) (h : 16 ≤ n) : k.setSysReg n w =
    if 32 ≤ n ∧ n < 48 then { k with mpuBase := tset 0 k.mpuBase (n - 32) (w &&& ~~~31) }
    else if 48 ≤ n ∧ n < 64 then { k with mpuLim := tset 0 k.mpuLim (n - 48) (w &&& ~~~31) }
    else if 64 ≤ n ∧ n < 80 then { k with mpuAttr := tset 0 k.mpuAttr (n - 64) (w &&& 0x7F) }
    else k := by
  unfold Core.setSysReg
  split
  iterate 9 omega
  rfl

theorem Core.sysReg_of_ge {n : Nat} (k : Core) (h : 16 ≤ n) : k.sysReg n =
    if 32 ≤ n ∧ n < 48 then tget 0 k.mpuBase (n - 32) &&& ~~~31
    else if 48 ≤ n ∧ n < 64 then tget 0 k.mpuLim (n - 48) ||| 31
    else if 64 ≤ n ∧ n < 80 then tget 0 k.mpuAttr (n - 64)
    else 0 := by
  unfold Core.sysReg
  split
  iterate 13 omega
  rfl

theorem State.ctrl_setCtrl_mpu {n : Nat} (w : Word) (h : 32 ≤ n) (hn : n < 80) : (s.setCtrl c n w).ctrl c n =
    if n < 48 then w &&& ~~~31 else if n < 64 then w ||| 31 else w &&& 0x7F := by
  have hand : (w &&& ~~~31) &&& ~~~31 = w &&& ~~~31 := by rw [BitVec.and_assoc, BitVec.and_self]
  have hor : (w &&& ~~~31) ||| 31 = w ||| 31 := by
    ext i hi
    simp only [BitVec.getElem_or, BitVec.getElem_and, BitVec.getElem_not]
    cases (31 : Word)[i] <;> simp
  rw [State.ctrl_setCtrl_sys _ _ _ (by omega) (by omega) (by omega) (by omega), Core.setSysReg_of_ge _ _ (by omega),
    Core.sysReg_of_ge _ (by omega)]
  by_cases h48 : n < 48
  · rw [if_pos ⟨h, h48⟩, if_pos ⟨h, h48⟩, if_pos h48, tget_tset, if_pos rfl, hand]
  have hbase : ¬(32 ≤ n ∧ n < 48) := fun hlt => h48 hlt.2
  rw [if_neg hbase, if_neg hbase, if_neg h48]
  by_cases h64 : n < 64
  · have hlim : 48 ≤ n ∧ n < 64 := ⟨by omega, h64⟩
    rw [if_pos hlim, if_pos hlim, if_pos h64, tget_tset, if_pos rfl, hor]
  · have hlim : ¬(48 ≤ n ∧ n < 64) := fun hlt => h64 hlt.2
    have hattr : 64 ≤ n ∧ n < 80 := ⟨by omega, hn⟩
    rw [if_neg hlim, if_neg hlim, if_neg h64, if_pos hattr, if_pos hattr, tget_tset, if_pos rfl]

/-! ### Bits of a load (R140, R154, R156) -/

theorem extend_getLsbD {n j : Nat} (sgn m : Bool) (w : Word) (hj : j < 32) : (extend n sgn m w).getLsbD j =
    if j < 8 * n then w.getLsbD j else if sgn then w.getLsbD (8 * n - 1) else m := by
  have hzeros : (w &&& onesLow (8 * n)).getLsbD j = if j < 8 * n then w.getLsbD j else false := by
    by_cases hn : j < 8 * n <;> simp [hn, hj, getElem_onesLow]
  have hfill : (w ||| ~~~(onesLow (8 * n))).getLsbD j = if j < 8 * n then w.getLsbD j else true := by
    by_cases hn : j < 8 * n <;> simp [hn, hj, getElem_onesLow]
  unfold extend
  cases sgn <;> cases m <;> cases w.getLsbD (8 * n - 1) <;>
    simp only [↓reduceIte, Bool.false_eq_true, hzeros, hfill]

/-- The number that `n` bytes from a key stand for, little-endian. -/
def State.bytesN (s : State) (key n : Nat) : Nat := (List.range n).foldl (fun v i => v + (s.byte (key + i)).toNat * 256 ^ i) 0

theorem State.bytesN_succ (s : State) (key n : Nat) : s.bytesN key (n + 1) = 2 ^ (8 * n) * (s.byte (key + n)).toNat + s.bytesN key n := by
  rw [State.bytesN, List.range_succ, List.foldl_append, Nat.pow_mul, Nat.mul_comm, Nat.add_comm]
  rfl

theorem State.bytesN_lt (s : State) (key n : Nat) : s.bytesN key n < 2 ^ (8 * n) := by
  induction n with
  | zero => exact Nat.one_pos
  | succ n ih =>
    have hb := (s.byte (key + n)).isLt
    rw [State.bytesN_succ, Nat.mul_succ, Nat.pow_add]
    nlinarith

theorem State.testBit_bytesN (s : State) (key n j : Nat) :
    (s.bytesN key n).testBit j = (decide (j < 8 * n) && (s.byte (key + j / 8)).getLsbD (j % 8)) := by
  induction n with
  | zero => simp [State.bytesN]
  | succ n ih =>
    rw [State.bytesN_succ, Nat.testBit_two_pow_mul_add _ (s.bytesN_lt key n)]
    by_cases hlow : j < 8 * n
    · rw [if_pos hlow, ih]
      simp [hlow, show j < 8 * (n + 1) by omega]
    · rw [if_neg hlow]
      by_cases hhigh : j < 8 * (n + 1)
      · have hq : j / 8 = n := by omega
        have hr : j % 8 = j - 8 * n := by omega
        rw [hq, hr, decide_eq_true hhigh]
        rfl
      · rw [decide_eq_false hhigh, Bool.false_and]
        exact BitVec.getLsbD_of_ge _ _ (by omega)

theorem State.loadRaw_getLsbD (s : State) (key : Nat) {n j : Nat} (hn : n ≤ 4) :
    (s.loadRaw key n).getLsbD j = (decide (j < 8 * n) && (s.byte (key + j / 8)).getLsbD (j % 8)) := by
  rw [State.loadRaw, BitVec.getLsbD_ofNat, ← State.bytesN, State.testBit_bytesN]
  by_cases hj : j < 32
  · simp [hj]
  · simp [show ¬j < 8 * n by omega]

/-- What a load from memory gives, bit by bit; the state stays. -/
theorem State.load_cell {a : Word} {n key : Nat} {sgn flip : Bool} (h : s.place c false a.toNat = .cell key flip)
    (hn : 1 ≤ n ∧ n ≤ 4) : ∃ w, s.load c a n sgn = (w, s) ∧ ∀ j, j < 32 → w.getLsbD j =
      if j < 8 * n then ((s.byte (key + j / 8)).getLsbD (j % 8) != flip)
      else if sgn then ((s.byte (key + n - 1)).getLsbD 7 != flip) else s.mirror c := by
  have hraw : ∀ j < 8 * n, (if flip then ~~~(s.loadRaw key n) else s.loadRaw key n).getLsbD j =
      ((s.byte (key + j / 8)).getLsbD (j % 8) != flip) := by
    intro j hj
    have hbit := s.loadRaw_getLsbD key (j := j) hn.2
    rw [decide_eq_true hj, Bool.true_and] at hbit
    cases flip
    · simpa using hbit
    · simp only [if_true, BitVec.getLsbD_not, hbit]
      simp [show j < 32 by omega]
  refine ⟨_, by rw [State.load, h], fun j hj => ?_⟩
  rw [extend_getLsbD _ _ _ hj]
  by_cases hlow : j < 8 * n
  · rw [if_pos hlow, if_pos hlow, hraw j hlow]
  · rw [if_neg hlow, if_neg hlow, hraw (8 * n - 1) (by omega), show key + (8 * n - 1) / 8 = key + n - 1 by omega,
      show (8 * n - 1) % 8 = 7 by omega]

/-! ### A store to memory -/

theorem State.setBytes_eq_mem (s : State) (k : Nat) (l : List Byte) : s.setBytes k l = { s with mem := (s.setBytes k l).mem } :=
  congrArg (fun t : State => { t with mem := (s.setBytes k l).mem }) (s.setBytes_eq k l)

theorem State.byte_storeRaw_in (s : State) (key : Nat) {n j : Nat} (w : Word) (h : j < n) :
    (s.storeRaw key n w).byte (key + j) = w.extractLsb' (8 * j) 8 := by
  rw [State.storeRaw, State.byte_setBytes_in _ _ _ _ (by simpa using h)]
  simp [h]

theorem State.byte_storeRaw_out (s : State) (key n : Nat) (w : Word) : MemoryKeptOutside key n s (s.storeRaw key n w) :=
  fun a ha => s.byte_setBytes_out key a _ (by simpa using ha)

/-- What a store to memory does, where the state differs from the one it began in by the records of tasks alone. -/
theorem storeRaw_frame {key n : Nat} {w : Word} {runs : Tab TaskRun} (ht : t = { s with frame := { s.frame with runs := runs } }) :
    ∃ u, advance c 1 (t.storeRaw key n w) = deliver c u ∧ MemoryKeptOutside key n s u ∧
      (∀ j, j < n → u.byte (key + j) = w.extractLsb' (8 * j) 8) ∧ FieldsKept [] s u ∧
      { u with cores := s.cores, mem := s.mem, drawn := s.drawn, frame := { u.frame with runs := s.frame.runs } } = s ∧
      (∀ d, d ≠ c → u.core d = s.core d) ∧ (∀ r, u.reg c r = s.reg c r) ∧ (u.bank c).fl = (s.bank c).fl ∧
      u.frame = t.frame := by
  obtain ⟨u, hu, honly, hregs, hfl⟩ := advance_regs c 1 (t.storeRaw key n w)
  have hbyte : ∀ a, u.byte a = (t.storeRaw key n w).byte a := honly.memoryKept
  have hstored : t.storeRaw key n w = { t with mem := (t.storeRaw key n w).mem } := t.setBytes_eq_mem _ _
  obtain ⟨hu', hcores⟩ := honly
  rw [hstored] at hu' hcores hregs hfl
  rw [ht] at hu' hcores hregs hfl
  refine ⟨u, hu, fun a ha => ?_, fun j hj => ?_, fun f hf => ?_, ?_, hcores, hregs, hfl, ?_⟩
  · rw [hbyte, t.byte_storeRaw_out key n w a ha, ht]
    rfl
  · rw [hbyte, t.byte_storeRaw_in key w hj]
  · rw [hu']
    rfl
  · rw [hu']
  · rw [hu', ht]

/-- A store in a pass or in S mode whose place is memory: its entry in the signature lane of a pass, then its bytes. -/
theorem storeWord_cell {a w : Word} {n key : Nat} {flip : Bool} (h : s.place c true a.toNat = .cell key flip) :
    ∃ u, storeWord c a n w s = deliver c u ∧ MemoryKeptOutside key n s u ∧
      (∀ j, j < n → u.byte (key + j) = w.extractLsb' (8 * j) 8) ∧ FieldsKept [] s u ∧
      { u with cores := s.cores, mem := s.mem, drawn := s.drawn, frame := { u.frame with runs := s.frame.runs } } = s ∧
      (∀ d, d ≠ c → u.core d = s.core d) ∧ (∀ r, u.reg c r = s.reg c r) ∧ (u.bank c).fl = (s.bank c).fl ∧
      ((s.core c).pass = none → u.frame = s.frame) ∧
      (∀ p, (s.core c).pass = some p → u.frame = (signStore p.task p.mirror a.toNat n w s).frame) := by
  cases hp : (s.core c).pass with
  | none =>
    have heff : storeWord c a n w s = advance c 1 (s.storeRaw key n w) := by simp [storeWord, hp, h]
    obtain ⟨u, hu, hout, hin, hfields, hrest, hcores, hregs, hfl, hframe⟩ :=
      storeRaw_frame (c := c) (s := s) (t := s) (key := key) (n := n) (w := w) (runs := s.frame.runs) rfl
    exact ⟨u, heff.trans hu, hout, hin, hfields, hrest, hcores, hregs, hfl, fun _ => hframe, nofun⟩
  | some p =>
    have heff : storeWord c a n w s = advance c 1 ((signStore p.task p.mirror a.toNat n w s).storeRaw key n w) := by
      simp [storeWord, hp, passStore, h]
    obtain ⟨u, hu, hout, hin, hfields, hrest, hcores, hregs, hfl, hframe⟩ :=
      storeRaw_frame (c := c) (s := s) (t := signStore p.task p.mirror a.toNat n w s) (key := key) (n := n) (w := w) rfl
    refine ⟨u, heff.trans hu, hout, hin, hfields, hrest, hcores, hregs, hfl, nofun, fun q hq => ?_⟩
    rw [← Option.some.inj hq, hframe]

end

/-! ### The obligations -/

/-- Settles O18: row by row, the instruction is an end of an instruction after one write of a result or of a register. -/
theorem instructionFrame : Obligations.InstructionFrame := by
  unfold Obligations.InstructionFrame
  intro core gd ga gb sh pos w1 cond imm sl cr s i d nz c v hready hfield hperm hcond h14 h15 hcr hmem
  refine (List.forall_iff_forall_mem (p := DataFrame core s)).1 ?_ _ hmem
  simp only [List.Forall]
  have hmfc : exec (.mfc core gd cr) s = .next
      (advance core 1 ((s.begun core).setReg core gd ((s.begun core).sense core ((s.begun core).ctrl core cr)))) := by
    rw [show exec (.mfc core gd cr) s = execMfc core gd cr s from rfl, execMfc_ready hready hcr, ctrlRead_other h14 h15]
  exact ⟨arith_frame (binOp_ready .add hready), arith_frame (binOp_ready .sub hready), arith_frame (binOp_ready .adc hready),
    arith_frame (binOp_ready .sbc hready), arith_frame (immOp_ready .add _ hready), arith_frame (binOp_ready .sub hready),
    arith_frame (immOp_ready .sub _ hready), logic_frame (binOp_ready .and hready) (by decide),
    logic_frame (binOp_ready .or hready) (by decide), logic_frame (binOp_ready .xor hready) (by decide),
    logic_frame (binOp_ready .andn hready) (by decide), logic_frame (binOp_ready .orn hready) (by decide),
    logic_frame (binOp_ready .xnor hready) (by decide), logic_frame (binOp_ready .and hready) (by decide),
    logic_frame (immOp_ready .and _ hready) (by decide), logic_frame (immOp_ready .or _ hready) (by decide),
    logic_frame (immOp_ready .xor _ hready) (by decide), logic_frame (immOp_ready .and _ hready) (by decide),
    nz_frame (execMovhi_ready hready), shift_frame (shiftOp_ready .lsl hready), shift_frame (shiftOp_ready .lsr hready),
    shift_frame (shiftOp_ready .asr hready), shift_frame (shiftOp_ready .ror hready), shift_frame (shiftImm_ready .lsl hready),
    shift_frame (shiftImm_ready .lsr hready), shift_frame (shiftImm_ready .asr hready), shift_frame (shiftImm_ready .ror hready),
    mul_frame (mulOp_ready .lo hready), mul_frame (mulOp_ready .hs hready), mul_frame (mulOp_ready .hu hready),
    div_frame (divOp_ready .quoS hready), div_frame (divOp_ready .quoU hready), div_frame (divOp_ready .remS hready),
    div_frame (divOp_ready .remU hready), nz_frame (execClz_ready hready), nz_frame (execBfx_ready hready hfield),
    nz_frame (execBfxs_ready hready hfield), nz_frame (execBfi_ready hready hfield), nz_frame (execPerm_ready hready hperm),
    .of_setReg (execSel_ready hready hcond), .of_setReg hmfc, advance_begun_frame (exec_nop_ready hready),
    advance_begun_frame (execSync_ready hready)⟩


/-- Settles O19: a branch that is taken is `branchTo`, one that is not is the end of an instruction; the link is one register. -/
theorem branchFrame : Obligations.BranchFrame := by
  unfold Obligations.BranchFrame
  intro core gd ga cond disp disp26 s i d a hready hcond hj hgate hmem
  have hloop := atLoopEnd_of_jumpExc hj
  have hlink : ∀ r w, OnlyCore core s ((s.begun core).setReg core r w) ∧ CoreKept core r s ((s.begun core).setReg core r w) ∧
      (((s.begun core).setReg core r w).bank core).fl = (s.bank core).fl := fun r w =>
    ⟨State.begun_only.trans (State.setReg_only _ _), State.begun_kept.trans (State.setReg_kept _),
      by rw [State.setReg_fl, State.begun_bank]⟩
  have hfl : ((s.begun core).bank core).fl = (s.bank core).fl := by rw [State.begun_bank]
  simp only [List.mem_cons, List.not_mem_nil, or_false, Prod.mk.injEq] at hmem
  obtain ⟨rfl, rfl, rfl⟩ | ⟨rfl, rfl, rfl⟩ | ⟨rfl, rfl, rfl⟩ | ⟨rfl, rfl, rfl⟩ := hmem
  · have hbr : exec (.br core cond disp) s = _ := execBr_ready (disp := disp) hready hcond hloop
    rw [State.begun_bank, State.begun_pc] at hbr
    by_cases hh : (s.bank core).fl.holds cond = true
    · rw [if_pos hh] at hbr
      obtain ⟨u, hu, honly, hkept, hufl, hpc, -⟩ := branchTo_begun_frame hbr State.begun_only (State.begun_kept (d := 0)) hfl hgate
      exact ⟨u, hu, honly, hkept, hufl, fun _ => hpc, fun h => absurd h (by decide)⟩
    · rw [if_neg hh] at hbr
      obtain ⟨u, hu, honly, hkept, hufl, -⟩ := advance_frame (c := core) (d := 0) (s := s.begun core) 1
      exact ⟨u, by rw [hbr, hu], State.begun_only.trans honly, State.begun_kept.trans hkept, hufl.trans hfl,
        fun h => absurd h (by simp [hh]), fun h => absurd h (by decide)⟩
  · have hbl : exec (.bl core disp26) s = _ := execBl_ready (disp := disp26) hready hloop
    rw [State.begun_pc] at hbl
    obtain ⟨u, hu, honly, hkept, hufl, hpc, hregs⟩ := branchTo_begun_frame hbl (hlink 31 _).1 (hlink 31 _).2.1 (hlink 31 _).2.2 hgate
    refine ⟨u, hu, honly, hkept, hufl, fun _ => hpc, fun _ _ => ?_⟩
    rw [hregs, State.reg_setReg _ (by decide)]
    simp [State.sense]
  · have hjr : exec (.jr core ga) s = _ := execJr_ready hready hj
    rw [State.begun_steer] at hjr
    obtain ⟨u, hu, honly, hkept, hufl, hpc, -⟩ := branchTo_begun_frame hjr State.begun_only (State.begun_kept (d := 0)) hfl hgate
    exact ⟨u, hu, honly, hkept, hufl, fun _ => hpc, fun h => absurd h (by decide)⟩
  · have hjalr : exec (.jalr core gd ga) s = _ := execJalr_ready hready hj
    rw [State.begun_steer] at hjalr
    obtain ⟨u, hu, honly, hkept, hufl, hpc, -⟩ := branchTo_begun_frame hjalr (hlink gd _).1 (hlink gd _).2.1 (hlink gd _).2.2 hgate
    exact ⟨u, hu, honly, hkept, hufl, fun _ => hpc, fun _ h => nomatch h⟩

/-- Settles O20: the write of the register, then the end of an instruction, which reaches `CYCLE` and the loop counts alone. -/
theorem controlRegisters : Obligations.ControlRegisters := by
  unfold Obligations.ControlRegisters
  intro core cr ga s hready hmay
  have hmtc : exec (.mtc core cr ga) s = _ := execMtc_ready (ga := ga) hready hmay
  rw [State.begun_steer] at hmtc
  obtain ⟨u, hu, honly, hkept, hfl, hg⟩ :=
    advance_frame (c := core) (d := 0) (s := (s.begun core).setCtrl core cr (s.steer core ga)) 1
  have hctrl : ∀ k, k ≠ 14 → k ≠ 15 → ¬(22 ≤ k ∧ k ≤ 24) →
      u.ctrl core k = ((s.begun core).setCtrl core cr (s.steer core ga)).ctrl core k := hkept.ctrl hfl
  refine ⟨u, by rw [hmtc, hu], (State.begun_only.trans (State.setCtrl_only _ _)).trans honly, fun r => ?_, fun k hk h14 h15 h22 => ?_,
    fun hcr => ?_, fun hcr => ?_, fun hcr => ?_, fun hcr => ?_, fun hcr => ?_, fun hcr => ?_, fun hcr => ?_, fun h32 h48 => ?_,
    fun h48 h64 => ?_, fun h64 h80 => ?_⟩
  · rw [State.reg_eq_of_g hkept.mirror hg, State.reg_setCtrl, State.begun_reg]
  · rw [hctrl k h14 h15 h22, State.ctrl_setCtrl_ne _ _ _ _ hk, State.begun_ctrl]
  · rw [hctrl 0 (by decide) (by decide) (by decide), hcr, State.ctrl_setCtrl_fl]
  · have ht : s.tMode core = false := hmay.resolve_right (by rw [hcr]; decide)
    rw [hctrl 1 (by decide) (by decide) (by decide), hcr, State.ctrl_setCtrl_psr _ ((s.begun_tMode core).trans ht)]
  · rw [hctrl 3 (by decide) (by decide) (by decide), hcr, State.ctrl_setCtrl_ecause]
  · rw [hctrl 7 (by decide) (by decide) (by decide), hcr, State.ctrl_setCtrl_svec]
  · rw [hctrl cr (by omega) (by omega) (by omega), State.ctrl_setCtrl_readOnly _ hcr, State.begun_ctrl]
  · rw [hctrl 9 (by decide) (by decide) (by decide), hcr, State.ctrl_setCtrl_ipend, State.begun_ctrl]
  · rw [hctrl cr (by omega) (by omega) (by omega)]
    by_cases hloop : 16 ≤ cr.val
    · exact State.ctrl_setCtrl_loop _ (by omega)
    · exact State.ctrl_setCtrl_whole _ (by omega)
  · rw [hctrl cr (by omega) (by omega) (by omega), State.ctrl_setCtrl_mpu _ h32 (by omega), if_pos h48]
    rfl
  · rw [hctrl cr (by omega) (by omega) (by omega), State.ctrl_setCtrl_mpu _ (by omega) (by omega), if_neg (by omega), if_pos h64]
  · rw [hctrl cr (by omega) (by omega) (by omega), State.ctrl_setCtrl_mpu _ (by omega) h80, if_neg (by omega), if_neg (by omega)]

/-- Settles O21: three sizes of one store. -/
theorem storeFrame : Obligations.StoreFrame := by
  unfold Obligations.StoreFrame
  intro core gd ga imm s i n key flip hmem hready hexc hplace
  have heff : exec i s = .next (storeWord core ((s.begun core).address core ga imm) n ((s.begun core).reg core gd) (s.begun core)) := by
    simp only [List.mem_cons, List.not_mem_nil, or_false, Prod.mk.injEq] at hmem
    obtain ⟨rfl, rfl⟩ | ⟨rfl, rfl⟩ | ⟨rfl, rfl⟩ := hmem
    all_goals exact storeOp_ready hready hexc
  obtain ⟨u, hu, hout, hin, hfields, hrest, hcores, hregs, hfl, hnone, hsome⟩ :=
    storeWord_cell (n := n) (w := (s.begun core).reg core gd) hplace
  refine ⟨u, by rw [heff, hu], hout, ?_, hfields, congrArg (fun t : State => { t with cores := s.cores }) hrest, fun d hd => ?_,
    fun r => ?_, ?_, fun hp => ?_, fun p hp => ?_⟩
  · simpa using hin
  · rw [hcores d hd, State.begun_only.2 d hd]
  · rw [hregs, State.begun_reg]
  · rw [hfl, State.begun_bank]
  · exact hnone (by simpa using hp)
  · rw [hsome p (by simpa using hp), State.begun_reg]
    rfl

/-- Settles O22: five shapes of one load; its bits are those of the bytes, then those of the extension. -/
theorem loadResult : Obligations.LoadResult := by
  unfold Obligations.LoadResult
  intro core gd ga imm s i n key sgn flip hmem hready hexc hplace
  obtain ⟨hn, heff⟩ : (n = 1 ∨ n = 2 ∨ n = 4) ∧ exec i s = .next (advance core 1
      (((s.begun core).load core ((s.begun core).address core ga imm) n sgn).2.setReg core gd
        ((s.begun core).load core ((s.begun core).address core ga imm) n sgn).1)) := by
    simp only [List.mem_cons, List.not_mem_nil, or_false, Prod.mk.injEq] at hmem
    obtain ⟨rfl, rfl, rfl⟩ | ⟨rfl, rfl, rfl⟩ | ⟨rfl, rfl, rfl⟩ | ⟨rfl, rfl, rfl⟩ | ⟨rfl, rfl, rfl⟩ := hmem
    all_goals exact ⟨by decide, loadOp_ready hready hexc⟩
  obtain ⟨w, hload, hw⟩ := State.load_cell (n := n) (sgn := sgn) hplace (by omega)
  rw [hload] at heff
  obtain ⟨u, hu, honly, hkept, hfl, hg⟩ := advance_frame (c := core) (d := gd) (s := (s.begun core).setReg core gd w) 1
  refine ⟨u, by rw [heff, hu], (State.begun_only.trans (State.setReg_only _ _)).trans honly,
    (State.begun_kept.trans (State.setReg_kept _)).trans hkept, by rw [hfl, State.setReg_fl, State.begun_bank], fun hgd j hj => ?_⟩
  rw [State.reg_eq_of_g hkept.mirror hg, State.reg_setReg _ hgd, hw j hj, State.begun_mirror]
  rfl

end Sys2Proof.Machine

/-! PROOFS. The commands of the supplies, resets, pins, frames, the debugger and the register bus, one clause for each command. -/
namespace Sys2Proof.Machine

/-- Settles O36: each event is shown first and reports when its threshold is passed. -/
theorem supplyEvents : Obligations.SupplyEvents := by
  unfold Obligations.SupplyEvents
  refine ⟨?_, ?_, ?_, ?_, ?_, ?_, ?_, ?_, ?_, ?_, ?_⟩
  · rintro _ _ _ _ rfl h  -- vbatUv
    exact congrArg _ (if_pos h)
  · rintro _ _ _ _ rfl h  -- vbatOv
    exact congrArg _ (if_pos h)
  · rintro _ _ _ _ rfl h  -- flashSuspendUv
    exact congrArg _ (if_pos h)
  · rintro _ _ _ _ rfl h  -- flashResumeUv
    exact congrArg _ (if_pos h)
  · rintro _ _ _ _ _ _ _ rfl h  -- groupWire
    exact congrArg _ (if_pos ⟨by omega, h.2⟩)
  · rintro _ _ _ rfl  -- regFault
    rfl
  · rintro _ _ _ _ _ rfl h  -- pkgLoad
    exact congrArg _ (if_pos h)
  · rintro _ _ _ _ rfl h  -- logicHot
    exact congrArg _ (if_pos h)
  · rintro _ _ _ _ rfl h  -- logicTsd
    exact congrArg _ (if_pos h)
  · rintro _ _ _ _ rfl  -- parityError
    rfl
  · intro _ _  -- umpForce
    rfl

section
variable {s : State} {t : Nat} {plan : BootPlan}

/-- A Keeper reset that is due resets the logic and starts it again with cause 4. -/
theorem execKeeperReset_due {a : Nat} (hat : (s.at t).keeper.resetAt = some a) (hc : (s.at t).clocks) (ha : a ≤ (s.at t).now) :
    execKeeperReset t plan s = .next (start 4 plan (logicReset 4 (s.at t))) := by
  simp only [execKeeperReset, hat, hc, ha, Bool.true_and, decide_true, if_true]

/-- The fall of IGN_OK remembers since when it is low, drops what it forbids and leaves RUNNING. -/
theorem execIgnOkFall_powered (h : (s.at t).power ≠ .off) : execIgnOkFall t s = .next (
    let x := dropOld (gatesChanged (({ s.at t with
      ignOk := false, pwr := { (s.at t).pwr with ign := false, ignLow := some ((s.at t).pwr.ignLow.getD (s.at t).now) } }).flag
      PWR_MACH_IGN false))
    if x.get PWR_MACH_STATE = 2 then (x.put PWR_MACH_STATE 0).put PWR_MACH_REQ 0 else x) := by
  rw [execIgnOkFall, if_neg h]
  cases (s.at t).pwr.ignLow <;> rfl

end

/-- Settles O37: each reset and each pin takes the branch of its rule. -/
theorem resetsAndPins : Obligations.ResetsAndPins := by
  unfold Obligations.ResetsAndPins
  refine ⟨?_, ?_, ?_, ?_, ?_, ?_, ?_, ?_, ?_, ?_, ?_⟩
  · intro _  -- powerUp
    rfl
  · intro _ _ h  -- resetNRelease
    exact if_neg (by simp [h])
  · rintro _ _ _ rfl  -- resetNAssert
    rfl
  · rintro _ _ _ rfl h  -- firstFrameTimeout
    exact if_pos (by simpa [and_assoc] using h)
  · rintro _ _ _ _ _ rfl h  -- brownout
    exact if_pos h
  · rintro _ _ _ _ rfl h  -- umpRst
    exact if_pos (by simpa using h)
  · rintro _ _ _ _ _ rfl ⟨hclocks, hat, hdue⟩  -- keeperReset
    exact execKeeperReset_due hat hclocks hdue
  · rintro _ _ _ _ rfl  -- gateLineFall
    rfl
  · rintro _ _ _ _ rfl  -- gateLineRise
    rfl
  · rintro _ _ _ rfl h  -- ignOkRise
    exact if_neg h
  · rintro _ _ _ rfl h  -- ignOkFall
    exact execIgnOkFall_powered h

section
variable {s : State}

/-- A scan that ends in its slice after COMMIT leaves the phase of the maintenance slice. -/
theorem execMaintenanceSliceEnd_due {t : Nat} (hin : (s.at t).inFrame) (hclosed : (s.at t).frame.closed)
    (hphase : (s.at t).get FRAME_STAT_PHASE = 4) (hdue : (s.at t).frame.sliceAt + (s.at t).frame.slice ≤ t) :
    execMaintenanceSliceEnd t s = .next (doReturn (s.at t).nextT0 ((s.at t).put FRAME_STAT_PHASE 0)) := by
  simp only [execMaintenanceSliceEnd, hin, hclosed, hphase, hdue, decide_true, Bool.true_or, BEq.rfl, Bool.and_self, if_true]

theorem ttPost_new {i : Nat} (h : s.frame.posts.contains i = false) :
    ttPost i s = { s with frame := { s.frame with posts := s.frame.posts ++ [i] } } := if_neg (by simpa using h)

/-- An edge of the reference that is not the timebase of a controller is taken as it comes. -/
theorem execLockReference_edge {t e : Nat} (hc : (s.at t).clocks) (hstate : (s.at t).lockState ≠ 0) (hsrc : (s.at t).lockSrc ≠ 1) :
    execLockReference t (some e) s = .next (lockRef e (s.at t)) := by
  simp only [execLockReference, hsrc, if_false]
  exact if_neg (by simp [hstate, hc])

/-- A missing reference below the limit is counted. -/
theorem execReferenceMissing_below {t : Nat} (hc : (s.at t).clocks) (hstate : (s.at t).lockState = 1)
    (hdue : (s.at t).tick.lastRef.getD (s.at t).tick.acq + ((s.at t).tick.missed + 1) * (s.at t).lockPeriod +
      3 * (s.at t).lockPeriod / 2 ≤ (s.at t).now)
    (hlimit : (s.at t).tick.missed + 1 < orOne ((s.at t).get FRAME_LOCK_TMO_MISS)) :
    execReferenceMissing t s = .next { s.at t with tick := { (s.at t).tick with missed := (s.at t).tick.missed + 1 } } :=
  (if_pos ⟨.inl hstate, hdue, hc⟩).trans (if_neg (Nat.not_le.mpr hlimit))

end

/-- Settles O38: each command of the frame runs in the phase its rule names. -/
theorem frameCommands : Obligations.FrameCommands := by
  unfold Obligations.FrameCommands
  refine ⟨?_, ?_, ?_, ?_, ?_, ?_, ?_, ?_, ?_, ?_, ?_, ?_, ?_, ?_, ?_⟩
  · intro _ _ _ h  -- frameTick
    exact if_pos h
  · rintro _ _ _ rfl h  -- cut
    exact if_pos (by simpa only [Bool.and_eq_true, and_assoc, beq_iff_eq, decide_eq_true_eq, Bool.not_eq_true'] using h)
  · rintro _ _ _ rfl h  -- commit
    exact if_pos (by simpa only [Bool.and_eq_true, and_assoc, beq_iff_eq, decide_eq_true_eq, Bool.not_eq_true'] using h)
  · rintro _ _ _ rfl h  -- commitDeadline
    exact if_pos (by simpa only [Bool.and_eq_true, and_assoc, beq_iff_eq, decide_eq_true_eq, Bool.not_eq_true'] using h)
  · rintro _ _ _ rfl ⟨hin, hclosed, hphase, hdue⟩  -- maintenanceSliceEnd
    exact execMaintenanceSliceEnd_due hin hclosed hphase hdue
  · intro _ h  -- run
    exact if_pos h
  · intro _ _ h  -- frameLenWrite
    exact exec_frameLenWrite h
  · intro _ _ h  -- frameMarginWrite
    exact if_pos h
  · intro _ _ h  -- frameCutresWrite
    exact if_pos h
  · intro _ _ h  -- frameLockWrite
    exact if_pos h
  · intro _ _ h  -- frameLockOfsWrite
    exact if_pos h
  · rintro _ _ ⟨hclocks, hnew⟩  -- ttPost
    exact (if_pos hclocks).trans (congrArg _ (ttPost_new hnew))
  · rintro _ _ _ _ rfl ⟨hclocks, hstate, hsrc⟩  -- lockReference
    exact execLockReference_edge hclocks hstate hsrc
  · rintro _ _ _ rfl ⟨hclocks, hstate, hdue, hlimit⟩  -- referenceMissing
    exact execReferenceMissing_below hclocks hstate hdue hlimit
  · rintro _ _ _ rfl h  -- lockFail
    exact if_pos h

section
variable {s : State}

theorem modeReq_permitted {v : Nat} (htok : s.on DBG_STAT_TOKEN) (hv : s.modePermitted v) (hserv : s.ump.service = false) :
    modeReq v s = s.put DBG_CTL_MODE_REQ v := by
  simp only [modeReq, htok, hv, Bool.and_self, if_true, State.put_ump, hserv, Bool.false_eq_true, if_false]

theorem haltReq_joint (h : s.debugMode = 1) : haltReq s = haltCores [0, 1, 2, 3] (s.flag DBG_CTL_HALT true) := by
  simp only [haltReq, h, Nat.one_ne_zero, if_false, if_true]

theorem capHiRead_empty {c : Nat} (hf : (s.tmrChan c).frozen) (hb : (s.tmrChan c).buf = none) :
    capHiRead c s = s.setTmr c { s.tmrChan c with frozen := false, flags := clrBit (s.tmrChan c).flags 5 } := by
  simp only [capHiRead, hf, hb, Bool.not_true, Bool.false_eq_true, if_false]

/-- In REPLAY a breakpoint that is hit in the primary pass halts its own core. -/
theorem execBreakpoint_replay {b core : Fin 4} {t : Nat} (hc : (s.at t).clocks) (hen : (s.at t).on (DBG_BP_EN b))
    (hpc : (s.at t).pcOf core = 4 * (s.at t).get (DBG_BP_ADDR b)) (hrun : ((s.at t).core core).halted = false)
    (hmode : (s.at t).debugMode = 2) (hprim : (s.at t).inMirror core = false) :
    execBreakpoint b core t s = .next (haltCores [core.val] (s.at t)) := by
  simp only [execBreakpoint, hc, hen, hpc, hrun, hmode, hprim, beq_self_eq_true]
  rfl

theorem execDebuggerWrite_outside {core : Fin 4} {target : DbgTarget} {v : Word} {t : Nat} (hc : (s.at t).clocks)
    (hmode : (s.at t).debugMode ≠ 0) (hsram : dbgSram core target) (hpass : ((s.at t).core core).pass = none) :
    execDebuggerWrite core target v t s = .next (debugPut core target v (memKey core) (s.at t)) := by
  simp only [execDebuggerWrite]
  rw [if_neg (by simp [hmode, hsram, hc]), hpass]

end

/-- Settles O39: each request of the debugger is taken in the debug mode its rule names. -/
theorem debugCommands : Obligations.DebugCommands := by
  unfold Obligations.DebugCommands
  refine ⟨?_, ?_, ?_, ?_, ?_, ?_⟩
  · rintro _ _ ⟨hclocks, htok, hv, hserv⟩  -- modeReq
    exact (if_pos hclocks).trans (congrArg _ (modeReq_permitted htok hv hserv))
  · rintro _ _ _ rfl ⟨hclocks, hmode⟩  -- halt
    exact (if_pos hclocks).trans (congrArg _ (haltReq_joint hmode))
  · rintro _ _ _ rfl h  -- debugResume
    exact if_pos h
  · rintro _ _ _ _ _ rfl ⟨hclocks, hen, hpc, hrun, hmode, hprim⟩  -- breakpoint
    exact execBreakpoint_replay hclocks hen hpc hrun hmode hprim
  · rintro _ _ _ _ _ _ rfl ⟨hclocks, hmode, hsram, hpass⟩  -- debuggerWrite
    exact execDebuggerWrite_outside hclocks hmode hsram hpass
  · intro _ _ h  -- debugPortInstruction
    exact if_pos (by simpa [and_assoc] using h)

/-- Settles O40: each access to a register goes to the register it names. -/
theorem registerAccess : Obligations.RegisterAccess := by
  unfold Obligations.RegisterAccess
  refine ⟨?_, ?_, ?_, ?_, ?_, ?_⟩
  · rintro _ _ _ _ _ rfl h  -- registerWrite
    exact if_pos h
  · rintro _ _ _ _ rfl h  -- loRegisterRead
    exact if_pos h
  · intro _ h  -- pwrWakeSrcRead
    exact congrArg _ (if_pos h)
  · rintro _ _ _ _ rfl  -- capLoRead
    rfl
  · rintro _ _ _ _ rfl ⟨hfrozen, hbuf⟩  -- capHiRead
    exact congrArg _ (capHiRead_empty hfrozen hbuf)
  · intro _ _  -- uartRxd
    rfl

end Sys2Proof.Machine

/-! PROOFS. The commands of the channel table: faults, windows and holds of the protected switches, and the switch dies. -/
namespace Sys2Proof.Machine

/-- Settles O41: the condition of each fault is the condition under which its command cuts the channel or sets the bit. -/
theorem channelFaults : Obligations.ChannelFaults := by
  unfold Obligations.ChannelFaults
  refine ⟨?_, ?_, ?_, ?_, ?_, ?_, ?_, ?_, ?_, ?_, ?_⟩
  · rintro _ _ _ _ rfl h  -- short
    exact if_pos h
  · rintro _ _ _ _ _ _ _ rfl h  -- overcur
    exact if_pos (by simpa only [Bool.and_eq_true, and_assoc, decide_eq_true_eq, Bool.not_eq_true'] using h)
  · rintro _ _ _ _ _ rfl h  -- openOn
    exact if_pos (by simpa only [Bool.and_eq_true, and_assoc, decide_eq_true_eq, Bool.not_eq_true', Option.isNone_iff_eq_none] using h)
  · rintro _ _ _ _ _ rfl h  -- stuckOff
    exact if_pos (by simpa only [Bool.and_eq_true, and_assoc, decide_eq_true_eq, Bool.not_eq_true', Option.isNone_iff_eq_none] using h)
  · rintro _ _ _ _ _ rfl h  -- stuckOn
    exact if_pos (by simpa only [Bool.and_eq_true, and_assoc, decide_eq_true_eq, Bool.not_eq_true'] using h)
  · rintro _ _ _ _ rfl h  -- bridgeStall
    exact if_pos (by simpa only [Bool.and_eq_true, and_assoc, decide_eq_true_eq, bne_iff_ne, Option.isNone_iff_eq_none] using h)
  · rintro _ _ _ _ rfl h  -- demagEnd
    exact if_neg (by simp only [h, Option.isSome_none, Bool.or_self, Bool.false_eq_true, not_false_eq_true])
  · rintro i t down up _ s _ rfl ⟨hat, hout, hoff, hdiag, hdue⟩  -- offWindow
    change execOffWindow i t down up s = _
    simp only [execOffWindow, hat]
    exact if_neg (by simp only [hout, hoff, hdiag, Nat.not_lt.mpr hdue]; decide)
  · rintro _ _ _ _ _ rfl ⟨htj, huv, hfree⟩  -- thermal
    exact if_pos ⟨htj, hfree, huv⟩
  · rintro _ _ _ _ _ rfl h  -- thermalRelease
    exact if_pos h
  · rintro b t s _ rfl h  -- ripple
    change execRipple b t s = _
    rw [execRipple, h]
    rfl

/-- Settles O42: each window or hold that is over ends with the effect of its rule. -/
theorem channelTimers : Obligations.ChannelTimers := by
  unfold Obligations.ChannelTimers
  refine ⟨?_, ?_, ?_, ?_, ?_, ?_, ?_, ?_, ?_, ?_, ?_, ?_, ?_⟩
  · rintro i t _ s _ rfl ⟨hw, hdue⟩  -- inrushWindowEnd
    change execInrushWindowEnd i t s = _
    simp only [execInrushWindowEnd, hw]
    exact if_pos hdue
  · rintro _ _ _ _ rfl h  -- groupDroop
    exact if_neg (by simp only [h, Bool.false_eq_true, not_false_eq_true])
  · rintro _ _ _ _ rfl h  -- droopRelease
    exact if_pos h
  · rintro i t _ s _ rfl ⟨he, hdue⟩  -- retryWaitEnd
    change execRetryWaitEnd i t s = _
    simp only [execRetryWaitEnd, he]
    exact if_pos hdue
  · rintro i t _ s _ rfl ⟨ha, hdue⟩  -- retryCntReset
    change execRetryCntReset i t s = _
    simp only [execRetryCntReset, ha]
    exact if_pos hdue
  · rintro b t _ s _ rfl ⟨he, hdue⟩  -- reversalBrakeEnd
    change execReversalBrakeEnd b t s = _
    simp only [execReversalBrakeEnd, he]
    exact if_pos hdue
  · rintro _ _ _ _ rfl h  -- uvHold
    exact if_neg (by simp only [h, Bool.false_eq_true, not_false_eq_true])
  · rintro _ _ _ _ rfl h  -- uvRelease
    exact if_pos h
  · rintro i t _ s _ rfl h  -- pullInDip
    change execPullInDip i t s = _
    simp only [execPullInDip, h]
  · rintro i t _ s _ rfl ⟨ha, hdue⟩  -- signatureTimeout
    change execSignatureTimeout i true t s = _
    simp only [execSignatureTimeout, if_true, ha]
    exact if_neg (Nat.not_lt.mpr hdue)
  · rintro i t energy _ s _ rfl ⟨hhold, harmed, hmax, ha, hdue⟩  -- tlHold
    change execTlHold i t energy s = _
    simp only [execTlHold, hhold, harmed, ha]
    exact (if_neg Bool.false_ne_true).trans (if_pos (by
      simpa only [Bool.and_eq_true, bne_iff_ne, decide_eq_true_eq] using And.intro hmax hdue))
  · rintro i t energy s _ rfl ⟨hhold, hdue⟩  -- tlHoldEnd
    change execTlHoldEnd i t energy s = _
    simp only [execTlHoldEnd, hhold]
    exact if_pos (decide_eq_true hdue)
  · rintro _ _ _ _ rfl h  -- pairGapEnd
    exact if_pos (by simpa only [Bool.and_eq_true] using h)

section
variable {s : State}

theorem chtClr_field {i : Nat} {f : Nat → State → State} (h : i ≤ 423) : chtClr i f s = f i s :=
  if_neg (by simpa [idxErr] using h)

/-- Two dies that read one limp input differently give both levels among the four. -/
theorem limpLevels_differ {n : Nat} {j k : Fin 4} (hj : s.limpLevel j n = true) (hk : s.limpLevel k n = false) :
    ((List.range 4).map (fun k => s.limpLevel k n)).contains true ∧ ((List.range 4).map (fun k => s.limpLevel k n)).contains false := by
  simp only [List.contains_iff_mem]
  exact ⟨List.mem_map.mpr ⟨j, List.mem_range.mpr j.isLt, hj⟩, List.mem_map.mpr ⟨k, List.mem_range.mpr k.isLt, hk⟩⟩

end

/-- Settles O43: each command acts on its die or on its channel of the table. -/
theorem dieCommands : Obligations.DieCommands := by
  unfold Obligations.DieCommands
  refine ⟨?_, ?_, ?_, ?_, ?_, ?_, ?_, ?_, ?_, ?_, ?_⟩
  · rintro _ _ _ _ _ _ rfl  -- limpInputChange
    rfl
  · rintro _ _ _ _ _ _ rfl ⟨hj, hk⟩  -- limpDiff
    exact if_pos (by simpa only [Bool.and_eq_true] using limpLevels_differ hj hk)
  · rintro k t s _ rfl ⟨hmode, hdue⟩  -- serialWatchdogExpiry
    change execSerialWatchdogExpiry k t s = _
    simp only [execSerialWatchdogExpiry, hmode]
    exact if_pos (decide_eq_true hdue)
  · rintro _ _ _ _ rfl  -- dieLogicReset
    rfl
  · rintro _ _ _ _ _ rfl h  -- dieHealth
    exact if_pos h
  · intro _ _  -- bstop
    rfl
  · intro _ _ h  -- resume
    exact if_pos h
  · intro _ _ h  -- therm
    exact congrArg _ (chtClr_field h)
  · intro _ _ h  -- latchClr
    exact congrArg _ (chtClr_field h)
  · intro _ _ h  -- fltClr
    exact congrArg _ (chtClr_field h)
  · rintro _ _ ⟨hi, hnew⟩  -- chtPost
    exact (if_neg (by simpa [idxErr] using hi)).trans (if_neg (by simpa using hnew))

end Sys2Proof.Machine

/-! PROOFS. The commands of the channel chain, the lamp ports and the field die. -/
namespace Sys2Proof.Machine

section
variable {s : State} {t : Nat}

theorem chainStart_stopped (h : s.on PCHN_CTL_CHAIN_EN = false) : chainStart s =
    (let x := (s.flag PCHN_CTL_CHAIN_EN true).put PCHN_STAT_STATE 2
    { x with chain := { x.chain with liveAt := x.now, stallAt := x.now } }) := if_neg (by simp [h])

theorem lcpEnable_drivers {p : Nat} (h : s.get (LCP_CTL_NDRV p) ≠ 0) : lcpEnable p s =
    (let x := s.flag (LCP_CTL_EN p) true
    if x.get (LCP_STAT_STATE p) = 0 then ledState p 1 x else x) := if_neg h

theorem fldSilence_over (hpow : s.field.powered) (hmode : s.fldMode = 0) (hsafe : s.field.safe = false)
    (hdue : s.field.tmoAt + s.fldTimeout < s.now) :
    fldSilence s = report 321 (fldSafe (s.flag FLD_STAT_TMO_ACT true)) :=
  if_pos (by simp [hpow, hmode, hsafe, hdue])

end

/-- Settles O44: at its latch instant a running chain or lamp port takes the frame, and an enable starts what stands still. -/
theorem chainAndLampCommands : Obligations.ChainAndLampCommands := by
  unfold Obligations.ChainAndLampCommands
  refine ⟨?_, ?_, ?_, ?_, ?_, ?_, ?_, ?_, ?_⟩
  · intro _ _ _ _ _ h  -- chainLatch
    exact if_pos (by simpa only [Bool.and_eq_true] using h)
  · rintro _ _ _ _ _ _ ⟨hrun, hnow, hcfg, htarget⟩  -- configurationFrame
    exact (if_pos (by rw [hrun, hnow, hcfg]; rfl)).trans ((if_neg htarget).trans (if_pos rfl))
  · intro _ _ h  -- liveAdvance
    exact if_pos (by simpa only [Bool.and_eq_true, and_assoc, beq_iff_eq, decide_eq_true_eq] using h)
  · rintro _ _ _ rfl h  -- liveStall
    exact if_pos (by simpa only [Bool.and_eq_true, decide_eq_true_eq] using h)
  · rintro _ ⟨halive, hoff⟩  -- chainEn
    exact (if_pos halive).trans (congrArg _ (chainStart_stopped hoff))
  · rintro _ _ _ _ _ _ ⟨hrun, ht, hcodes⟩  -- ledLatch
    exact (if_pos (by rw [hrun, ht]; rfl)).trans (congrArg _ (if_neg (Bool.eq_false_iff.mp hcodes)))
  · rintro _ _ ⟨halive, hdrv⟩  -- lcpEn
    exact (if_pos halive).trans (congrArg _ (lcpEnable_drivers hdrv))
  · rintro _ _ _ _ _ _ rfl h  -- lcpSubReq
    exact if_pos h
  · rintro _ _ _ _ rfl h  -- lcpSubTimeout
    exact if_pos (by simpa only [Bool.and_eq_true, beq_iff_eq, decide_eq_true_eq] using h)

/-- Settles O45: each command of the field die runs in the mode its rule names. -/
theorem fieldDieCommands : Obligations.FieldDieCommands := by
  unfold Obligations.FieldDieCommands
  refine ⟨?_, ?_, ?_, ?_, ?_, ?_, ?_, ?_, ?_, ?_, ?_, ?_, ?_, ?_, ?_, ?_, ?_⟩
  · intro _ h  -- fldEn
    exact if_pos h
  · rintro _ _ _ rfl  -- barrierPowerUp
    rfl
  · rintro _ _ _ rfl h  -- barrierSupplyFault
    exact if_pos h
  · rintro _ _ _ _ rfl h  -- fldHealth
    exact if_pos h
  · rintro _ _ _ rfl ⟨hclocks, hpow⟩  -- downlinkFrame
    exact if_neg (by simp only [hclocks, hpow]; decide)
  · rintro t n mA tj v s _ rfl ⟨hclocks, hpow⟩  -- uplinkFrame
    change execUplinkFrame t true true n mA tj v s = _
    rw [execUplinkFrame, if_neg (by simp only [hclocks, hpow]; decide), if_neg (by decide)]
    rfl
  · intro _ _ _ h  -- fieldLatch
    exact if_pos (by simpa only [Bool.and_eq_true, beq_iff_eq] using h)
  · rintro _ _ _ rfl ⟨hpow, hfence, hmode⟩  -- fldArming
    refine (if_neg ?_).trans (if_pos rfl)
    obtain hmode | hmode := hmode <;> simp only [hpow, hfence, hmode] <;> decide
  · rintro _ _ _ rfl ⟨hpow, hmode, hsafe, hdue⟩  -- fldTmo
    exact congrArg _ (fldSilence_over hpow hmode hsafe hdue)
  · rintro t s _ rfl ⟨hpow, hdue, htold, hmode⟩  -- modeMax
    change execModeMax t s = _
    rw [execModeMax, if_neg (by simp only [hpow, Nat.not_lt.mpr hdue, htold]; decide)]
    simp only [hmode]
  · intro _ h  -- fldResume
    exact if_pos (by simpa only [Bool.and_eq_true, and_assoc, beq_iff_eq, Bool.not_eq_true'] using h)
  · rintro _ _ _ _ rfl h  -- testReq
    exact if_pos (by simpa only [Bool.and_eq_true, beq_iff_eq, State.put_field] using h)
  · rintro _ _ _ _ _ _ _ rfl h  -- testComplete
    exact if_pos (by simpa only [Bool.and_eq_true, beq_iff_eq] using h)
  · rintro _ _ _ ⟨hpow, ht, hmode⟩  -- fieldInputSample
    exact if_pos (by simp only [hpow, ht, hmode]; decide)
  · rintro _ _ _ rfl ⟨hpow, huv⟩  -- vfieldUndervoltage
    exact if_neg (by simp only [hpow, huv]; decide)
  · rintro _ _ _ rfl h  -- vfieldRelease
    exact if_pos h
  · rintro _ _ _ rfl h  -- vfieldOv
    exact if_pos h

end Sys2Proof.Machine

/-! PROOFS. The commands of the position scheduler, the coverage engine, the timers, the switch inputs and the converter. -/
namespace Sys2Proof.Machine

section
variable {s : State} {t : Nat}

/-- A well-formed event of kind 1 has no spare words: posted to a slot of firmware it is stored. -/
theorem execEventPost_kind1 {slot : Fin 4096} {w0 w1 w2 w3 : Word} (hslot : slot.val < s.fwSlots) (hgood : eventBad w0 = false)
    (hkind : wbits w0 31 30 = 1) :
    execEventPost slot w0 w1 w2 w3 s = .next (s.setEvent slot (some { w0 := w0, w1 := w1, w2 := w2, w3 := w3 })) := by
  simp only [execEventPost, hkind, hgood, decide_eq_false (Nat.not_le.mpr hslot)]
  rfl

theorem editCmd_taken {op layer value : Nat} (hop : op ≠ 0) (h : s.editBad op layer value = false) : editCmd op layer value s =
    ({ s with cov := { s.cov with edit := some ⟨op == 2, layer, value, s.get COV_EDIT_A_X0, s.get COV_EDIT_A_Y0,
      s.get COV_EDIT_B_X1, s.get COV_EDIT_B_Y1, 0x1000 * s.get COV_EDIT_SRC_ADDR, 0⟩ } } : State).flag COV_EDIT_STAT_BUSY true :=
  (if_neg hop).trans (if_neg (Bool.eq_false_iff.mp h))

end

/-- Settles O46: while the scheduler runs each of its commands acts, and a well-formed post is stored. -/
theorem positionScheduler : Obligations.PositionScheduler := by
  unfold Obligations.PositionScheduler
  refine ⟨?_, ?_, ?_, ?_, ?_, ?_, ?_, ?_, ?_, ?_, ?_, ?_, ?_, ?_, ?_, ?_, ?_⟩
  · rintro _ _ _ rfl h  -- pschTick
    exact if_pos (by simpa only [Bool.and_eq_true, beq_iff_eq] using h)
  · rintro _ _ _ rfl  -- eventFire
    rfl
  · rintro _ _ _ _ rfl h  -- wheelExclude
    exact if_pos h
  · rintro _ _ _ _ rfl h  -- wheelReadmit
    exact if_pos h
  · rintro w t _ s _ rfl ⟨hlast, hstop⟩  -- wheelStop
    change execWheelStop w t s = _
    simp only [execWheelStop, hlast]
    exact if_pos hstop
  · rintro _ _ _ rfl h  -- yawLost
    exact if_pos (by simpa only [Bool.and_eq_true, Bool.not_eq_true'] using h)
  · rintro _ _ _ _ rfl h  -- zeroRateUpdate
    exact if_pos h
  · rintro _ _ _ rfl h  -- locDr
    exact if_pos h
  · intro _ _ h _ _ _ _ h  -- delta
    exact if_neg (Bool.eq_false_iff.mp h)
  · intro _ _ _ _ _  -- setCorr
    rfl
  · intro i s h  -- apPost
    change execApPost i s = _
    rw [execApPost, if_neg (Bool.eq_false_iff.mp h)]
  · intro _ _  -- apClr
    rfl
  · rintro _ _ _ _ _ _ ⟨hslot, hgood, hkind⟩  -- eventPost
    exact execEventPost_kind1 hslot hgood hkind
  · intro _ _ h  -- eventCancel
    exact if_neg (Nat.not_le.mpr h)
  · intro _ _  -- cancelAp
    rfl
  · rintro _ _ _ rfl h  -- applyWindowEntry
    exact if_pos h
  · intro _  -- pschEn
    rfl

/-- Settles O47: each command of the coverage engine runs in the state its rule names. -/
theorem coverageCommands : Obligations.CoverageCommands := by
  unfold Obligations.CoverageCommands
  refine ⟨?_, ?_, ?_, ?_, ?_, ?_, ?_, ?_, ?_, ?_, ?_, ?_, ?_⟩
  · intro _ _ _ h  -- coverageCycle
    exact if_pos (by simpa only [Bool.and_eq_true, and_assoc, beq_iff_eq, decide_eq_true_eq] using h)
  · rintro _ _ _ rfl h  -- cycleOvr
    exact if_pos (by simpa only [Bool.and_eq_true, and_assoc, decide_eq_true_eq, Bool.not_eq_true'] using h)
  · intro _ h  -- covEn
    exact if_neg (by simp only [h]; decide)
  · rintro id _ s ⟨hstate, hrec⟩  -- fieldOpen
    change execFieldOpen id s = _
    rw [execFieldOpen, if_neg (not_not.mpr hstate)]
    simp only [hrec]
  · rintro _ _ _ rfl h  -- directoryRead
    exact if_neg (not_not.mpr h)
  · rintro _ _ _ rfl h  -- fieldClose
    exact if_pos h
  · rintro _ _ _ rfl h  -- fieldFlush
    exact if_pos h
  · intro _ _ h  -- fieldErase
    exact if_neg (not_not.mpr h)
  · rintro _ _ _ rfl h  -- flushComplete
    exact if_pos (by simpa only [Bool.and_eq_true, Bool.not_eq_true'] using h)
  · rintro _ _ _ rfl h  -- flushLate
    exact if_pos (by simpa only [Bool.and_eq_true, decide_eq_true_eq] using h)
  · intro _ _ _ h  -- fill
    exact congrArg _ (editCmd_taken Nat.one_ne_zero h)
  · intro _ _ h  -- install
    exact congrArg _ (editCmd_taken two_ne_zero h)
  · rintro e t fail _ s _ rfl ⟨htile, hdirty, hallowed, hopen⟩  -- writeBackTile
    change execWriteBackTile e t fail s = _
    simp only [execWriteBackTile, htile, hdirty, hallowed, hopen, Bool.true_or, Bool.and_self, if_true]

section
variable {s : State} {t : Nat}

theorem tmrPost_new {c : Nat} (h : s.tmrPosts.contains c = false) : tmrPost c s = { s with tmrPosts := s.tmrPosts ++ [c] } :=
  if_neg (Bool.eq_false_iff.mp h)

end

/-- Settles O48: each command acts on its timer channel, and the scans act when their block runs. -/
theorem timerCommands : Obligations.TimerCommands := by
  unfold Obligations.TimerCommands
  refine ⟨?_, ?_, ?_, ?_, ?_, ?_, ?_, ?_⟩
  · intro _ _ h  -- tmrPost
    exact congrArg _ (tmrPost_new h)
  · rintro _ _ _ _ rfl  -- tmrClrCnt
    rfl
  · intro _ _  -- tmrClrFlags
    rfl
  · rintro _ _ _ _ rfl h  -- timerTick
    exact if_pos h
  · rintro _ _ _ _ _ _ rfl ⟨hrun, hheld, hlvl, hmode⟩  -- filteredEdge
    exact (if_neg (by simp only [hrun, hheld]; decide)).trans (if_neg (not_or.mpr ⟨hlvl, Nat.not_le.mpr hmode⟩))
  · intro _ _ _ _ h  -- swinScan
    exact if_pos (by simpa only [Bool.and_eq_true, and_assoc, beq_iff_eq] using h)
  · rintro _ _ _ rfl ⟨hrun, hen, hdue, hfree⟩  -- adcTrigger
    exact (if_neg (by simp only [hrun, hen, hdue]; decide)).trans (if_neg (Bool.eq_false_iff.mp hfree))
  · rintro t codes _ s _ rfl ⟨hat, hrun, hdue⟩  -- adcScanComplete
    change execAdcScanComplete t codes true s = _
    simp only [execAdcScanComplete, hat, hrun, decide_eq_true hdue, Bool.and_self, if_true]

end Sys2Proof.Machine

/-! PROOFS. The commands of the CAN controllers, of network management and of the other links. -/
namespace Sys2Proof.Machine

section
variable {s : State} {t : Nat} {n : Fin 13}

theorem canInitClear_leaves (hstate : s.canState n = 0) (hinit : s.on (CAN_CTL_INIT n)) (htiming : s.timingOk n) :
    canInitClear n s = canGo n 1 (s.flag (CAN_CTL_INIT n) false) := by
  simp only [canInitClear, hstate, hinit, htiming]
  rfl

theorem canRecover_busOff (hstate : s.canState n = 4) : canRecover n s = (canGo n 5 s).put (CAN_STAT_RCNT n) 0 := if_pos hstate

/-- A bus that falls idle makes the pending change of state: to INIT, or to restricted operation. -/
theorem execBusIdle_runs (h : (s.at t).canRuns n) : execBusIdle n t s = .next (
    let x := (s.at t).modCan n (fun x => { x with onHfrc := false })
    if x.on (CAN_CTL_INIT n) && x.canState n != 0 && x.canState n != 7 then canGo n 0 (cutTx n x)
    else if x.on (CAN_CTL_ROM n) && (x.canState n == 1 || x.canState n == 2 || x.canState n == 3) then canGo n 6 (cutTx n x)
    else x) := by
  rw [execBusIdle, if_neg (by rw [h]; decide)]
  simp only [apply_ite Host.Outcome.next]

/-- A controller that is free to send sends what it offers. -/
theorem execTransmitStart_free {o : TxFrom} (hbus : (s.at t).onBus n) (hmute : (s.at t).pwr.mute = false)
    (hrestricted : (s.at t).canState n ≠ 6) (hidle : ((s.at t).can n).sending = none) (hpx : ((s.at t).can n).pxWait = false)
    (hrate : (s.at t).rateHeld n = false) (hgate : (s.at t).gateHeld n = false) (hoffer : (s.at t).offer n false = some o) :
    execTransmitStart n t s = .next (startTx n o (s.at t)) := by
  rw [execTransmitStart, if_neg (by simp only [hbus, hmute, beq_eq_false_iff_ne.mpr hrestricted, hidle, hpx]; decide)]
  simp only [hrate, hgate, Bool.false_and, Bool.or_self, Bool.false_eq_true, if_false, hoffer]

/-- A classic frame sent from the FIFO lowers the error count, leaves the FIFO and is recorded as sent. -/
theorem execFrameSent_fifo {tdcv : BitVec 7} {f : TxFrame} (hbus : (s.at t).onBus n) (hcur : ((s.at t).can n).current = some f)
    (hfifo : ((s.at t).can n).sending = some .fifo) (hclassic : f.fdf = false) : execFrameSent n t tdcv s = .next
    (txRecord n f 0 false (popTx n (canLevel n ((s.at t).put (CAN_ECNT_TEC n) ((s.at t).get (CAN_ECNT_TEC n) - 1))))) := by
  simp only [execFrameSent, hcur, hbus, hclassic, hfifo, Bool.false_and]
  rfl

end

/-- Settles O49: a command of a controller that runs, or is not gated, acts in the state its rule names. -/
theorem canControllers : Obligations.CanControllers := by
  unfold Obligations.CanControllers
  refine ⟨?_, ?_, ?_, ?_, ?_, ?_, ?_, ?_, ?_, ?_, ?_, ?_, ?_, ?_, ?_, ?_, ?_, ?_, ?_, ?_, ?_, ?_⟩
  · rintro _ _ ⟨hrun, hstate, hinit, htiming⟩  -- initClear
    exact (if_pos hrun).trans (congrArg _ (canInitClear_leaves hstate hinit htiming))
  · intro _ _ h  -- initSet
    exact if_pos h
  · intro _ _ h  -- romSet
    exact if_pos h
  · intro _ _ h  -- romClear
    exact if_pos h
  · rintro _ _ _ _ rfl h  -- busIdle
    exact execBusIdle_runs h
  · rintro _ _ ⟨hrun, hstate⟩  -- recover
    exact (if_pos hrun).trans (congrArg _ (canRecover_busOff hstate))
  · rintro _ _ _ _ rfl h  -- integrationComplete
    exact if_neg (by rw [h]; decide)
  · rintro _ _ _ _ rfl h  -- recoveryComplete
    exact if_pos (by simpa only [Bool.and_eq_true, beq_iff_eq] using h)
  · rintro n t f s _ rfl ⟨hhears, hclassic⟩  -- frameReceive
    change execFrameReceive n t f s = _
    simp only [execFrameReceive, hhears, hclassic]
    rfl
  · rintro _ _ _ _ _ rfl ⟨hbus, hmute, hrestricted, hidle, hpx, hrate, hgate, hoffer⟩  -- transmitStart
    exact execTransmitStart_free hbus hmute hrestricted hidle hpx hrate hgate hoffer
  · rintro _ _ _ _ _ _ rfl ⟨hbus, hcur, hfifo, hclassic⟩  -- frameSent
    exact execFrameSent_fifo hbus hcur hfifo hclassic
  · rintro n t s _ rfl ⟨hbus, hsending⟩  -- arbitrationLost
    change execArbitrationLost n t false s = _
    rw [execArbitrationLost, if_neg (by simp only [hbus, Option.isNone_eq_false_iff.mpr hsending]; decide)]
    rfl
  · rintro _ _ _ _ _ _ _ rfl ⟨hbus, hcode⟩  -- busError
    exact if_neg (by simp only [hbus, beq_eq_false_iff_ne.mpr hcode, Bool.false_and]; decide)
  · intro _ _ h  -- push
    exact if_neg (Bool.eq_false_iff.mp h)
  · intro _ _ h  -- urgent
    exact if_neg (Bool.eq_false_iff.mp h)
  · intro _ _ h  -- fifoFlush
    exact if_neg (Bool.eq_false_iff.mp h)
  · intro _ _ h  -- urgAbort
    exact if_neg (Bool.eq_false_iff.mp h)
  · intro _ _ _ h  -- mbPost
    exact if_neg (Bool.eq_false_iff.mp h)
  · intro _ _ _ h  -- rxAck
    exact if_neg (Bool.eq_false_iff.mp h)
  · intro _ _ _ h  -- referenceSlot
    exact if_pos (by simpa only [Bool.and_eq_true, and_assoc, beq_iff_eq, State.at_get] using h)
  · rintro _ _ _ _ rfl h  -- refMiss
    exact if_pos (by simpa only [Bool.and_eq_true, and_assoc, Bool.not_eq_true', decide_eq_true_eq] using h)
  · rintro _ _ _ _ rfl h  -- txdDominantTimeout
    exact if_pos h

section
variable {s : State} {t : Nat} {n : Fin 13}

/-- A false wake is counted, and the bus prepares to sleep; without a limit nothing is locked. -/
theorem execFalseWake_unlimited {a : Nat} (hrun : (s.at t).nmRuns) (hstate : (s.at t).nmState n = 3)
    (hat : ((s.at t).nm n).fwAt = some a) (hdue : a + ms ((s.at t).get (NM_FW_FW_TMO_MS n)) ≤ (s.at t).now)
    (hlim : (s.at t).get (NM_FW_FW_LIM n) = 0) : execFalseWake n t s = .next (nmPrepare n
      (((s.at t).put (NM_STAT_FW_CNT n) (min 255 ((s.at t).get (NM_STAT_FW_CNT n) + 1))).flag (NM_FLAGS_FALSE_WAKE n) true)) := by
  simp only [execFalseWake, hrun, hstate, hat, hlim, Option.any_some, decide_eq_true hdue]
  rfl

end

/-- Settles O50: each request, timer and wake of a bus acts in the state its rule names. -/
theorem networkManagement : Obligations.NetworkManagement := by
  unfold Obligations.NetworkManagement
  refine ⟨?_, ?_, ?_, ?_, ?_, ?_, ?_, ?_, ?_⟩
  · rintro _ _ _ _ _ rfl h  -- nmEn
    exact if_pos h
  · rintro _ _ _ _ _ rfl h  -- nmReq
    exact if_pos h
  · rintro _ _ _ _ rfl h  -- rallyTimer
    exact if_pos (by simpa only [Bool.and_eq_true, and_assoc, beq_iff_eq, decide_eq_true_eq] using h)
  · rintro _ _ _ _ rfl h  -- networkTimerExpiry
    exact if_pos (by simpa only [Bool.and_eq_true, and_assoc, beq_iff_eq, decide_eq_true_eq, Option.isNone_iff_eq_none] using h)
  · rintro _ _ _ _ rfl h  -- prepareSleepExpiry
    exact if_pos (by simpa only [Bool.and_eq_true, and_assoc, beq_iff_eq, decide_eq_true_eq] using h)
  · rintro _ _ _ _ rfl h  -- busLeave
    exact if_pos (by simpa only [Bool.and_eq_true, and_assoc, beq_iff_eq, Option.isNone_iff_eq_none] using h)
  · rintro _ _ _ _ _ rfl h  -- busWake
    exact if_pos (by simpa only [Bool.and_eq_true, bne_iff_ne] using h)
  · rintro n t f s _ rfl ⟨halive, hpower, hen, hstate, hclassic⟩  -- wakeUpFrame
    change execWakeUpFrame n t true f s = _
    rw [execWakeUpFrame, if_neg (by simp only [halive, beq_eq_false_iff_ne.mpr hpower, hen, hstate]; decide), hclassic]
    rfl
  · rintro _ _ _ _ _ rfl ⟨hrun, hstate, hat, hdue, hlim⟩  -- falseWake
    exact execFalseWake_unlimited hrun hstate hat hdue hlim

end Sys2Proof.Machine

/-! PROOFS. The commands of the LIN, Ethernet, SENT and UART links. -/
namespace Sys2Proof.Machine

section
variable {s : State} {t : Nat}

/-- At the end of a slot without a frame under way the slot that the schedule names runs. -/
theorem execLinSlot_regular {m : Fin 6} (hrun : (s.at t).linksRun) (hstate : (s.at t).linState m = 1) (hcmdr : (s.at t).on (LIN_CTL_CMDR m))
    (hdue : ((s.at t).lin m).slotAt + ((s.at t).lin m).slotLen ≤ (s.at t).now) (hframe : ((s.at t).lin m).frame = none)
    (hbase : 64 * (s.at t).get (LIN_SCHED_BASE m) = ((s.at t).lin m).base)
    (htype : ((s.at t).linSlot ((s.at t).lin m).base ((s.at t).lin m).slot).1 = 1) :
    execLinSlot m t s = .next (linRunSlot m ((s.at t).lin m).base ((s.at t).lin m).slot (s.at t)) := by
  rw [execLinSlot, if_neg (by simp only [hrun, hstate, hcmdr, decide_eq_false (Nat.not_lt.mpr hdue)]; decide)]
  simp only [hframe, Option.isSome_none, Bool.false_eq_true, if_false, hbase, if_true, htype, true_or]

/-- A frame that ends with an error is written and its error is counted. -/
theorem execLinFrame_error {m : Fin 6} {result : Fin 8} {data : List Byte} {id : Nat} (hframe : ((s.at t).lin m).frame = some id)
    (hrun : (s.at t).linksRun) (hmute : (s.at t).pwr.mute = false) (hstate : (s.at t).linState m = 1)
    (hsleep : ((s.at t).lin m).sleepCmd = false) (hresult : result ≠ 0) : execLinFrame m t result data s = .next
    (linError m result (linWrite m id result data ((s.at t).setLin m
      { (s.at t).lin m with frame := none, sleepCmd := false, actAt := (s.at t).now }))) := by
  simp only [execLinFrame, hframe]
  rw [if_neg (by simp only [hrun, hmute, hstate]; decide)]
  simp only [hsleep, hresult, beq_eq_false_iff_ne.mpr hresult, Bool.false_and, Bool.or_self, Bool.false_eq_true, if_false]

/-- A responder takes a break with good parity, whether its rate fits or not. -/
theorem execLinBreak_responder {m : Fin 6} {dominant rate : Nat} {id : BitVec 6} (hrun : (s.at t).linksRun)
    (hmute : (s.at t).pwr.mute = false) (hstate : (s.at t).linState m = 1) (hresp : (s.at t).on (LIN_CTL_CMDR m) = false)
    (hlong : 11 ≤ dominant) : execLinBreak m t dominant rate id true s = .next (
    let x := (s.at t).setLin m { (s.at t).lin m with actAt := (s.at t).now, frame := none, rate := rate }
    if !within (86 * (s.at t).linBaud m) (114 * (s.at t).linBaud m) (100 * rate) then linError m 7 x
    else x.setLin m { x.lin m with frame := some id.toNat }) := by
  rw [execLinBreak, if_neg (by simp only [hrun, hmute, hstate, hresp, decide_eq_false (Nat.not_lt.mpr hlong)]; decide)]
  simp only [Bool.not_true, Bool.false_eq_true, if_false, apply_ite Host.Outcome.next]

/-- A message without a serial part is stored with its time stamp, and its yaw rate is passed on. -/
theorem execSentFrame_good {r : Fin 10} {edge cal : Nat} {nibs : List Nat} {crc : Bool} (hrun : (s.at t).sentRuns r)
    (hcheck : (s.at t).sentCheck r cal nibs crc = 0) : execSentFrame r t edge cal nibs crc none s = .next (
    let x := (s.at t).setSent r { (s.at t).sent r with cal := some cal }
    let x := (x.put (SENT_FAST_ST r) (nibs.getD 0 12 - 12)).put (SENT_FAST_NIB r) (packNibbles ((nibs.drop 1).map (fun x => x - 12)))
    let x := ((x.put (SENT_FAST_TS_T r) edge).wrap (SENT_STAT_SEQ r)).setSent r { x.sent r with heardAt := x.now }
    sentYaw r edge (packNibbles ((nibs.drop 1).map (fun x => x - 12))) x) := by
  rw [execSentFrame, if_neg (by rw [hrun]; decide)]
  simp only [hcheck, zero_ne_one, if_false, ne_eq, not_true_eq_false]

/-- A byte without an error is appended to a queue that has room. -/
theorem execUartRxByte_room {u : Fin 4} {b : Byte} (hrun : (s.at t).uartRuns u) (hroom : ((s.at t).uart u).rx.length < 512)
    (hwide : (s.at t).on (UART_CTL_DATA7 u) = false) : execUartRxByte u t b false false s = .next ((s.at t).setUart u
      { (s.at t).uart u with stopAt := some (s.at t).now, rx := ((s.at t).uart u).rx ++ [⟨b, false, false⟩] }) := by
  rw [execUartRxByte, if_neg (by rw [hrun]; decide), hwide]
  exact if_neg (Nat.not_le.mpr hroom)

end

/-- Settles O51: each link that runs performs its command as its rule gives it. -/
theorem otherLinks : Obligations.OtherLinks := by
  unfold Obligations.OtherLinks
  refine ⟨?_, ?_, ?_, ?_, ?_, ?_, ?_, ?_, ?_, ?_, ?_, ?_, ?_, ?_, ?_, ?_, ?_, ?_, ?_⟩
  · rintro _ _ _ _ rfl ⟨hrun, hstate, hcmdr, hdue, hframe, hbase, htype⟩  -- linSlot
    exact execLinSlot_regular hrun hstate hcmdr hdue hframe hbase htype
  · rintro _ _ _ _ _ _ _ rfl ⟨hframe, hrun, hmute, hstate, hsleep, hresult⟩  -- linFrame
    exact execLinFrame_error hframe hrun hmute hstate hsleep hresult
  · rintro _ _ _ _ _ _ _ rfl ⟨hrun, hmute, hstate, hresp, hlong⟩  -- linBreak
    exact execLinBreak_responder hrun hmute hstate hresp hlong
  · rintro _ _ _ _ rfl h  -- linInactivity
    exact if_pos (by simpa only [Bool.and_eq_true, and_assoc, beq_iff_eq, decide_eq_true_eq] using h)
  · rintro _ _ _ _ rfl ⟨hrun, hstate⟩  -- linWake
    exact (if_pos (by simp only [hrun, hstate]; decide)).trans (congrArg _ (if_pos hstate))
  · rintro _ _ _ _ _ rfl ⟨hrun, halive, hstate, hlong⟩  -- wakeRx
    exact if_pos (by simp only [hrun, halive, hstate, decide_eq_true hlong]; rfl)
  · rintro _ _ _ _ rfl h  -- linDominantTimeout
    exact if_pos (by simpa only [Bool.and_eq_true] using h)
  · intro _ _ h  -- ethTxPush
    exact if_pos h
  · rintro _ _ _ _ _ rfl ⟨hrun, hsending, hshared, hown⟩  -- ethFrameSent
    exact if_neg (by simp only [hrun, hsending, hshared, hown]; decide)
  · rintro _ _ _ _ _ _ rfl h  -- ethFrameReceive
    exact if_pos (by simpa only [Bool.and_eq_true, and_assoc] using h)
  · rintro _ _ _ _ rfl ⟨hlink, halive, hpower⟩  -- ethLinkLost
    exact (if_pos hlink).trans (congrArg _ (if_pos (by simp only [halive, hpower]; rfl)))
  · rintro _ _ _ _ _ rfl h  -- ethLinkUp
    exact if_pos h
  · rintro _ _ _ _ _ _ _ _ rfl ⟨hrun, hcheck⟩  -- sentFrame
    exact execSentFrame_good hrun hcheck
  · rintro _ _ _ _ rfl h  -- sentSilence
    exact if_pos (by simpa only [Bool.and_eq_true, decide_eq_true_eq] using h)
  · rintro _ _ _ _ _ rfl ⟨hrun, hroom, hwide⟩  -- uartRxByte
    exact execUartRxByte_room hrun hroom hwide
  · rintro _ _ _ _ _ _ rfl  -- uartTxd
    rfl
  · rintro u t _ s _ rfl ⟨hstop, hrun, hdue⟩  -- uartIdle
    change execUartIdle u t s = _
    simp only [execUartIdle, hstop]
    exact if_pos (by simp only [hrun, decide_eq_true hdue, Bool.and_self])
  · rintro _ _ _ _ rfl h  -- uartPps
    exact if_pos (by simpa only [Bool.and_eq_true, and_assoc, decide_eq_true_eq] using h)
  · rintro _ _ _ _ rfl  -- transceiverOverTemperature
    rfl

end Sys2Proof.Machine

/-! PROOFS. The commands of cab access, of the Umpire and of the Keeper's mailbox. -/
namespace Sys2Proof.Machine

section
variable {s : State} {t : Nat}

/-- Three samples over the threshold on an awake device trigger their zone. -/
theorem execTouch_awake {e : Fin 4} {samples : List Nat} (hon : (s.at t).accOn) (hcap : (s.at t).capOn e) (hpower : (s.at t).power = .run)
    (hsusp : (s.at t).bit ACC_CAP_STAT_SUSP e = false)
    (hhits : 3 ≤ (samples.take 4).countP (fun x => decide ((s.at t).capTh e < x)))
    (hawake : ((s.at t).putBit ACC_CAP_STAT_TOUCH e true).asleep = false) :
    execTouch e t samples s = .next (touchTrigger e ((s.at t).putBit ACC_CAP_STAT_TOUCH e true)) := by
  rw [execTouch, if_neg (by simp only [hon, hcap, hpower, hsusp]; decide), if_neg (Nat.not_lt.mpr hhits)]
  simp only [hawake, Bool.false_eq_true, if_false]
  exact if_pos (by change ((s.at t).power == .run || _) = true; rw [hpower]; rfl)

/-- The end of a slot before the last of a round takes its reply and opens the next slot. -/
theorem execReplySlotEnd_inner {c : SlotClass} {x : Exchange} (hexch : (s.at t).acc.exch = some x) (hon : (s.at t).accOn)
    (hround : x.rechal = none) (hnext : x.next < 7) (hdue : x.window + ms (11 * x.next + 10) ≤ (s.at t).now) :
    execReplySlotEnd t c s = .next ((s.at t).setExch (some { x.take x.next c (s.at t).now with next := x.next + 1 })) := by
  simp only [execReplySlotEnd, hexch, hround, Option.isSome_none, Bool.false_eq_true, if_false]
  rw [if_neg (by
    simp only [hon, decide_eq_false (show ¬8 ≤ x.next by omega), decide_eq_false (Nat.not_lt.mpr hdue)]
    decide)]
  exact if_pos (by omega)

/-- A verdict that does not end the exchange is noted in it. -/
theorem execKeeperVerdict_open {x : Exchange} {r : Reply} {l : List Reply} (hexch : (s.at t).acc.exch = some x) (hon : (s.at t).accOn)
    (hwait : x.wait = r :: l) (hopen : ¬((x.judge r ((s.at t).verdict r)).rechal = none ∧ 8 ≤ (x.judge r ((s.at t).verdict r)).next ∧
      (x.judge r ((s.at t).verdict r)).wait = [])) :
    execKeeperVerdict t s = .next ((s.at t).setExch (some (x.judge r ((s.at t).verdict r)))) := by
  simp only [execKeeperVerdict, hexch, hwait, hon, Bool.not_true, Bool.false_eq_true, if_false]
  exact if_neg (by simpa only [Bool.and_eq_true, and_assoc, Option.isNone_iff_eq_none, decide_eq_true_eq, List.isEmpty_iff] using hopen)

theorem execKeeperTmo_late {x : Exchange} {r : Reply} {l : List Reply} (hexch : (s.at t).acc.exch = some x) (hon : (s.at t).accOn)
    (hwait : x.wait = r :: l) (hlate : r.at_ + ms 2 < (s.at t).now) : execKeeperTmo t s = .next (finishExchange x true (s.at t)) := by
  simp only [execKeeperTmo, hexch, hon, hwait, List.head?_cons, Bool.true_and]
  exact if_pos (by rw [Option.any_some]; exact decide_eq_true hlate)

end

/-- Settles O52: while ACC is on each event drives the exchange, and what is over ends. -/
theorem accessCommands : Obligations.AccessCommands := by
  unfold Obligations.AccessCommands
  refine ⟨?_, ?_, ?_, ?_, ?_, ?_, ?_, ?_, ?_, ?_, ?_, ?_, ?_, ?_, ?_, ?_, ?_, ?_⟩
  · rintro _ _ _ _ _ rfl ⟨hon, hcap, hpower, hsusp, hhits, hawake⟩  -- touch
    exact execTouch_awake hon hcap hpower hsusp hhits hawake
  · rintro _ _ _ _ _ rfl ⟨hend, hdue⟩  -- touchSuspendEnd
    exact if_pos (by simp only [hend, Option.any_some, decide_eq_true hdue])
  · rintro _ _ _ _ rfl h  -- go
    exact if_pos h
  · rintro _ _ _ _ _ rfl ⟨hexch, hon, hround, hnext, hdue⟩  -- replySlotEnd
    exact execReplySlotEnd_inner hexch hon hround hnext hdue
  · rintro _ _ _ _ _ _ rfl ⟨hexch, hon, hwait, hopen⟩  -- keeperVerdict
    exact execKeeperVerdict_open hexch hon hwait hopen
  · rintro _ _ _ _ _ _ rfl ⟨hexch, hon, hwait, hlate⟩  -- keeperTmo
    exact execKeeperTmo_late hexch hon hwait hlate
  · rintro _ _ _ _ rfl ⟨hend, hdue⟩  -- lockoutEnd
    exact if_pos (by simp only [hend, Option.any_some, decide_eq_true hdue])
  · rintro _ _ _ rfl h  -- lockoutSave
    exact if_pos (by simpa only [Bool.and_eq_true] using h)
  · rintro _ _ _ _ rfl ⟨hauth, hdue⟩  -- authHoldExpiry
    exact if_pos (by simp only [hauth, Option.any_some, decide_eq_true hdue])
  · rintro _ _ _ _ rfl ⟨hok, hlow, hdue⟩  -- immoHoldExpiry
    exact if_pos (by simp only [hok, hlow, Option.any_some, decide_eq_true hdue, Bool.and_self])
  · intro _  -- revoke
    rfl
  · intro _ h  -- accEn
    exact if_pos h
  · rintro _ _ _ _ rfl h  -- accHealth
    exact if_pos (by simpa only [Bool.and_eq_true, decide_eq_true_eq] using h)
  · rintro _ _ _ rfl  -- accLink
    rfl
  · rintro _ _ _ _ _ _ rfl ⟨hon, hen, hload⟩  -- lfDrv
    exact if_pos (by simp only [hon, hen, decide_eq_true hload, Bool.or_true, Bool.and_self])
  · rintro _ _ _ rfl h  -- uhfSynthesiserUnlock
    exact if_pos h
  · rintro e t s _ rfl ⟨hon, he⟩  -- electrodeShort
    change execElectrodeShort e t s = _
    rw [execElectrodeShort, if_neg (by rw [hon]; decide), if_neg he]
  · rintro _ _ _ rfl h  -- lfDriveSupply
    exact if_pos (by simpa only [Bool.true_and, beq_iff_eq] using h)

/-- Settles O53: each command of the Umpire acts under the condition of its rule. -/
theorem umpireCommands : Obligations.UmpireCommands := by
  unfold Obligations.UmpireCommands
  refine ⟨?_, ?_, ?_, ?_, ?_⟩
  · rintro _ _ _ _ rfl h  -- quietExpiry
    exact if_pos h
  · rintro _ _ _ _ rfl h  -- recCntForget
    exact if_pos h
  · intro _ h  -- safeReq
    exact if_pos h
  · intro _ _  -- floorLevel
    rfl
  · intro _  -- selfProtectionTrip
    rfl

section
variable {s : State} {t : Nat}

/-- A mailbox that is on and not busy takes a command. -/
theorem mbxIssue_free {r : KmbReq} {op len : Nat} (hon : s.keeperOn) (hfree : s.on KMB_STAT_BUSY = false) : mbxIssue r op len s =
    (let x := ((s.put KMB_CMD_OP op).put KMB_CMD_LEN len).flag KMB_STAT_BUSY true
    x.setKeeper { x.keeper with cmd := some (r, x.now) }) :=
  if_neg (by simp only [hon, hfree]; decide)

theorem busy_put_argument {v : Nat} : (s.put (KMB_ARG_W 0) v).on KMB_STAT_BUSY = s.on KMB_STAT_BUSY :=
  congrArg (· != 0) (s.get_put_ne (KMB_ARG_W 0) KMB_STAT_BUSY v (by decide))

end

/-- Settles O54: a free mailbox takes each command, and what the Keeper waits for completes or ends. -/
theorem keeperMailbox : Obligations.KeeperMailbox := by
  unfold Obligations.KeeperMailbox
  refine ⟨?_, ?_, ?_, ?_, ?_, ?_, ?_, ?_, ?_, ?_, ?_, ?_, ?_⟩
  · rintro _ _ _ rfl ⟨hon, hfree⟩  -- getIdentity
    exact congrArg _ (mbxIssue_free hon hfree)
  · rintro _ _ _ _ rfl ⟨hon, hfree⟩  -- getRandom
    exact (if_neg (Bool.eq_false_iff.mp hfree)).trans (congrArg _ (mbxIssue_free hon (busy_put_argument.trans hfree)))
  · rintro _ _ _ _ _ _ _ _ _ rfl ⟨hon, hfree⟩  -- tokenEnrol
    exact congrArg _ (mbxIssue_free hon hfree)
  · rintro _ _ _ _ _ _ _ rfl ⟨hon, hfree⟩  -- tokenRevoke
    exact congrArg _ (mbxIssue_free hon hfree)
  · rintro _ _ _ rfl ⟨hon, hfree⟩  -- confirm
    exact congrArg _ (mbxIssue_free hon hfree)
  · rintro _ _ _ rfl ⟨hon, hfree⟩  -- abandon
    exact congrArg _ (mbxIssue_free hon hfree)
  · rintro t valid codes _ s _ rfl ⟨hcmd, hon, htrng⟩  -- mailboxComplete
    change execMailboxComplete t valid codes s = _
    simp only [execMailboxComplete, hcmd]
    exact if_neg (by simp only [hon, htrng, Bool.and_false]; decide)
  · rintro _ _ _ _ rfl h  -- portToken
    exact if_pos h
  · rintro _ _ _ _ rfl ⟨hend, hdue⟩  -- tokenEnd
    exact if_pos (by simp only [hend, Option.any_some, decide_eq_true hdue])
  · rintro _ _ _ _ rfl ⟨hsession, hdue⟩  -- sessionTimeout
    exact if_pos (by rw [hsession, Option.any_some]; exact decide_eq_true hdue)
  · rintro _ _ _ rfl h  -- trngFailure
    exact if_pos h
  · rintro _ _ _ rfl ⟨hon, htrng⟩  -- trngResume
    exact if_neg (by simp only [hon, htrng]; decide)
  · rintro t _ s _ rfl ⟨hcmd, hneeds, htrng, hdue⟩  -- entropy
    change execEntropy t s = _
    simp only [execEntropy, State.setKeeper, hcmd]
    exact if_pos (by simp only [hneeds, htrng, decide_eq_true hdue, Bool.and_self])

end Sys2Proof.Machine

/-! PROOFS. The commands of the Keeper's service on the bus: what a heard request of the tool in session does. -/
namespace Sys2Proof.Machine

section
variable {s : State} {t : Nat} {tool : Fin 128} {seq : BitVec 8}

/-- A greeting outside any session is answered with a random number. -/
theorem execHello_heard (hhears : (s.at t).svcHears) (hsession : (s.at t).session = none) :
    execHello tool seq t s = .next (needRandom 0x10 tool seq.toNat (s.at t)) := by
  rw [execHello, if_neg (by rw [hhears]; decide), hsession]
  rfl

/-- A verification that finds a good container stages its manifest. -/
theorem execVerifyComplete_good {sig digests tlSet : Bool} (hon : (s.at t).keeperOn) (hverifying : (s.at t).keeper.verifying)
    (hphase : (s.at t).vault.phase = 1) (hdone : (s.at t).vault.dlDone) (hok : (s.at t).containerOk sig digests tlSet) :
    execVerifyComplete t sig digests tlSet s = .next (verifyReply 0 ((s.at t).setVault
      { (s.at t).vault with phase := 2, verifyAsked := false, staged := (s.at t).stagedManifest })) := by
  rw [execVerifyComplete, if_neg (by simp only [hon, hverifying, hphase, hdone, Bool.true_or]; decide), if_pos hok]

end

/-- Settles O55: `serve_heard` gives the body of each request the session of its tool, and its conditions choose the branch. -/
theorem keeperService : Obligations.KeeperService := by
  unfold Obligations.KeeperService
  refine ⟨?_, ?_, ?_, ?_, ?_, ?_, ?_, ?_, ?_, ?_, ?_, ?_, ?_, ?_⟩
  · rintro _ _ _ _ _ rfl ⟨hhears, hsession⟩  -- hello
    exact execHello_heard hhears hsession
  · rintro _ _ _ _ _ _ _ rfl ⟨hhears, hsession, htool⟩  -- attest
    change execAttest .. = _
    rw [execAttest, serve_heard hhears hsession htool]
    rfl
  · rintro _ _ _ _ _ _ rfl ⟨hhears, hsession, htool⟩  -- serviceGetIdentity
    change execServiceGetIdentity .. = _
    rw [execServiceGetIdentity, serve_heard hhears hsession htool]
    rfl
  · rintro _ _ _ _ _ _ _ rfl ⟨hhears, hsession, htool, howner, hgood⟩  -- enrolOwner
    change execEnrolOwner .. = _
    rw [execEnrolOwner, serve_heard hhears hsession htool]
    exact congrArg _ ((if_neg (by
      simp only [State.setKeeper, howner, hgood]
      decide)).trans (if_neg (by decide)))
  · rintro _ _ _ _ _ _ _ _ rfl ⟨hhears, hsession, htool, howner, hphase, hepoch⟩  -- transfer
    change execTransfer .. = _
    rw [execTransfer, serve_heard hhears hsession htool]
    exact congrArg _ ((if_neg (by
      simp only [State.setKeeper, Option.isNone_eq_false_iff.mpr howner, hphase]
      decide)).trans (if_neg (by simp only [State.setKeeper, hepoch, bne_self_eq_false]; decide)))
  · rintro _ _ _ _ _ _ _ rfl ⟨hhears, hsession, htool, hphase, hfree, hlen⟩  -- dlStart
    change execDlStart .. = _
    rw [execDlStart, serve_heard hhears hsession htool]
    exact congrArg _ ((if_neg (not_or.mpr ⟨Nat.not_le.mpr hphase, not_not.mpr hfree⟩)).trans (if_neg (Nat.not_lt.mpr hlen)))
  · rintro _ _ _ _ _ _ s _ rfl ⟨hhears, hsession, htool, hphase, hdone, hopen, hlength, hoff⟩  -- dlData
    change execDlData .. = _
    rw [execDlData, serve_heard hhears hsession htool]
    exact congrArg _ ((if_neg (by
      simp only [State.setKeeper, hphase, hdone, show s.keeper.dlOpen = true from hopen]
      decide)).trans ((if_neg (not_not.mpr hlength)).trans (if_neg (not_not.mpr hoff))))
  · rintro _ _ _ _ _ _ rfl ⟨hhears, hsession, htool, hphase, hdone⟩  -- verify
    change execVerify .. = _
    rw [execVerify, serve_heard hhears hsession htool]
    exact congrArg _ (if_neg (by
      simp only [State.setKeeper, hphase, hdone]
      decide))
  · rintro _ _ _ _ _ _ rfl ⟨hon, hverifying, hphase, hdone, hok⟩  -- verifyComplete
    exact execVerifyComplete_good hon hverifying hphase hdone hok
  · rintro _ _ _ _ _ _ rfl ⟨hhears, hsession, htool, hphase⟩  -- activate
    change execActivate .. = _
    rw [execActivate, serve_heard hhears hsession htool]
    exact congrArg _ (if_pos hphase)
  · rintro _ _ _ _ _ _ rfl ⟨hhears, hsession, htool, hphase⟩  -- rollback
    change execRollback .. = _
    rw [execRollback, serve_heard hhears hsession htool]
    exact congrArg _ (if_pos hphase)
  · rintro _ _ _ _ _ _ rfl ⟨hhears, hsession, htool, hmay⟩  -- serviceConfirm
    change execServiceConfirm .. = _
    rw [execServiceConfirm, serve_heard hhears hsession htool]
    exact congrArg _ (if_pos hmay)
  · rintro _ _ _ _ _ _ rfl ⟨hhears, hsession, htool⟩  -- dbgNonce
    change execDbgNonce .. = _
    rw [execDbgNonce, serve_heard hhears hsession htool]
    rfl
  · rintro _ _ _ _ _ _ _ rfl ⟨hhears, hsession, htool⟩  -- dbgToken
    change execDbgToken .. = _
    rw [execDbgToken, serve_heard hhears hsession htool]
    rfl

end Sys2Proof.Machine

/-! PROOFS. The commands of the work journal, of maintenance and of substitution. -/
namespace Sys2Proof.Machine

/-- The journal takes commands: it is on, ready, not fenced and not full. -/
structure State.JournalTakes (s : State) : Prop where
  alive : s.alive
  enabled : s.on JRNL_CTL_EN
  unfenced : s.on JRNL_STAT_FENCED = false
  ready : s.on JRNL_STAT_READY
  room : s.jrnl.queue.length < 64

section
variable {s : State} {t : Nat}

theorem State.JournalTakes.jTake (h : s.JournalTakes) {q i seq : Nat} {f : State → State} : jTake q i seq f s = f s :=
  jTake_ready h.alive h.enabled h.unfenced h.ready h.room

/-- An operation of a live item under its sequence number is queued as the item it makes of it. -/
theorem jItemOp_taken {i : Nat} {f : Item → Option Item} {y : Item} (h : s.JournalTakes) (hlive : (s.item i).state ≠ 0)
    (hseq : (s.item i).seq = s.get JRNL_ARG_ARG) (hf : f (s.item i) = some y) : jItemOp i f s = jPush { items := [(i, y)] } s := by
  rw [jItemOp, h.jTake, if_neg (not_or.mpr ⟨hlive, not_not.mpr hseq⟩), hf]

theorem jSubmit_next (h : s.JournalTakes) (hsrc : s.on (JRNL_SRC_CFG_EN (s.get JRNL_SUB_HDR_SRC))) (hkind : s.get JRNL_SUB_HDR_KIND ≠ 0)
    (hhdr : s.jrnl.hdrBad = false) (hseq : s.get JRNL_SUB_SEQ_SEQ = (s.jrec (s.get JRNL_SUB_HDR_SRC)).next)
    (hitems : s.openItems < 49088)
    (hopen : s.openOf (s.get JRNL_SUB_HDR_SRC) < orOne (s.get (JRNL_SRC_CFG_MAX_OPEN (s.get JRNL_SUB_HDR_SRC)))) :
    jSubmit s = jAccept (s.get JRNL_SUB_HDR_SRC) (s.get JRNL_SUB_HDR_KIND) (s.get JRNL_SUB_SEQ_SEQ) s := by
  rw [jSubmit, h.jTake, if_neg (by rw [hsrc]; decide), if_neg (by simp only [beq_eq_false_iff_ne.mpr hkind, hhdr]; decide),
    if_pos hseq, if_pos ⟨hitems, hopen⟩]

theorem jAck_next {q : Nat} {x : Nat × Item} (h : s.JournalTakes) (hx : s.jrnl.view.find q (s.get JRNL_ARG_ARG) = some x)
    (hseq : s.get JRNL_ARG_ARG = seqNext (s.jrec q).rpt) (hdone : x.2.state = 3) :
    jAck q s = jPush { items := [(x.1, {})], recs := [(q, { s.jrec q with rpt := s.get JRNL_ARG_ARG })] } s := by
  rw [jAck, h.jTake, hx]
  exact if_pos ⟨hseq, hdone⟩

theorem jRevertTask_ready {task : Nat} (h : s.on JRNL_STAT_READY) : jRevertTask task s =
    forEach (s.jrnl.view.items.filter (fun e => e.2.state == 2 && e.2.claimant == task)) (fun e x => jRevert e.1 x) s := if_pos h

end

/-- Settles O56: a journal that takes commands queues each operation of an item in the state its rule names. -/
theorem journalCommands : Obligations.JournalCommands := by
  unfold Obligations.JournalCommands
  refine ⟨?_, ?_, ?_, ?_, ?_, ?_, ?_, ?_, ?_, ?_⟩
  · rintro _ _ _ rfl ⟨ha, he, hf, hr, hq, hsrc, hkind, hhdr, hseq, hitems, hopen⟩  -- submit
    exact congrArg _ (jSubmit_next ⟨ha, he, hf, hr, hq⟩ hsrc hkind hhdr hseq hitems hopen)
  · rintro _ _ _ _ _ rfl ⟨ha, he, hf, hr, hq, hstate, hseq⟩  -- claim
    exact congrArg _ (jItemOp_taken ⟨ha, he, hf, hr, hq⟩ (hstate ▸ one_ne_zero) hseq (if_pos hstate))
  · rintro _ _ _ _ _ _ rfl ⟨ha, he, hf, hr, hq, hstate, hseq, hclaimant, hmin, hmax⟩  -- done
    exact congrArg _ (jItemOp_taken ⟨ha, he, hf, hr, hq⟩ (hstate ▸ two_ne_zero) hseq (if_pos ⟨hstate, hclaimant, hmin, hmax⟩))
  · rintro _ _ _ _ rfl ⟨ha, he, hf, hr, hq, hstate, hseq⟩  -- journalCancel
    exact congrArg _ (jItemOp_taken ⟨ha, he, hf, hr, hq⟩ (hstate ▸ one_ne_zero) hseq (if_pos hstate))
  · rintro _ _ _ _ _ rfl ⟨ha, he, hf, hr, hq, hx, hseq, hdone⟩  -- rptAck
    exact congrArg _ (jAck_next ⟨ha, he, hf, hr, hq⟩ hx hseq hdone)
  · rintro _ _ _ _ rfl ⟨ha, he, hf, hr, hq⟩  -- replay
    exact congrArg _ (State.JournalTakes.jTake ⟨ha, he, hf, hr, hq⟩)
  · rintro t _ _ s _ rfl ⟨hclocks, hf, hqueue⟩  -- journalDurable
    change execJournalDurable t s = _
    simp only [execJournalDurable, hqueue]
    exact if_pos (by rw [hclocks, hf]; rfl)
  · rintro _ _ _ _ rfl ⟨hdue, hr⟩  -- claimHoldExpiry
    exact (if_pos hdue).trans (congrArg _ (jRevertTask_ready hr))
  · rintro _ _ _ _ rfl h  -- ttlExpiry
    exact if_pos (by simpa only [Bool.and_eq_true, and_assoc, beq_iff_eq, bne_iff_ne, decide_eq_true_eq] using h)
  · rintro _ _ _ _ rfl ⟨hclocks, hr, hf⟩  -- journalRecoveryComplete
    exact if_neg (by simp only [hclocks, hr, hf]; decide)

section
variable {s : State} {t : Nat}

/-- A request for a good unit with no slot yet is given the free slot. -/
theorem mntFirmware_new {kind unit k : Nat} (ha : s.alive) (hunit : unitOk kind unit) (hlive : s.liveSlot kind unit = none)
    (hfree : s.freeSlot = some k) : mntFirmware kind unit s =
    (let x := s.setSlot k { state := 1, kind := kind, unit := unit, asker := .firmware, ord := s.mnt.reqs + 1, reqAt := s.now }
    let x : State := { x with mnt := { x.mnt with reqs := s.mnt.reqs + 1 } }
    mntClass k (x.canMove unit) (x.put MNT_REQ_STAT_SLOT k)) := by
  simp only [mntFirmware, ha, hunit, mntAsk, hlive, hfree]
  rfl

/-- The arbiter asks for nothing when an activity ends. -/
theorem arbiterAsk_finish {due ok : Bool} {kind unit : Nat} : arbiterAsk due kind unit (.finish ok) s = s :=
  if_neg (by simp)

end

/-- Settles O57: `actStep_finish` gives the effect of each kind of activity at its end. -/
theorem maintenanceActivities : Obligations.MaintenanceActivities := by
  unfold Obligations.MaintenanceActivities
  refine ⟨?_, ?_, ?_, ?_, ?_, ?_, ?_, ?_, ?_, ?_, ?_, ?_, ?_⟩
  · rintro _ _ _ _ _ _ rfl ⟨ha, hunit, hlive, hfree⟩  -- mntRequest
    exact congrArg _ (mntFirmware_new ha hunit hlive hfree)
  · rintro _ _ _ _ rfl h  -- mntCancel
    exact congrArg _ (if_pos (.inl h))
  · rintro _ _ _ _ rfl ⟨hclocks, hstate, hwait, hdue⟩  -- activityExpired
    exact if_pos (by simp only [hclocks, hstate, bne_iff_ne.mpr hwait, decide_eq_true hdue]; decide)
  · rintro u t _ s _ rfl ⟨hslot, hclocks⟩  -- eraseBlock
    change execEraseBlock u t (.finish true) s = _
    rw [execEraseBlock, actStep_finish hslot hclocks, if_pos rfl]
  · rintro layer tx ty t _ s _ rfl ⟨hslot, hclocks⟩  -- page
    change execPage layer tx ty t (.finish true) s = _
    rw [execPage, actStep_finish hslot hclocks, if_pos rfl]
  · rintro t _ s _ rfl ⟨hslot, hclocks, hshared⟩  -- telemetry
    change execTelemetry t (.finish true) s = _
    rw [execTelemetry, actStep_finish hslot hclocks]
    simp only [hshared, Bool.and_self, if_true]
  · rintro t _ s _ rfl ⟨hslot, hclocks⟩  -- logCopy
    change execLogCopy t (.finish true) s = _
    rw [execLogCopy, if_neg (by simp), actStep_finish hslot hclocks, if_pos rfl]
  · rintro i t down up _ s _ rfl ⟨hslot, hclocks, hout⟩  -- diagOff
    change execDiagOff i t (.finish true) down up s = _
    rw [execDiagOff, actStep_finish hslot hclocks]
    simp only [hout, Bool.not_true, Bool.or_self, Bool.false_eq_true, if_false]
  · rintro i t off gain _ s _ rfl ⟨hslot, hclocks, hoff⟩  -- calOn
    change execCalOn i t (.finish true) off gain s = _
    rw [execCalOn, actStep_finish hslot hclocks]
    simp only [Bool.not_true, Bool.false_eq_true, Nat.not_lt.mpr hoff, if_false]
    rfl
  · rintro u t corr _ s _ rfl ⟨hslot, hclocks, -⟩  -- scrubFlash
    change execScrubFlash u t (.finish true) corr false s = _
    rw [execScrubFlash, arbiterAsk_finish, actStep_finish hslot hclocks]
    rfl
  · rintro u t _ s _ rfl ⟨hslot, hclocks, -⟩  -- scrubSram
    change execScrubSram u t (.finish true) false s = _
    rw [execScrubSram, arbiterAsk_finish, actStep_finish hslot hclocks]
    rfl
  · rintro u t _ s _ rfl ⟨hslot, hclocks, -⟩  -- wearReloc
    change execWearReloc u t (.finish true) s = _
    rw [execWearReloc, arbiterAsk_finish, actStep_finish hslot hclocks]
    rfl
  · rintro c t _ s _ rfl ⟨hslot, hclocks, hop⟩  -- coreTest
    change execCoreTest c t (.finish true) s = _
    rw [execCoreTest, actStep_finish hslot hclocks]
    simp only [beq_eq_false_iff_ne.mpr hop, State.putBit, State.put_sub, Bool.false_and, Bool.false_eq_true, if_false, if_true]

section
variable {s : State} {op : Nat}

/-- With substitution enabled a command of the list is not passed over. -/
theorem subCommand_listed (hmin : 1 ≤ op) (hmax : op ≤ 7) (ha : s.alive) (hen : s.on SUB_CTL_EN) :
    ¬(op = 0 ∨ 7 < op ∨ !s.subOn) := by
  simp only [State.subOn, ha, hen, Bool.and_self, Bool.not_true, Bool.false_eq_true, or_false]
  omega

end

/-- Settles O58: with substitution enabled and no command running, each command takes the branch of its conditions. -/
theorem substitutionCommands : Obligations.SubstitutionCommands := by
  unfold Obligations.SubstitutionCommands
  refine ⟨?_, ?_, ?_, ?_, ?_, ?_, ?_⟩
  · rintro k _ _ _ rfl ⟨ha, hen, hidle, hmode⟩  -- subSeq
    refine congrArg _ ((if_neg (subCommand_listed (by decide) (by decide) ha hen)).trans ((if_neg (not_not.mpr hidle)).trans ?_))
    exact if_pos ⟨k.isLt, hmode⟩
  · rintro _ _ _ rfl ⟨ha, hen, hidle, hcontainer, htl, hsame⟩  -- subTl
    refine congrArg _ ((if_neg (subCommand_listed (by decide) (by decide) ha hen)).trans ((if_neg (not_not.mpr hidle)).trans ?_))
    exact (if_neg (by simp only [hcontainer, Option.isNone_eq_false_iff.mpr htl]; decide)).trans (if_neg (by rw [hsame]; decide))
  · rintro _ _ _ rfl ⟨ha, hen, hidle, hcontainer, hcal⟩  -- subCal
    refine congrArg _ ((if_neg (subCommand_listed (by decide) (by decide) ha hen)).trans ((if_neg (not_not.mpr hidle)).trans ?_))
    exact if_pos (by rw [hcontainer, hcal]; rfl)
  · rintro _ _ _ _ rfl ⟨ha, hen, hidle, hphase⟩  -- segMap
    refine congrArg _ ((if_neg (subCommand_listed (by decide) (by decide) ha hen)).trans ((if_neg (not_not.mpr hidle)).trans ?_))
    exact if_pos hphase
  · rintro _ _ _ _ rfl ⟨ha, hen, hidle⟩  -- segUnmap
    exact congrArg _ ((if_neg (subCommand_listed (by decide) (by decide) ha hen)).trans ((if_neg (not_not.mpr hidle)).trans rfl))
  · rintro c _ _ _ rfl ⟨ha, hen, hidle, hstranded⟩  -- coreOutCmd
    refine congrArg _ ((if_neg (subCommand_listed (by decide) (by decide) ha hen)).trans ((if_neg (not_not.mpr hidle)).trans ?_))
    exact if_neg (not_or.mpr ⟨Nat.not_le.mpr c.isLt, Bool.eq_false_iff.mp hstranded⟩)
  · rintro c _ _ _ rfl ⟨ha, hen, hidle⟩  -- coreIn
    refine congrArg _ ((if_neg (subCommand_listed (by decide) (by decide) ha hen)).trans ((if_neg (not_not.mpr hidle)).trans ?_))
    exact if_neg (Nat.not_le.mpr c.isLt)

end Sys2Proof.Machine

/-! PROOFS. The commands of the clocks and of the power states. -/
namespace Sys2Proof.Machine

section
variable {s : State} {t : Nat}

theorem clockReturn_qualified (hrun : s.prismRuns) (hpll : s.on PRISM_STAT_PLL_Q) (hsrc : s.get PRISM_STAT_SRC = 1) :
    clockReturn s = { s with prism := { s.prism with ret := true } } :=
  if_pos (by simp only [hrun, hpll, hsrc]; rfl)

theorem clockTrip_xin (hrun : s.prismRuns) (hxin : s.on PRISM_STAT_XIN_Q) : clockTrip .xin s = tripXin s :=
  if_pos (by simp only [hrun, hxin]; rfl)

theorem powerRequest_outside {target : Nat} (hmin : 1 ≤ target) (hmax : target ≤ 4) (hc : s.clocks)
    (hentry : s.get PWR_STAT_ENTRY = 0) : powerRequest target s = takeRequest target s := by
  rw [powerRequest, if_neg (by simp only [hc, Bool.true_eq_false, or_false]; omega), if_neg (not_not.mpr hentry)]

theorem endIdle_idle (h : s.power = .idle) : endIdle s =
    takePending (raiseAll 5 (overN 4 (fun c x => x.setCore c { x.core c with clockOff := false })
      ((clearWakes { s with power := .run }).put PWR_STAT_STATE 0))) := if_pos h

end

/-- Settles O59: the Prism takes each clock event in the state its rule names. -/
theorem clockCommands : Obligations.ClockCommands := by
  unfold Obligations.ClockCommands
  refine ⟨?_, ?_, ?_, ?_, ?_, ?_⟩
  · rintro _ _ _ rfl ⟨hrun, hpll, hsrc⟩  -- prismReturn
    exact congrArg _ (clockReturn_qualified hrun hpll hsrc)
  · rintro _ _ _ rfl ⟨hrun, hxin⟩  -- clockMonitorTrip
    exact congrArg _ (clockTrip_xin hrun hxin)
  · rintro _ _ _ rfl ⟨hrun, hhfrc⟩  -- sourceQualified
    exact (if_pos hrun).trans (congrArg _ (if_pos hhfrc))
  · rintro _ _ _ _ rfl h  -- lfcalMeasure
    exact if_pos (by simpa only [Bool.and_eq_true, beq_iff_eq] using h)
  · rintro n t _ s _ rfl ⟨hcause, hrun, hdue⟩  -- clockRereport
    change execClockRereport n t s = _
    simp only [execClockRereport, hcause, hrun, Bool.true_and]
    exact if_pos (decide_eq_true hdue)
  · intro _ _ h  -- prismGate
    exact if_pos h

/-- Settles O60: requests outside an entry are taken, and what is due ends its entry, its sleep or its IDLE. -/
theorem powerStates : Obligations.PowerStates := by
  unfold Obligations.PowerStates
  refine ⟨?_, ?_, ?_, ?_, ?_, ?_, ?_, ?_, ?_, ?_, ?_⟩
  · rintro _ _ _ rfl ⟨hclocks, hentry⟩  -- idleRequest
    exact congrArg _ (powerRequest_outside (by decide) (by decide) hclocks hentry)
  · rintro _ _ _ rfl ⟨hclocks, hentry⟩  -- sleepRequest
    exact congrArg _ (powerRequest_outside (by decide) (by decide) hclocks hentry)
  · rintro _ _ _ rfl ⟨hclocks, hentry⟩  -- deepRequest
    exact congrArg _ (powerRequest_outside (by decide) (by decide) hclocks hentry)
  · rintro _ _ _ rfl ⟨hclocks, hentry⟩  -- offRequest
    exact congrArg _ (powerRequest_outside (by decide) (by decide) hclocks hentry)
  · rintro _ _ _ rfl h  -- entryTmo
    exact if_pos (by simpa only [Bool.and_eq_true, beq_iff_eq, decide_eq_true_eq] using h)
  · rintro _ _ _ _ rfl ⟨hphase, hquiet⟩  -- targetStateReached
    exact (if_neg (not_not.mpr hphase)).trans (if_pos hquiet)
  · rintro _ _ _ _ _ rfl  -- wake
    rfl
  · rintro _ _ _ _ rfl  -- wakeInput
    rfl
  · rintro _ _ _ _ rfl h  -- alarm
    exact if_pos (decide_eq_true h)
  · rintro _ _ _ rfl ⟨hset, hover, hidle⟩  -- idleFrames
    exact (if_pos ⟨hset, hover⟩).trans (congrArg _ (endIdle_idle hidle))
  · rintro _ _ ⟨halive, hphase, hrunning⟩  -- machReq
    rw [exec_machReq _ halive, machReq_stored hphase (fun h => hrunning.resolve_left (not_not.mpr h))]

end Sys2Proof.Machine
